-- ==== Sys2Proof/Word.lean ====
section
/-! DEFINITION. The word types of the VG-8410 and their plainest names (00_scope.md R2, R5, R6). -/

namespace Sys2Proof

/-- A 64-bit general register or data address (02 R44, R51). -/
abbrev Word := BitVec 64
/-- A 32-bit instruction word, register or instruction address (02 R36, R55; 00 R6). -/
abbrev Word32 := BitVec 32
/-- One byte. -/
abbrev Byte := BitVec 8
/-- A general register number g0 to g31 (02 R44). -/
abbrev RegNo := BitVec 5
/-- A flat thread-context number, 0 to 2,047 (00 R5). -/
abbrev Tid := BitVec 11
/-- A flat core number, 0 to 511 (00 R5). -/
abbrev CoreId := BitVec 9
/-- A cluster number, region * 8 + cluster, 0 to 63 (01). -/
abbrev ClusterId := BitVec 6
/-- A region number 0 to 7 (01). -/
abbrev RegionId := BitVec 3
/-- A port number 0 to 7 (06 R186). -/
abbrev PortId := BitVec 3
/-- A Twin pair number, c * 8 + k (07 R243). -/
abbrev PairId := BitVec 6
/-- A host queue pair number 0 to 16,383 (10). -/
abbrev QueueId := BitVec 14
/-- A host function number 0 to 7 (10 R319). -/
abbrev FnId := BitVec 3
/-- A Crier source number 0 to 1,023 (09 R293). -/
abbrev SourceId := BitVec 10
/-- A 24-bit I/O address (02 R57). -/
abbrev IoAddr := BitVec 24

end Sys2Proof
end

