-- ==== Sys2Proof/Syntax.lean ====
section
/-! DEFINITION. The commands of the VG-8410 as one inductive type, with the types of their operands.
An instruction row names the thread that issues it; a row that is a write of a register names the requester and
the 32-bit value; a row that is an event of the outside carries what the outside supplies. -/

namespace Sys2Proof

/-- Who makes a register access (15_register_index.md R458). -/
inductive Requester where
  | core (t : Tid)      -- IN, IND, OUT, OUTD of a thread
  | pf (f : FnId)       -- a BAR of a host function; function 0 is PF0 BAR0
  | sideband            -- the Lamplighter sideband (12 R405)
  | ledger              -- a Ledger record, performed as an OUT by a steward thread (13 R432)
  deriving DecidableEq, Repr

/-- One slot of a paired word (02_instruction_encoding.md R36). -/
structure ShortSlot where
  op : BitVec 5
  rd : BitVec 5
  rs : BitVec 5
  deriving DecidableEq, Repr

/-- An exception as a step raises it: its vector and what CO_XCAUSE and CO_XADDR take (04 R129, R132). -/
structure Raise where
  vector : BitVec 6
  addr0  : Option Word := none
  addr1  : Option Word := none
  slotB  : Bool := false
  split  : Bool := false
  deriving DecidableEq, Repr

/-- What an EXCEPTION_ENTRY command enters for: the word at the thread's PC, fetched and decoded
(02 R37, R40, R43, R56), or an exception that the command names. -/
inductive EntryCause where
  | fetched
  | raised (x : Raise)
  deriving DecidableEq, Repr

/-- A Toll arbiter (05 R173). -/
inductive ArbiterId where
  | cluster (c : ClusterId)
  | annex (c : ClusterId) (unit : BitVec 3)
  | crossbar (r : RegionId)
  | fabric (target : BitVec 4) (channel : BitVec 2)   -- channel 0 request, 1 response, 2 escape
  deriving DecidableEq, Repr

/-- Who makes a request at a Toll arbiter (05 R173, R175, R180): a thread of a core, or a block of the device, with the
class of the frame or queue that it serves. -/
inductive Requestor where
  | core (t : Tid)
  | tally
  | assay
  | hostIn (cls : BitVec 2)
  | engine (cls : BitVec 2)
  | crier (cls : BitVec 2)
  | session (cls : BitVec 2)
  | egress (cls : BitVec 2)
  | ingress (cls : BitVec 2)
  deriving DecidableEq, Repr

/-- A request that arrives at an arbiter (05 R174); of a near-Annex operation its opcode unit and its 64-byte steps. -/
structure ArbRequest where
  sender : Requestor
  unit   : BitVec 3 := 0
  steps  : Nat := 1
  deriving DecidableEq, Repr

/-- A frame as it ends at a lane: its bytes without the FCS, the checks of R189, the codeword counts of the
frame, and the first cell that the frame buffer offers (06 R189, R213). -/
structure RxFrame where
  bytes : List Byte
  fcsOk : Bool
  corrected : Nat
  uncorrectable : Nat
  cell : Nat
  deriving DecidableEq, Repr

/-- A host memory request to a BAR (10 R324, R325). -/
inductive BarRequest where
  | readReg (off : BitVec 26) (bytes : Nat)
  | writeReg (off : BitVec 26) (data : List Byte)
  | readBar2 (off : BitVec 16)
  | writeBar2 (off : BitVec 16) (v : Word32)
  deriving DecidableEq, Repr

/-- A PCIe configuration request (10 R319, R328, R344). -/
inductive ConfigRequest where
  | busMaster (on : Bool)
  | msix (enable mask : Bool)
  | tags (width : BitVec 4)
  | devCtl2 (timeout : BitVec 4)
  | relaxed (on : Bool)
  | power (d3hot : Bool)
  | payload (mps mrrs : BitVec 3)
  | errors (report : Bool) (clear : Word32)
  | read (off : BitVec 12)
  deriving DecidableEq, Repr

/-- What a Bellows evaluation measures for each region, and the die power (07 R254, R256, R259, R260). -/
structure BellowsRegion where
  dly    : BitVec 12     -- replica-ring stage delay, ps
  age    : BitVec 8      -- slowdown, parts per thousand
  deriving DecidableEq, Repr

structure BellowsInputs where
  regions : List BellowsRegion
  power   : Nat          -- average over 100 us, 0.25 W units
  deriving DecidableEq, Repr

/-- A sensor refresh (11 R352, R353): sixteen temperatures and eight supplies, absent when the self-check fails,
and whether VIN_CORE and VIN_AON lie within their operating ranges. -/
structure SensorInputs where
  temps  : List (Option (BitVec 12))
  vsns   : List (Option (BitVec 11))
  supplyOk : Bool
  deriving DecidableEq, Repr

/-- What starts at step 1 of the boot (13 R413). -/
inductive PowerOnCause where
  | porst | lamplighter | vinAon
  deriving DecidableEq, Repr

/-- Wake sources in Dark (12, table of "Waking"). -/
inductive WakeKind where
  | addressMatch | command | ucie | wakeSet (src : SourceId)
  deriving DecidableEq, Repr

/-- A Lamplighter brown-out (12 R401): the LDO output or VIN_AON. -/
inductive BrownOutKind where
  | ldo | vinAon
  deriving DecidableEq, Repr

/-- Whose read of partner-die memory a timeout ends (10 R327). -/
inductive ReadOwner where
  | thread (t : Tid)
  | queue (q : QueueId)
  deriving DecidableEq, Repr

/-- The commands of the block: one constructor for each row of spec/opcode_table.json. -/
inductive Instr where
  /-- NOP (R65): Long NOP instruction does nothing. -/
  | nop (t : Tid)
  /-- TRAP (R71): Raises Trap naming the following word. -/
  | trap (t : Tid) (code : BitVec 14)
  /-- ERET (R89): Returns from an exception or interrupt, restoring PC, lk, g1-g5 and ST from the frame, resuming a micro-routine if MIP is 1. -/
  | eret (t : Tid)
  /-- WAIT (R85): Thread enters WAIT unless an interrupt is already deliverable. -/
  | wait (t : Tid)
  /-- WAITE (R86): As WAIT, with a Wait-timeout after WTMO ns. -/
  | waite (t : Tid)
  /-- FENCE (R167): Waits until every earlier data access and SEND of the thread is performed. -/
  | fence (t : Tid)
  /-- IFENCE (R87): Waits for earlier ISTOREs, discards fetched words, disengages the loop buffer and invalidates the instruction cache. -/
  | ifence (t : Tid)
  /-- MFSR (R48): Reads a special register into rd. -/
  | mfsr (t : Tid) (rd : RegNo) (n : BitVec 5)
  /-- MTSR (R47): Writes a special register from ra under the privilege rules. -/
  | mtsr (t : Tid) (n : BitVec 5) (ra : RegNo)
  /-- DONE (R90): Ends the message handler; frees the frame in Elastic mode or starts the Accord in Metered mode. -/
  | done (t : Tid)
  /-- ADD (R72): rd gets ra + rb. -/
  | add (t : Tid) (rd ra rb : RegNo)
  /-- SUB (R72): rd gets ra - rb. -/
  | sub (t : Tid) (rd ra rb : RegNo)
  /-- AND (R72): rd gets ra & rb. -/
  | and (t : Tid) (rd ra rb : RegNo)
  /-- OR (R72): rd gets ra | rb. -/
  | or (t : Tid) (rd ra rb : RegNo)
  /-- XOR (R72): rd gets ra ^ rb. -/
  | xor (t : Tid) (rd ra rb : RegNo)
  /-- ANDN (R72): rd gets ra & ~rb. -/
  | andn (t : Tid) (rd ra rb : RegNo)
  /-- SHL (R72): Shift left by rb[5:0]. -/
  | shl (t : Tid) (rd ra rb : RegNo)
  /-- SHR (R72): Logical shift right by rb[5:0]. -/
  | shr (t : Tid) (rd ra rb : RegNo)
  /-- SAR (R72): Arithmetic shift right by rb[5:0]. -/
  | sar (t : Tid) (rd ra rb : RegNo)
  /-- ROR (R72): Rotate right by rb[5:0]. -/
  | ror (t : Tid) (rd ra rb : RegNo)
  /-- SLT (R72): Signed set-less-than. -/
  | slt (t : Tid) (rd ra rb : RegNo)
  /-- SLTU (R72): Unsigned set-less-than. -/
  | sltu (t : Tid) (rd ra rb : RegNo)
  /-- MIN (R72): Signed minimum. -/
  | min (t : Tid) (rd ra rb : RegNo)
  /-- MAX (R72): Signed maximum. -/
  | max (t : Tid) (rd ra rb : RegNo)
  /-- MINU (R72): Unsigned minimum. -/
  | minu (t : Tid) (rd ra rb : RegNo)
  /-- MAXU (R72): Unsigned maximum. -/
  | maxu (t : Tid) (rd ra rb : RegNo)
  /-- MUL (R72): Low 64 bits of the product. -/
  | mul (t : Tid) (rd ra rb : RegNo)
  /-- MULH (R72): High 64 bits of the signed product. -/
  | mulh (t : Tid) (rd ra rb : RegNo)
  /-- MULHU (R72): High 64 bits of the unsigned product. -/
  | mulhu (t : Tid) (rd ra rb : RegNo)
  /-- DIV (R73): Signed division with fixed edge-case results. -/
  | div (t : Tid) (rd ra rb : RegNo)
  /-- DIVU (R73): Unsigned division with fixed edge-case results. -/
  | divu (t : Tid) (rd ra rb : RegNo)
  /-- REM (R73): Signed remainder with fixed edge-case results. -/
  | rem (t : Tid) (rd ra rb : RegNo)
  /-- REMU (R73): Unsigned remainder with fixed edge-case results. -/
  | remu (t : Tid) (rd ra rb : RegNo)
  /-- ADDW (R72): 32-bit add, sign-extended. -/
  | addw (t : Tid) (rd ra rb : RegNo)
  /-- SUBW (R72): 32-bit subtract, sign-extended. -/
  | subw (t : Tid) (rd ra rb : RegNo)
  /-- SHLW (R72): 32-bit shift left, sign-extended. -/
  | shlw (t : Tid) (rd ra rb : RegNo)
  /-- SHRW (R72): 32-bit logical shift right, sign-extended. -/
  | shrw (t : Tid) (rd ra rb : RegNo)
  /-- SARW (R72): 32-bit arithmetic shift right, sign-extended. -/
  | sarw (t : Tid) (rd ra rb : RegNo)
  /-- MULW (R72): 32-bit multiply, sign-extended. -/
  | mulw (t : Tid) (rd ra rb : RegNo)
  /-- CLZ (R73): BITOP count leading zeros. -/
  | clz (t : Tid) (rd ra : RegNo)
  /-- CTZ (R73): BITOP count trailing zeros. -/
  | ctz (t : Tid) (rd ra : RegNo)
  /-- POPC (R73): BITOP population count. -/
  | popc (t : Tid) (rd ra : RegNo)
  /-- BSWAP (R73): BITOP byte reversal. -/
  | bswap (t : Tid) (rd ra : RegNo)
  /-- SEXTB (R73): BITOP sign-extend byte. -/
  | sextb (t : Tid) (rd ra : RegNo)
  /-- SEXTH (R73): BITOP sign-extend halfword. -/
  | sexth (t : Tid) (rd ra : RegNo)
  /-- ZEXTB (R73): BITOP zero-extend byte. -/
  | zextb (t : Tid) (rd ra : RegNo)
  /-- ZEXTH (R73): BITOP zero-extend halfword. -/
  | zexth (t : Tid) (rd ra : RegNo)
  /-- ADDI (R73): Add sign-extended immediate. -/
  | addi (t : Tid) (rd ra : RegNo) (imm : BitVec 14)
  /-- ANDI (R73): AND with zero-extended immediate. -/
  | andi (t : Tid) (rd ra : RegNo) (imm : BitVec 14)
  /-- ORI (R73): OR with zero-extended immediate. -/
  | ori (t : Tid) (rd ra : RegNo) (imm : BitVec 14)
  /-- XORI (R73): XOR with zero-extended immediate. -/
  | xori (t : Tid) (rd ra : RegNo) (imm : BitVec 14)
  /-- SHLI (R73): Shift left by immediate. -/
  | shli (t : Tid) (rd ra : RegNo) (count : BitVec 6)
  /-- SHRI (R73): Logical shift right by immediate. -/
  | shri (t : Tid) (rd ra : RegNo) (count : BitVec 6)
  /-- SARI (R73): Arithmetic shift right by immediate. -/
  | sari (t : Tid) (rd ra : RegNo) (count : BitVec 6)
  /-- RORI (R73): Rotate right by immediate. -/
  | rori (t : Tid) (rd ra : RegNo) (count : BitVec 6)
  /-- SLTI (R73): Signed compare with immediate. -/
  | slti (t : Tid) (rd ra : RegNo) (imm : BitVec 14)
  /-- SLTIU (R73): Unsigned compare with sign-extended immediate. -/
  | sltiu (t : Tid) (rd ra : RegNo) (imm : BitVec 14)
  /-- MULI (R73): Multiply by immediate. -/
  | muli (t : Tid) (rd ra : RegNo) (imm : BitVec 14)
  /-- ADDWI (R73): 32-bit add immediate, sign-extended. -/
  | addwi (t : Tid) (rd ra : RegNo) (imm : BitVec 14)
  /-- MOVI (R73): rd gets sign-extended imm19. -/
  | movi (t : Tid) (rd : RegNo) (imm : BitVec 19)
  /-- ORH (R73): ORs a 16-bit immediate into a selected halfword of rd. -/
  | orh (t : Tid) (rd : RegNo) (half : BitVec 2) (imm : BitVec 16)
  /-- ADDPC (R73): rd gets PC plus scaled immediate. -/
  | addpc (t : Tid) (rd : RegNo) (imm : BitVec 19)
  /-- LDB (R75): 8-bit load, zero-extended. -/
  | ldb (t : Tid) (rd ra : RegNo) (mode : BitVec 2) (disp : BitVec 12)
  /-- LDBS (R75): 8-bit load, sign-extended. -/
  | ldbs (t : Tid) (rd ra : RegNo) (mode : BitVec 2) (disp : BitVec 12)
  /-- LDH (R75): 16-bit load, zero-extended. -/
  | ldh (t : Tid) (rd ra : RegNo) (mode : BitVec 2) (disp : BitVec 12)
  /-- LDHS (R75): 16-bit load, sign-extended. -/
  | ldhs (t : Tid) (rd ra : RegNo) (mode : BitVec 2) (disp : BitVec 12)
  /-- LDW (R75): 32-bit load, zero-extended. -/
  | ldw (t : Tid) (rd ra : RegNo) (mode : BitVec 2) (disp : BitVec 12)
  /-- LDWS (R75): 32-bit load, sign-extended. -/
  | ldws (t : Tid) (rd ra : RegNo) (mode : BitVec 2) (disp : BitVec 12)
  /-- LDD (R75): 64-bit load, with split, ECC and base write-back handling. -/
  | ldd (t : Tid) (rd ra : RegNo) (mode : BitVec 2) (disp : BitVec 12)
  /-- STB (R75): 8-bit store. -/
  | stb (t : Tid) (rs ra : RegNo) (mode : BitVec 2) (disp : BitVec 12)
  /-- STH (R75): 16-bit store. -/
  | sth (t : Tid) (rs ra : RegNo) (mode : BitVec 2) (disp : BitVec 12)
  /-- STW (R75): 32-bit store. -/
  | stw (t : Tid) (rs ra : RegNo) (mode : BitVec 2) (disp : BitVec 12)
  /-- STD (R75): 64-bit store, with split-store and capture handling. -/
  | std (t : Tid) (rs ra : RegNo) (mode : BitVec 2) (disp : BitVec 12)
  /-- TAS (R81): Test-and-set lock with rank check; writes TID+1 if the word was 0. -/
  | tas (t : Tid) (rd ra : RegNo) (rank : BitVec 4)
  /-- RELS (R82): Releases a lock by storing 0 and clearing the HELD bit. -/
  | rels (t : Tid) (ra : RegNo) (rank : BitVec 4)
  /-- LR (R83): 64-bit load-reserved with optional spin timer and Wait-timeout. -/
  | lr (t : Tid) (rd ra : RegNo) (timed : Bool)
  /-- LRW (R83): 32-bit load-reserved. -/
  | lrw (t : Tid) (rd ra : RegNo) (timed : Bool)
  /-- SC (R84): 64-bit store-conditional against the reservation. -/
  | sc (t : Tid) (rd ra rb : RegNo)
  /-- SCW (R84): 32-bit store-conditional. -/
  | scw (t : Tid) (rd ra rb : RegNo)
  /-- IN (R91): 32-bit I/O register read. -/
  | ioIn (t : Tid) (rd ra : RegNo) (imm : BitVec 14)
  /-- OUT (R91): 32-bit I/O register write. -/
  | out (t : Tid) (rs ra : RegNo) (imm : BitVec 14)
  /-- IND (R91): 64-bit I/O read, lower offset first. -/
  | ind (t : Tid) (rd ra : RegNo) (imm : BitVec 14)
  /-- OUTD (R91): 64-bit I/O write, higher offset first. -/
  | outd (t : Tid) (rs ra : RegNo) (imm : BitVec 14)
  /-- ILOAD (R92): Reads an instruction-space word. -/
  | iload (t : Tid) (rd ra : RegNo) (imm : BitVec 14)
  /-- ISTORE (R92): Writes an instruction-space word. -/
  | istore (t : Tid) (rs ra : RegNo) (imm : BitVec 14)
  /-- B (R62): Unconditional relative branch. -/
  | b (t : Tid) (off : BitVec 24)
  /-- BL (R62): Relative branch writing lk. -/
  | bl (t : Tid) (off : BitVec 24)
  /-- BR (R62): Branch to register target. -/
  | br (t : Tid) (ra : RegNo)
  /-- BLR (R62): Branch to register target writing lk. -/
  | blr (t : Tid) (ra : RegNo)
  /-- BEQ (R77): Branch if equal. -/
  | beq (t : Tid) (ra rb : RegNo) (off : BitVec 14)
  /-- BNE (R77): Branch if not equal. -/
  | bne (t : Tid) (ra rb : RegNo) (off : BitVec 14)
  /-- BLT (R77): Branch if signed less. -/
  | blt (t : Tid) (ra rb : RegNo) (off : BitVec 14)
  /-- BGE (R77): Branch if signed greater or equal. -/
  | bge (t : Tid) (ra rb : RegNo) (off : BitVec 14)
  /-- BLTU (R77): Branch if unsigned less. -/
  | bltu (t : Tid) (ra rb : RegNo) (off : BitVec 14)
  /-- BGEU (R77): Branch if unsigned greater or equal. -/
  | bgeu (t : Tid) (ra rb : RegNo) (off : BitVec 14)
  /-- CALLM (R78): Micro-routine call saving masked registers in a frame. -/
  | callm (t : Tid) (ra : RegNo) (mask : BitVec 16) (steps : Nat)
  /-- RETM (R80): Micro-routine return restoring masked registers. -/
  | retm (t : Tid) (mask : BitVec 16) (steps : Nat)
  /-- SEND (R94): Queues a frame for a port and class, returning a status. -/
  | send (t : Tid) (rd ra rb : RegNo) (port : PortId) (cls : BitVec 2)
  /-- MBRD (R93): Copies the next or current mailbox header to memory. -/
  | mbrd (t : Tid) (rd ra : RegNo)
  /-- MOVB (R95): Interruptible byte copy. -/
  | movb (t : Tid) (rd ra rb : RegNo) (steps : Nat)
  /-- FILLB (R95): Interruptible byte fill. -/
  | fillb (t : Tid) (rd ra rb : RegNo) (steps : Nat)
  /-- PAIRED_WORD (R39): Executes a word with two short operations as one instruction. -/
  | pairedWord (t : Tid) (a b : ShortSlot)
  /-- AKEY128 (R102): Expands a 128-bit AES key into the context. -/
  | akey128 (t : Tid) (rd ra rb : RegNo)
  /-- AKEY256 (R102): Expands a 256-bit AES key into the context. -/
  | akey256 (t : Tid) (rd ra rb : RegNo)
  /-- GCMENC (R102): GCM-encrypts one block in place. -/
  | gcmenc (t : Tid) (rd ra rb : RegNo)
  /-- GCMDEC (R102): GCM-decrypts one block in place. -/
  | gcmdec (t : Tid) (rd ra rb : RegNo)
  /-- GHASH (R102): Absorbs an additional-data block. -/
  | ghash (t : Tid) (rd ra rb : RegNo)
  /-- GCMTAG (R102): Writes the GCM tag. -/
  | gcmtag (t : Tid) (rd ra rb : RegNo)
  /-- CMAC (R103): Absorbs one CMAC block. -/
  | cmac (t : Tid) (rd ra rb : RegNo)
  /-- CMACEND (R103): Takes the last CMAC block and writes the tag. -/
  | cmacend (t : Tid) (rd ra rb : RegNo)
  /-- S256INIT (R104): Initialises a SHA-256 state. -/
  | s256init (t : Tid) (rd ra : RegNo)
  /-- S256BLK (R104): Processes one SHA-256 block. -/
  | s256blk (t : Tid) (rd ra rb : RegNo)
  /-- S256END (R104): Writes the SHA-256 digest and invalidates the state. -/
  | s256end (t : Tid) (rd ra rb : RegNo)
  /-- S384INIT (R104): Initialises a SHA-384 state. -/
  | s384init (t : Tid) (rd ra : RegNo)
  /-- S384BLK (R104): Processes one SHA-384 block. -/
  | s384blk (t : Tid) (rd ra rb : RegNo)
  /-- S384END (R104): Writes the SHA-384 digest and invalidates the state. -/
  | s384end (t : Tid) (rd ra rb : RegNo)
  /-- CRC32C (R105): Chains a CRC-32C over a byte range. -/
  | crc32c (t : Tid) (rd ra rb : RegNo)
  /-- CSUM (R106): Adds bytes to a ones'-complement sum. -/
  | csum (t : Tid) (rd ra rb : RegNo)
  /-- CSFOLD (R106): Folds and complements a checksum. -/
  | csfold (t : Tid) (rd ra : RegNo)
  /-- SLOOK (R107): Looks up a session key. -/
  | slook (t : Tid) (rd ra rb : RegNo)
  /-- SINS (R107): Finds or inserts a session key. -/
  | sins (t : Tid) (rd ra rb : RegNo)
  /-- SDEL (R107): Deletes a session key. -/
  | sdel (t : Tid) (rd ra rb : RegNo)
  /-- DADD (R108): Packed decimal add. -/
  | dadd (t : Tid) (rd ra rb : RegNo)
  /-- DSUB (R108): Packed decimal subtract. -/
  | dsub (t : Tid) (rd ra rb : RegNo)
  /-- DMUL (R108): Packed decimal multiply. -/
  | dmul (t : Tid) (rd ra rb : RegNo)
  /-- DCMP (R108): Packed decimal compare. -/
  | dcmp (t : Tid) (rd ra rb : RegNo)
  /-- DCHK (R108): Checks a packed operand's validity. -/
  | dchk (t : Tid) (rd ra : RegNo)
  /-- A2P (R109): ASCII digits to packed decimal. -/
  | a2p (t : Tid) (rd ra rb : RegNo)
  /-- P2A (R109): Packed decimal to ASCII digits. -/
  | p2a (t : Tid) (rd ra rb : RegNo)
  /-- E2P (R109): EBCDIC zoned digits to packed decimal. -/
  | e2p (t : Tid) (rd ra rb : RegNo)
  /-- P2E (R109): Packed decimal to EBCDIC digits. -/
  | p2e (t : Tid) (rd ra rb : RegNo)
  /-- P2B (R109): Packed decimal to binary. -/
  | p2b (t : Tid) (rd ra : RegNo)
  /-- B2P (R109): Binary to packed decimal. -/
  | b2p (t : Tid) (rd ra : RegNo)
  /-- FARX (R69): Sends a far-Annex request to the partner die and enters far-Annex wait. -/
  | farx (t : Tid) (op : BitVec 3) (rd ra rb : RegNo) (fn : BitVec 9)
  /-- FAR_ANNEX_RESPONSE (R349): A far-Annex response message arrives and writes rd, or is discarded as late. -/
  | farAnnexResponse (vid : BitVec 16) (tag : Word32) (value : Word)
  /-- ANNEX_TIMEOUT (R350): The far-Annex timeout expires and raises Annex-timeout. -/
  | annexTimeout (t : Tid)
  /-- EXCEPTION_ENTRY (R132): Stores the exception frame, reads the vector and starts the handler once earlier words complete. -/
  | exceptionEntry (t : Tid) (cause : EntryCause)
  /-- INTERRUPT_ENTRY (R132): Delivers an offered interrupt at an instruction boundary, claiming its source. -/
  | interruptEntry (t : Tid)
  /-- THREAD_RESET (R136): Resets a thread's registers and starts it at vector entry 0. -/
  | threadReset (t : Tid)
  /-- RST (R136): Write of CO_TCTL.RST performing a thread reset. -/
  | rst (rq : Requester) (t : Tid) (v : Word32)
  /-- WAIT_TIMEOUT (R86): A WAITE's timeout expires and raises Wait-timeout. -/
  | waitTimeout (t : Tid)
  /-- LOCAL_TIMER_EXPIRY (R138): The core's local timer expires, setting PEND and offering an interrupt. -/
  | localTimerExpiry (c : CoreId)
  /-- BOUNDARY_UPDATE (R11): A Boundary field's last written value takes effect at its boundary. -/
  | boundaryUpdate (a : IoAddr)
  /-- BUDGET (R149): A Metered run's beat count exceeds its declared B. -/
  | budget (c : CoreId)
  /-- RUNAWAY (R274): A Metered run reaches beat 4,096 without DONE; buffers discarded and header to fallback. -/
  | runaway (p : PairId)
  /-- SLOT_BOUNDARY (R245): At each slot boundary the scheduler dispatches a waiting header to the slot's pair. -/
  | slotBoundary
  /-- HANDLER_ENTRY (R246): Dispatched pair's threads leave Metered idle at a beat boundary with the dispatch state. -/
  | handlerEntry (p : PairId)
  /-- BANK_SWITCH (R244): A pending slot-table bank switch takes effect at a table-frame boundary. -/
  | bankSwitch
  /-- FALLBACK (R248): A waiting Prompt header that has waited past PS_FBWAIT goes to its fallback. -/
  | fallback (g : BitVec 4)
  /-- DONE_TIMING (R268): The other Twin has not issued DONE within 8 beats, a disagreement. -/
  | doneTiming (p : PairId)
  /-- RESTART (R272): Both cores re-enter the handler for the second run. -/
  | restart (p : PairId)
  /-- RELEASE (R270): The commit buffer of the region-6 core is performed entry by entry. -/
  | release (p : PairId)
  /-- ACCORD_COMPLETE (R270): The last released entry is performed and the pair returns to Metered idle. -/
  | accordComplete (p : PairId)
  /-- ARBITER_GRANT (R174): A Toll arbiter grants one pending request. -/
  | arbiterGrant (a : ArbiterId) (arrivals : List ArbRequest) (answered : List (BitVec 7))
  /-- STARVATION (R176): A fabric input's wait exceeds TL_STCFG.LIMIT, setting its flag and event. -/
  | starvation (a : ArbiterId) (input : BitVec 7)
  /-- FRAME_RECEIVE (R189): A frame is received, checked, walked by Porter, classified and admitted or dropped. -/
  | frameReceive (p : PortId) (rx : RxFrame)
  /-- HEADER_WRITE (R220): A held header is written to a mailbox when it has room or its region wakes. -/
  | headerWrite (t : Tid)
  /-- PFC_REPEAT (R193): A pause frame is repeated every half quanta time. -/
  | pfcRepeat (p : PortId)
  /-- PFC_RECEIVE (R194): A received PFC frame pauses matching egress queues. -/
  | pfcReceive (p : PortId) (prios : BitVec 8) (quanta : List (BitVec 16))
  /-- FRAME_BOUNDARY (R226): At each egress frame boundary the port picks and transmits the next frame. -/
  | frameBoundary (p : PortId)
  /-- PT_TXTSID (R192): A read pops the two-step FIFO head and copies its timestamp. -/
  | ptTxtsid (rq : Requester) (p : PortId)
  /-- LANE_ERROR_BURST (R188): 16 uncorrectable codewords within 1 ms report a lane error burst. -/
  | laneErrorBurst (p : PortId)
  /-- LINK_UP (R187): Auto-negotiation and training complete and the port link comes up. -/
  | linkUp (p : PortId) (lpiOk : Bool)
  /-- LPI (R190): A port with nothing to send and agreement enters LPI. -/
  | lpi (p : PortId)
  /-- LPI_WAKE (R190): A frame queued for a port in LPI wakes its transmit side. -/
  | lpiWake (p : PortId)
  /-- EN (R187): Write of PT_CTL.EN starts the port clock and link bring-up. -/
  | ptEn (rq : Requester) (p : PortId) (v : Word32)
  /-- BAR_ACCESS (R325): A host memory request to a BAR acts as IN/OUT or reaches the frame buffer. -/
  | barAccess (f : FnId) (x : BarRequest)
  /-- HOST_READ_COMPLETION (R327): A host-window read completion arrives, returning data or raising Data-protection. -/
  | hostReadCompletion (t : Tid) (ok : Bool) (data : List Byte)
  /-- LINK_TRAINING (R320): Link training completes to Active or fails toward LinkError. -/
  | linkTraining (ok : Bool) (speed : BitVec 2) (repair : Bool)
  /-- RETRAIN (R320): Write of GL_LINK_CTL.RETRAIN or an error retrains the link. -/
  | retrain (w : Option (Requester × Word32))
  /-- LINKERROR (R320): From LinkError the link retries training every 10 ms. -/
  | linkError
  /-- L1 (R321): The adapter enters L1 when Banked and idle. -/
  | l1
  /-- L1_EXIT (R320): Traffic from either end takes the link from L1 to Active. -/
  | l1Exit
  /-- LINK_HOT_RESET (R413): A received hot reset resets every function and retrains the link. -/
  | linkHotReset
  /-- FUNCTION_LEVEL_RESET (R344): A Function Level Reset stops the function's queues and clears its MSI-X table. -/
  | functionLevelReset (f : FnId)
  /-- QUEUE_START (R330): Write of HQ_CFG.EN 1 starts a queue pair if valid. -/
  | queueStart (rq : Requester) (q : QueueId) (v : Word32)
  /-- QUEUE_STOP (R344): Write of HQ_CFG.EN 0 stops the queue and redirects waiting frames. -/
  | queueStop (rq : Requester) (q : QueueId) (v : Word32)
  /-- SQTAIL (R342): Doorbell WHICH 0 sets SQTAIL. -/
  | sqtail (rq : Requester) (q : QueueId) (index : BitVec 16)
  /-- CQHEAD (R342): Doorbell WHICH 1 sets CQHEAD. -/
  | cqhead (rq : Requester) (q : QueueId) (index : BitVec 16)
  /-- SQHEAD (R342): Doorbell WHICH 2 sets SQHEAD in software mode. -/
  | sqhead (rq : Requester) (q : QueueId) (index : BitVec 16)
  /-- HQ_POST (R341): A post block reference appends a POST completion after its data is read. -/
  | hqPost (rq : Requester) (q : QueueId) (v : Word32)
  /-- SQ_DESCRIPTOR (R338): An engine takes the next SQ descriptor of a queue in its round-robin turn. -/
  | sqDescriptor (q : QueueId) (read : Option (List Byte))
  /-- TX (R338): SQ descriptor OP 1 queues host data as an egress frame. -/
  | tx (q : QueueId) (cell : Nat) (read : Option (List Byte))
  /-- MSG (R338): SQ descriptor OP 2 places host data as a message with a header. -/
  | msg (q : QueueId) (cell : Nat) (read : Option (List Byte))
  /-- SQ_NOP (R338): SQ descriptor OP 0 does nothing but complete. -/
  | sqNop (q : QueueId)
  /-- RX_COMPLETION (R334): The engine writes a frame to a host queue as an RX completion. -/
  | rxCompletion (q : QueueId)
  /-- MSIX_HOLD_OFF (R315): A vector's moderation hold-off expires and one message is sent. -/
  | msixHoldOff (q : QueueId)
  /-- MSIX_UNMASK (R314): Unmasking or enabling a vector sends its pending message. -/
  | msixUnmask (q : QueueId)
  /-- SWSET (R296): Write of CR_SWSET asserts software-set sources. -/
  | swset (rq : Requester) (w : BitVec 3) (v : Word32)
  /-- SWCLR (R296): Write of CR_SWCLR withdraws pending software-set sources. -/
  | swclr (rq : Requester) (w : BitVec 3) (v : Word32)
  /-- COMPLETE (R310): Write of CR_MYCMPL or CR_TCMPL ends a level-source claim. -/
  | complete (rq : Requester) (t : Option Tid) (v : Word32)
  /-- MODERATION_HOLD_OFF (R304): A source's hold-off expires and its held event is offered. -/
  | moderationHoldOff (src : SourceId) (th : BitVec 2)
  /-- DECLINE (R306): At its next boundary a thread declines an offer no longer above its THR and IL. -/
  | decline (t : Tid)
  /-- WAKE_SET_EVENT (R313): A watched source event in Dark starts the wake sequence. -/
  | wakeSetEvent (src : SourceId)
  /-- ERROR_REPORT (R278): An error reported to the Assay is logged and queued for a test. -/
  | errorReport (unit : Word32) (cause : BitVec 4) (detail : BitVec 16)
  /-- AS_TREQ (R278): Write of a unit code queues a host-ordered test. -/
  | asTreq (rq : Requester) (v : Word32)
  /-- TEST_START (R280): The first queued test that can start begins. -/
  | testStart
  /-- VERDICT (R281): A test ends with a transient or lasting verdict. -/
  | verdict (unit : Word32) (pass : Bool)
  /-- RETIREMENT (R283): A unit with a lasting verdict is retired step by step. -/
  | retirement (unit : Word32)
  /-- RECOVERY_WINDOW (R286): The recovery window's time ends and it closes if its faults are complete. -/
  | recoveryWindow
  /-- RESUME (R292): Write of AS_HOLD.RESUME retests the cause and leaves Safe Hold if it passes. -/
  | resume (rq : Requester) (v : Word32) (pass : Bool)
  /-- BELLOWS_EVALUATION (R254): Every 10 us the Bellows steers each region's setpoint and sheds for the cap. -/
  | bellowsEvaluation (m : BellowsInputs)
  /-- SLACK_RAISE (R257): A core's slack below SLKMIN raises its region 10 mV. -/
  | slackRaise (c : CoreId) (ps : BitVec 12)
  /-- OVERRUN_RAISE (R257): A reported beat overrun raises its region 25 mV. -/
  | overrunRaise (c : CoreId) (held : Bool)
  /-- UNSHED (R263): After 1 ms at least 1 W below the cap one region is unshed. -/
  | unshed
  /-- CONDITION_CLEAR (R233): A failed Prompt condition clears after its holding time. -/
  | conditionClear (n : BitVec 4)
  /-- TABLE_CHECK (R250): Write of PS_CHK.GO checks the bank not in effect. -/
  | tableCheck (rq : Requester) (v : Word32)
  /-- PS_EN (R241): Write of PS_CTL.EN starts or ends Prompt dispatch. -/
  | psEn (rq : Requester) (v : Word32)
  /-- ROLE (R239): Write of PS_CTL.ROLE sets regions 6 and 7 Metered or Elastic. -/
  | role (rq : Requester) (v : Word32)
  /-- PS_BEAT (R146): Write of PS_BEAT starts a new beat series with the new period. -/
  | psBeat (rq : Requester) (v : Word32)
  /-- PS_SLOT (R242): Write of PS_SLOT starts a new slot series. -/
  | psSlot (rq : Requester) (v : Word32)
  /-- TY_POP (R365): A read pops one Tally ring item. -/
  | tyPop (rq : Requester)
  /-- TY_DROP (R367): Write of TY_DROP skips the rest of the current record. -/
  | tyDrop (rq : Requester) (v : Word32)
  /-- TY_PUSH (R369): Write of TY_PUSH writes a software record after reading its block. -/
  | tyPush (rq : Requester) (v : Word32)
  /-- TY_CTL (R361): Write of TY_CTL.EN enables or empties sub-rings. -/
  | tyCtl (rq : Requester) (v : Word32)
  /-- SENSOR_RECORD (R353): Every PER us a sensor record is written. -/
  | sensorRecord
  /-- ADC_CONVERSION (R354): An ADC conversion completes, averaging and checking limits. -/
  | adcConversion (ch : BitVec 4) (value : BitVec 12)
  /-- ADC_RECORD (R354): Every RECPER ms an ADC sample record is written. -/
  | adcRecord
  /-- CAPTURE (R356): An edge on a capture escape records its Timebase value. -/
  | capture (e : BitVec 7) (rising : Bool)
  /-- PWM_PERIOD (R357): A PWM period boundary applies new PER and HIGH. -/
  | pwmPeriod (g : BitVec 3)
  /-- SNAP (R360): Write of TY_HCTL.SNAP snapshots and clears histograms. -/
  | snap (rq : Requester) (v : Word32)
  /-- SNAPSHOT_PERIOD (R360): Every PER ms every histogram is snapshot. -/
  | snapshotPeriod
  /-- METER_RECORD (R359): Each ms a meter whose EXC rose writes a meter record. -/
  | meterRecord (m : BitVec 16)
  /-- PPS_EDGE (R375): A PPS_IN edge is accepted or rejected and disciplines the Timebase. -/
  | ppsEdge (rising : Bool)
  /-- PPS_LOSS (R375): No PPS edge accepted for 3.5 s clears LOCKED. -/
  | ppsLoss
  /-- STEP (R374): Write of TB_STEP_LO adds a signed step at one tick. -/
  | tbStep (rq : Requester) (v : Word32)
  /-- SET (R374): Write of TB_SET_LO replaces the integer nanoseconds. -/
  | tbSet (rq : Requester) (v : Word32)
  /-- SLEW (R374): Write of TB_SLEW sets the offset to slew at 100 ns per ms. -/
  | slew (rq : Requester) (v : Word32)
  /-- OK (R376): Write of TB_DISC.OK sets LOCKED. -/
  | discOk (rq : Requester) (v : Word32)
  /-- LOST (R376): Write of TB_DISC.LOST clears LOCKED. -/
  | discLost (rq : Requester) (v : Word32)
  /-- PLL_LOCK (R374): The Timebase PLL locks and held steps and sets act. -/
  | pllLock
  /-- REFERENCE_LOST (R372): The PLL reference is lost or regained. -/
  | referenceLost (lost : Bool)
  /-- PAIR_LO_WRITE (R7): Write to _LO applies the held _HI and the new _LO together. -/
  | pairLoWrite (rq : Requester) (a : IoAddr) (v : Word32)
  /-- PAIR_HI_WRITE (R7): Write to _HI is held in the hold register. -/
  | pairHiWrite (rq : Requester) (a : IoAddr) (v : Word32)
  /-- PAIR_LO_READ (R7): Read of _LO returns the low half and snapshots the high half. -/
  | pairLoRead (rq : Requester) (a : IoAddr)
  /-- RC_READ (R8): Read of a register with an RC field returns and clears it. -/
  | rcRead (rq : Requester) (a : IoAddr)
  /-- REGISTER_WRITE (R14): Write to a register without a row of its own, under its fields' access and update categories. -/
  | registerWrite (rq : Requester) (a : IoAddr) (v : Word32)
  /-- COMMIT (R434): Write of LG_COMMIT with DIRECT 0 commits every group of an applied Ledger. -/
  | commit (rq : Requester) (v : Word32)
  /-- DIRECT_COMMIT (R434): Write of LG_COMMIT with DIRECT 1 commits the selected groups. -/
  | directCommit (rq : Requester) (v : Word32)
  /-- LG_APPLY (R431): Write of LG_APPLY checks and starts applying a Ledger. -/
  | lgApply (rq : Requester) (v : Word32)
  /-- WRITE (R432): Ledger WRITE record writes consecutive registers. -/
  | ledgerWrite
  /-- MODIFY (R432): Ledger MODIFY record read-modify-writes a register. -/
  | ledgerModify
  /-- LEDGER_WAIT (R432): Ledger WAIT record waits for a register condition or times out. -/
  | ledgerWait
  /-- LEDGER_END (R432): Ledger END record ends the application. -/
  | ledgerEnd
  /-- OUTPUTS_START (R436): OUT becomes 1 when HOLD_N and LG_CTL.HOLD release held outputs after a commit. -/
  | outputsStart
  /-- GO (R417): Write of LG_BOOT.GO starts boot-image verification. -/
  | go (rq : Requester) (v : Word32)
  /-- VERIFICATION (R419): Boot-image verification completes; firmware starts or STATE becomes failed. -/
  | verification
  /-- AT_PLOAD (R427): Write of AT_PLOAD loads and decrypts the Attar patch. -/
  | atPload (rq : Requester) (v : Word32)
  /-- RELOAD (R430): Write of AT_CTL.RELOAD rewrites every cluster copy from the master. -/
  | reload (rq : Requester) (v : Word32)
  /-- ONE (R430): Reload with ONE at 1 rewrites only cluster CL. -/
  | reloadOne (rq : Requester) (v : Word32)
  /-- COPY_WRITE_END (R429): A cluster copy write ends and its cores resume. -/
  | copyWriteEnd (cl : ClusterId)
  /-- POWER_ON_RESET (R413): Release of PORST_N, Lamplighter reset or VIN_AON arrival starts boot from step 1. -/
  | powerOnReset (why : PowerOnCause) (straps : BitVec 8) (bootsel : Bool)
  /-- WARM_RESET (R413): Release of WARMRST_N resets the device keeping Lamplighter values. -/
  | warmReset (bootsel : Bool)
  /-- RESET_ASSERT (R414): Assertion of PORST_N or WARMRST_N holds outputs. -/
  | resetAssert (warm : Bool)
  /-- MEMORY_CLEAR (R415): Boot memory clear and ROM self-check complete; the ROM waits for an image. -/
  | memoryClear (romOk : Bool)
  /-- DARK (R393): Write of LL_CMD.DARK starts Dark entry. -/
  | dark (rq : Requester) (v : Word32)
  /-- DEVICE_IDLE_TIMER (R385): Banked for LL_DIDLE ms starts Dark entry. -/
  | deviceIdleTimer
  /-- DRAIN (R393): Dark drain completes or times out after LL_DRAIN ms. -/
  | drain
  /-- L2_TIMEOUT (R393): The partner die does not complete L2 within 1 ms; Dark entry is abandoned. -/
  | l2Timeout
  /-- DARK_ENTERED (R393): Dark entry steps complete and DSTATE becomes Dark. -/
  | darkEntered
  /-- WAKE (R399): Write of LL_CMD.WAKE in Dark starts a wake. -/
  | wake (rq : Requester) (v : Word32)
  /-- WAKE_EVENT (R399): A wake source in Dark starts the wake sequence. -/
  | wakeEvent (k : WakeKind)
  /-- REG_READY (R399): REG_READY arrives and the wake proceeds to PLL start. -/
  | regReady
  /-- WAKE_FAILURE (R400): REG_READY or PLL lock times out and the wake step fails. -/
  | wakeFailure (code : BitVec 2)
  /-- WAKE_RETRY (R400): 1 ms after a first failure the wake restarts from step 2. -/
  | wakeRetry
  /-- RETRY (R400): Write of LL_CMD.RETRY runs the wake again. -/
  | retry (rq : Requester) (v : Word32)
  /-- WAKE_COMPLETE (R399): Reset is released, the steward boots and DSTATE becomes Lit. -/
  | wakeComplete
  /-- THERMAL_SHUTDOWN (R397): A sensor above 135 C for 100 us puts the device Dark at once. -/
  | thermalShutdown
  /-- VIN_CORE_LOSS (R397): VIN_CORE leaving its range puts the device Dark at once. -/
  | vinCoreLoss
  /-- BROWN_OUT (R401): LDO output low or VIN_AON drop causes a Lamplighter reset. -/
  | brownOut (why : BrownOutKind)
  /-- ALARM (R398): The crystal count reaches LL_ALARM and asserts source 23. -/
  | alarm
  /-- WAKE_EDGE (R398): An active WAKEn edge reaches the Crier or wakes from Dark. -/
  | wakeEdge (n : BitVec 3) (rising : Bool) (short : Bool)
  /-- CONTROL_ESCAPE_EDGE (R355): A level change on an input control escape. -/
  | controlEscapeEdge (e : BitVec 7) (level : Bool)
  /-- PMALERT (R294): PMALERT_N going low asserts the PMBus alert source. -/
  | pmalert (low : Bool)
  /-- HOLD_N (R436): A change on HOLD_N holds or releases outputs before OUT. -/
  | holdN (level : Bool)
  /-- IDLE_TIMER (R389): A region Quiet for IDLE us starts Gated entry. -/
  | idleTimer (r : RegionId)
  /-- GATED_ENTRY (R390): Gated entry completes and the region is Gated. -/
  | gatedEntry (r : RegionId)
  /-- REGION_WAKE (R391): A wake request starts a Gated region leaving Gated. -/
  | regionWake (r : RegionId)
  /-- LEAVING_GATED (R391): The region reaches Quiet after leaving Gated. -/
  | leavingGated (r : RegionId)
  /-- RG_WAKE (R391): Write of RG_PCTL.WAKE wakes a Gated region. -/
  | rgWake (rq : Requester) (r : RegionId) (v : Word32)
  /-- PMBUS_TRANSACTION (R411): Write of LL_PMCMD.GO starts a host PMBus transaction. -/
  | pmbusTransaction (rq : Requester) (v : Word32)
  /-- PMBUS_COMPLETE (R410): A PMBus transaction completes, is retried or fails. -/
  | pmbusComplete (ok : Bool) (data : BitVec 16)
  /-- RAIL_DELAY (R410): A rail's DELAY after switching on ends and the sequence continues. -/
  | railDelay
  /-- SIDEBAND_WRITE (R405): A sideband private write writes LL or wake-set registers. -/
  | sidebandWrite (off : BitVec 16) (data : List Byte)
  /-- SIDEBAND_READ (R405): A sideband private read returns registers; `off` is an offset that the same transfer wrote first. -/
  | sidebandRead (off : Option (BitVec 16)) (count : Nat)
  /-- ENTDAA (R404): I3C dynamic address assignment command. -/
  | entdaa (addr : BitVec 7)
  /-- SETDASA (R404): I3C set dynamic address from static. -/
  | setdasa (addr : BitVec 7)
  /-- SETNEWDA (R404): I3C set new dynamic address. -/
  | setnewda (addr : BitVec 7)
  /-- RSTDAA (R404): I3C reset dynamic address. -/
  | rstdaa
  /-- GETPID (R404): I3C read of the provisional ID. -/
  | getpid
  /-- GETBCR (R404): I3C read of the bus characteristics register. -/
  | getbcr
  /-- GETDCR (R404): I3C read of the device characteristics register. -/
  | getdcr
  /-- GETSTATUS (R437): I3C status read carrying Ledger and Safe Hold state. -/
  | getstatus
  /-- ENEC (R404): I3C enable events command. -/
  | enec (events : Byte)
  /-- DISEC (R404): I3C disable events command. -/
  | disec (events : Byte)
  /-- BYPASS (R441): JTAG BYPASS instruction. -/
  | bypass
  /-- IDCODE (R441): JTAG IDCODE instruction. -/
  | idcode
  /-- SAMPLE_PRELOAD (R441): JTAG SAMPLE/PRELOAD instruction. -/
  | samplePreload (cells : List Bool)
  /-- EXTEST (R441): JTAG EXTEST instruction. -/
  | extest
  /-- PORT_LINK_LOSS (R294): A port in service loses its link, PT_STS.LINK falls and the port's device event is asserted. -/
  | portLinkLoss (p : PortId)
  /-- PFC_PAUSE_EXPIRY (R194): The time that a received PFC frame named runs out and the paused egress queues become eligible again. -/
  | pfcPauseExpiry (p : PortId) (prio : BitVec 3)
  /-- SENSOR_REFRESH (R352): Every 10 us the temperature and supply sensors refresh, possibly raising or clearing TEMP or marking a reading invalid. -/
  | sensorRefresh (s : SensorInputs)
  /-- SLEW_COMPLETE (R374): The remaining slew offset is used up, TB_STS.SLEWING clears and source 21 is asserted. -/
  | slewComplete
  /-- PPSOK_EXPIRY (R375): 1.5 s pass with no accepted PPS edge, PPSOK clears and source 21 is asserted. -/
  | ppsokExpiry
  /-- COMPLETION_TIMEOUT (R327): A host-window or engine read gets no completion within the function's completion timeout and ends as failed. -/
  | completionTimeout (who : ReadOwner)
  /-- CONFIG_ACCESS (R319): A PCIe configuration request to a function changes Bus Master Enable, MSI-X Enable, tag enables, Device Control 2 or power state. -/
  | configAccess (f : FnId) (x : ConfigRequest)
  deriving DecidableEq, Repr

end Sys2Proof
end

