-- ==== Sys2Proof/Decode.lean ====
section
/-! DEFINITION. The commands that a word spells. The table of commands gives its rows no bits, so the host's decoder
spells none; the instruction words of the cores (02_instruction_encoding.md R36 to R40, R60 to R69) have a decoder and
an encoder of their own, which ERET and EXCEPTION_ENTRY read fetched words with. -/

namespace Sys2Proof

/-- The opcode table gives its rows no bits: no word spells a command. -/
def decodeTableWord (_nbits _w : Nat) : Option Instr := none

/-- Field `[lo + n - 1 : lo]` of an instruction word. -/
def fieldOf (w : Nat) (lo n : Nat) : BitVec n := BitVec.ofNat n (w / 2 ^ lo)

/-- RRR format: opcode, rd, ra, rb, fn (R60). -/
def packR (op rd ra rb fn : Nat) : Nat := op * 16777216 + rd * 524288 + ra * 16384 + rb * 512 + fn

/-- Formats with an immediate or other operand below bit 14 or bit 19 (R60). -/
def packI (op rd ra low : Nat) : Nat := op * 16777216 + rd * 524288 + ra * 16384 + low

/-- A slot of a paired word (R36). -/
def packS (x : ShortSlot) : Nat := x.op.toNat * 1024 + x.rd.toNat * 32 + x.rs.toNat

/-- A slot's fields. -/
def slotOf (v : Nat) : ShortSlot :=
  { op := BitVec.ofNat 5 (v / 1024), rd := BitVec.ofNat 5 (v / 32), rs := BitVec.ofNat 5 v }

/-- A short operation that R37 and R67 make Illegal: a reserved opcode, or a NOP with a field that is not zero. -/
def slotReserved (x : ShortSlot) : Bool := decide (29 ≤ x.op.toNat) || (x.op == 0 && !(x.rd == 0 && x.rs == 0))

/-- BITOP functions (R65). -/
def decodeBitop (t : Tid) (rd ra : RegNo) (fn : Nat) : Option Instr :=
  match fn with
  | 0 => some (.clz t rd ra)
  | 1 => some (.ctz t rd ra)
  | 2 => some (.popc t rd ra)
  | 3 => some (.bswap t rd ra)
  | 4 => some (.sextb t rd ra)
  | 5 => some (.sexth t rd ra)
  | 6 => some (.zextb t rd ra)
  | 7 => some (.zexth t rd ra)
  | _ => none

/-- Near-Annex functions of opcode 0x70 (R68). -/
def decodeNear70 (t : Tid) (rd ra rb : RegNo) (fn : Nat) : Option Instr :=
  match fn with
  | 0 => some (.akey128 t rd ra rb)
  | 1 => some (.akey256 t rd ra rb)
  | 2 => some (.gcmenc t rd ra rb)
  | 3 => some (.gcmdec t rd ra rb)
  | 4 => some (.ghash t rd ra rb)
  | 5 => some (.gcmtag t rd ra rb)
  | 6 => some (.cmac t rd ra rb)
  | 7 => some (.cmacend t rd ra rb)
  | _ => none

/-- Near-Annex functions of opcode 0x71 (R68). -/
def decodeNear71 (t : Tid) (rd ra rb : RegNo) (fn : Nat) : Option Instr :=
  match fn with
  | 0 => if rb = 0 then some (.s256init t rd ra) else none
  | 1 => some (.s256blk t rd ra rb)
  | 2 => some (.s256end t rd ra rb)
  | 3 => if rb = 0 then some (.s384init t rd ra) else none
  | 4 => some (.s384blk t rd ra rb)
  | 5 => some (.s384end t rd ra rb)
  | _ => none

/-- Near-Annex functions of opcode 0x72 (R68). -/
def decodeNear72 (t : Tid) (rd ra rb : RegNo) (fn : Nat) : Option Instr :=
  match fn with
  | 0 => some (.crc32c t rd ra rb)
  | 1 => some (.csum t rd ra rb)
  | 2 => if rb = 0 then some (.csfold t rd ra) else none
  | _ => none

/-- Near-Annex functions of opcode 0x73 (R68). -/
def decodeNear73 (t : Tid) (rd ra rb : RegNo) (fn : Nat) : Option Instr :=
  match fn with
  | 0 => some (.slook t rd ra rb)
  | 1 => some (.sins t rd ra rb)
  | 2 => some (.sdel t rd ra rb)
  | _ => none

/-- Near-Annex functions of opcode 0x74 (R68). -/
def decodeNear74 (t : Tid) (rd ra rb : RegNo) (fn : Nat) : Option Instr :=
  match fn with
  | 0 => some (.dadd t rd ra rb)
  | 1 => some (.dsub t rd ra rb)
  | 2 => some (.dmul t rd ra rb)
  | 3 => some (.dcmp t rd ra rb)
  | 4 => if rb = 0 then some (.dchk t rd ra) else none
  | _ => none

/-- Near-Annex functions of opcode 0x75 (R68). -/
def decodeNear75 (t : Tid) (rd ra rb : RegNo) (fn : Nat) : Option Instr :=
  match fn with
  | 0 => some (.a2p t rd ra rb)
  | 1 => some (.p2a t rd ra rb)
  | 2 => some (.e2p t rd ra rb)
  | 3 => some (.p2e t rd ra rb)
  | 4 => if rb = 0 then some (.p2b t rd ra) else none
  | 5 => if rb = 0 then some (.b2p t rd ra) else none
  | _ => none

/-- A long operation (R65, R68). `none` where the word raises Illegal at decode (R37). -/
def decodeLong (t : Tid) (w : Nat) : Option Instr :=
  let rd : RegNo := fieldOf w 19 5
  let ra : RegNo := fieldOf w 14 5
  let rb : RegNo := fieldOf w 9 5
  let fn : BitVec 9 := fieldOf w 0 9
  let imm : BitVec 14 := fieldOf w 0 14
  match w / 16777216 with
  | 0x01 => if rd = 0 ∧ ra = 0 ∧ imm = 0 then some (.nop t) else none
  | 0x02 => if rd = 0 ∧ ra = 0 then some (.trap t imm) else none
  | 0x03 => if rd = 0 ∧ ra = 0 ∧ imm = 0 then some (.eret t) else none
  | 0x04 => if rd = 0 ∧ ra = 0 ∧ imm = 0 then some (.wait t) else none
  | 0x05 => if rd = 0 ∧ ra = 0 ∧ imm = 0 then some (.waite t) else none
  | 0x06 => if rd = 0 ∧ ra = 0 ∧ imm = 0 then some (.fence t) else none
  | 0x07 => if rd = 0 ∧ ra = 0 ∧ imm = 0 then some (.ifence t) else none
  | 0x08 => if ra = 0 ∧ fieldOf w 5 9 = 0 then some (.mfsr t rd (fieldOf w 0 5)) else none
  | 0x09 => if rd = 0 ∧ fieldOf w 5 9 = 0 then some (.mtsr t (fieldOf w 0 5) ra) else none
  | 0x0A => if rd = 0 ∧ ra = 0 ∧ imm = 0 then some (.done t) else none
  | 0x10 => if fn = 0 then some (.add t rd ra rb) else none
  | 0x11 => if fn = 0 then some (.sub t rd ra rb) else none
  | 0x12 => if fn = 0 then some (.and t rd ra rb) else none
  | 0x13 => if fn = 0 then some (.or t rd ra rb) else none
  | 0x14 => if fn = 0 then some (.xor t rd ra rb) else none
  | 0x15 => if fn = 0 then some (.andn t rd ra rb) else none
  | 0x16 => if fn = 0 then some (.shl t rd ra rb) else none
  | 0x17 => if fn = 0 then some (.shr t rd ra rb) else none
  | 0x18 => if fn = 0 then some (.sar t rd ra rb) else none
  | 0x19 => if fn = 0 then some (.ror t rd ra rb) else none
  | 0x1A => if fn = 0 then some (.slt t rd ra rb) else none
  | 0x1B => if fn = 0 then some (.sltu t rd ra rb) else none
  | 0x1C => if fn = 0 then some (.min t rd ra rb) else none
  | 0x1D => if fn = 0 then some (.max t rd ra rb) else none
  | 0x1E => if fn = 0 then some (.minu t rd ra rb) else none
  | 0x1F => if fn = 0 then some (.maxu t rd ra rb) else none
  | 0x20 => if fn = 0 then some (.mul t rd ra rb) else none
  | 0x21 => if fn = 0 then some (.mulh t rd ra rb) else none
  | 0x22 => if fn = 0 then some (.mulhu t rd ra rb) else none
  | 0x23 => if fn = 0 then some (.div t rd ra rb) else none
  | 0x24 => if fn = 0 then some (.divu t rd ra rb) else none
  | 0x25 => if fn = 0 then some (.rem t rd ra rb) else none
  | 0x26 => if fn = 0 then some (.remu t rd ra rb) else none
  | 0x28 => if fn = 0 then some (.addw t rd ra rb) else none
  | 0x29 => if fn = 0 then some (.subw t rd ra rb) else none
  | 0x2A => if fn = 0 then some (.shlw t rd ra rb) else none
  | 0x2B => if fn = 0 then some (.shrw t rd ra rb) else none
  | 0x2C => if fn = 0 then some (.sarw t rd ra rb) else none
  | 0x2D => if fn = 0 then some (.mulw t rd ra rb) else none
  | 0x2E => if rb = 0 then decodeBitop t rd ra fn.toNat else none
  | 0x30 => some (.addi t rd ra imm)
  | 0x31 => some (.andi t rd ra imm)
  | 0x32 => some (.ori t rd ra imm)
  | 0x33 => some (.xori t rd ra imm)
  | 0x34 => if fieldOf w 6 8 = 0 then some (.shli t rd ra (fieldOf w 0 6)) else none
  | 0x35 => if fieldOf w 6 8 = 0 then some (.shri t rd ra (fieldOf w 0 6)) else none
  | 0x36 => if fieldOf w 6 8 = 0 then some (.sari t rd ra (fieldOf w 0 6)) else none
  | 0x37 => if fieldOf w 6 8 = 0 then some (.rori t rd ra (fieldOf w 0 6)) else none
  | 0x38 => some (.slti t rd ra imm)
  | 0x39 => some (.sltiu t rd ra imm)
  | 0x3A => some (.muli t rd ra imm)
  | 0x3B => some (.addwi t rd ra imm)
  | 0x3C => some (.movi t rd (fieldOf w 0 19))
  | 0x3D => if fieldOf w 18 1 = 0 then some (.orh t rd (fieldOf w 16 2) (fieldOf w 0 16)) else none
  | 0x3E => some (.addpc t rd (fieldOf w 0 19))
  | 0x40 => some (.ldb t rd ra (fieldOf w 12 2) (fieldOf w 0 12))
  | 0x41 => some (.ldbs t rd ra (fieldOf w 12 2) (fieldOf w 0 12))
  | 0x42 => some (.ldh t rd ra (fieldOf w 12 2) (fieldOf w 0 12))
  | 0x43 => some (.ldhs t rd ra (fieldOf w 12 2) (fieldOf w 0 12))
  | 0x44 => some (.ldw t rd ra (fieldOf w 12 2) (fieldOf w 0 12))
  | 0x45 => some (.ldws t rd ra (fieldOf w 12 2) (fieldOf w 0 12))
  | 0x46 => some (.ldd t rd ra (fieldOf w 12 2) (fieldOf w 0 12))
  | 0x48 => some (.stb t rd ra (fieldOf w 12 2) (fieldOf w 0 12))
  | 0x49 => some (.sth t rd ra (fieldOf w 12 2) (fieldOf w 0 12))
  | 0x4A => some (.stw t rd ra (fieldOf w 12 2) (fieldOf w 0 12))
  | 0x4B => some (.std t rd ra (fieldOf w 12 2) (fieldOf w 0 12))
  | 0x50 => if fieldOf w 0 10 = 0 then some (.tas t rd ra (fieldOf w 10 4)) else none
  | 0x51 => if rd = 0 ∧ fieldOf w 0 10 = 0 then some (.rels t ra (fieldOf w 10 4)) else none
  | 0x52 => if fieldOf w 0 13 = 0 then some (.lr t rd ra (decide (fieldOf w 13 1 = 1))) else none
  | 0x53 => if fn = 0 then some (.sc t rd ra rb) else none
  | 0x54 => if fieldOf w 0 13 = 0 then some (.lrw t rd ra (decide (fieldOf w 13 1 = 1))) else none
  | 0x55 => if fn = 0 then some (.scw t rd ra rb) else none
  | 0x58 => some (.ioIn t rd ra imm)
  | 0x59 => some (.out t rd ra imm)
  | 0x5A => some (.ind t rd ra imm)
  | 0x5B => some (.outd t rd ra imm)
  | 0x5C => some (.iload t rd ra imm)
  | 0x5D => some (.istore t rd ra imm)
  | 0x60 => some (.b t (fieldOf w 0 24))
  | 0x61 => some (.bl t (fieldOf w 0 24))
  | 0x62 => if rd = 0 ∧ imm = 0 then some (.br t ra) else none
  | 0x63 => if rd = 0 ∧ imm = 0 then some (.blr t ra) else none
  | 0x64 => some (.beq t rd ra imm)
  | 0x65 => some (.bne t rd ra imm)
  | 0x66 => some (.blt t rd ra imm)
  | 0x67 => some (.bge t rd ra imm)
  | 0x68 => some (.bltu t rd ra imm)
  | 0x69 => some (.bgeu t rd ra imm)
  | 0x6A => if fieldOf w 21 3 = 0 then some (.callm t (fieldOf w 16 5) (fieldOf w 0 16) 1) else none
  | 0x6B => if fieldOf w 16 8 = 0 then some (.retm t (fieldOf w 0 16) 1) else none
  | 0x6C => if fieldOf w 5 4 = 0 then some (.send t rd ra rb (fieldOf w 0 3) (fieldOf w 3 2)) else none
  | 0x6D => if imm = 0 then some (.mbrd t rd ra) else none
  | 0x6E => if fn = 0 then some (.movb t rd ra rb 1) else none
  | 0x6F => if fn = 0 then some (.fillb t rd ra rb 1) else none
  | 0x70 => decodeNear70 t rd ra rb fn.toNat
  | 0x71 => decodeNear71 t rd ra rb fn.toNat
  | 0x72 => decodeNear72 t rd ra rb fn.toNat
  | 0x73 => decodeNear73 t rd ra rb fn.toNat
  | 0x74 => decodeNear74 t rd ra rb fn.toNat
  | 0x75 => decodeNear75 t rd ra rb fn.toNat
  | 0x78 => some (.farx t 0 rd ra rb fn)
  | 0x79 => some (.farx t 1 rd ra rb fn)
  | 0x7A => some (.farx t 2 rd ra rb fn)
  | 0x7B => some (.farx t 3 rd ra rb fn)
  | 0x7C => some (.farx t 4 rd ra rb fn)
  | 0x7D => some (.farx t 5 rd ra rb fn)
  | 0x7E => some (.farx t 6 rd ra rb fn)
  | 0x7F => some (.farx t 7 rd ra rb fn)
  | _ => none

/-- A paired word (R36, R67). -/
def decodePair (t : Tid) (w : Nat) : Option Instr :=
  let a := slotOf (w / 65536 % 32768)
  let b := slotOf (w / 2 % 32768)
  if w % 2 = 1 ∨ slotReserved a ∨ slotReserved b then none else some (.pairedWord t a b)

/-- The instruction that a word spells for thread `t`; a micro-routine's command runs one step. `none` where the word
raises Illegal at decode. -/
def decodeWord (t : Tid) (w : Word32) : Option Instr :=
  if w.toNat < 2147483648 then decodeLong t w.toNat else decodePair t w.toNat

/-- The word of a core instruction as a number; `none` for commands that are not instruction words. -/
def encodeNat : Instr → Option Nat
  | .nop _ => some (packI 0x01 0 0 0)
  | .eret _ => some (packI 0x03 0 0 0)
  | .wait _ => some (packI 0x04 0 0 0)
  | .waite _ => some (packI 0x05 0 0 0)
  | .fence _ => some (packI 0x06 0 0 0)
  | .ifence _ => some (packI 0x07 0 0 0)
  | .done _ => some (packI 0x0A 0 0 0)
  | .trap _ c => some (packI 0x02 0 0 c.toNat)
  | .mfsr _ rd n => some (packI 0x08 rd.toNat 0 n.toNat)
  | .mtsr _ n ra => some (packI 0x09 0 ra.toNat n.toNat)
  | .add _ rd ra rb => some (packR 0x10 rd.toNat ra.toNat rb.toNat 0)
  | .sub _ rd ra rb => some (packR 0x11 rd.toNat ra.toNat rb.toNat 0)
  | .and _ rd ra rb => some (packR 0x12 rd.toNat ra.toNat rb.toNat 0)
  | .or _ rd ra rb => some (packR 0x13 rd.toNat ra.toNat rb.toNat 0)
  | .xor _ rd ra rb => some (packR 0x14 rd.toNat ra.toNat rb.toNat 0)
  | .andn _ rd ra rb => some (packR 0x15 rd.toNat ra.toNat rb.toNat 0)
  | .shl _ rd ra rb => some (packR 0x16 rd.toNat ra.toNat rb.toNat 0)
  | .shr _ rd ra rb => some (packR 0x17 rd.toNat ra.toNat rb.toNat 0)
  | .sar _ rd ra rb => some (packR 0x18 rd.toNat ra.toNat rb.toNat 0)
  | .ror _ rd ra rb => some (packR 0x19 rd.toNat ra.toNat rb.toNat 0)
  | .slt _ rd ra rb => some (packR 0x1A rd.toNat ra.toNat rb.toNat 0)
  | .sltu _ rd ra rb => some (packR 0x1B rd.toNat ra.toNat rb.toNat 0)
  | .min _ rd ra rb => some (packR 0x1C rd.toNat ra.toNat rb.toNat 0)
  | .max _ rd ra rb => some (packR 0x1D rd.toNat ra.toNat rb.toNat 0)
  | .minu _ rd ra rb => some (packR 0x1E rd.toNat ra.toNat rb.toNat 0)
  | .maxu _ rd ra rb => some (packR 0x1F rd.toNat ra.toNat rb.toNat 0)
  | .mul _ rd ra rb => some (packR 0x20 rd.toNat ra.toNat rb.toNat 0)
  | .mulh _ rd ra rb => some (packR 0x21 rd.toNat ra.toNat rb.toNat 0)
  | .mulhu _ rd ra rb => some (packR 0x22 rd.toNat ra.toNat rb.toNat 0)
  | .div _ rd ra rb => some (packR 0x23 rd.toNat ra.toNat rb.toNat 0)
  | .divu _ rd ra rb => some (packR 0x24 rd.toNat ra.toNat rb.toNat 0)
  | .rem _ rd ra rb => some (packR 0x25 rd.toNat ra.toNat rb.toNat 0)
  | .remu _ rd ra rb => some (packR 0x26 rd.toNat ra.toNat rb.toNat 0)
  | .addw _ rd ra rb => some (packR 0x28 rd.toNat ra.toNat rb.toNat 0)
  | .subw _ rd ra rb => some (packR 0x29 rd.toNat ra.toNat rb.toNat 0)
  | .shlw _ rd ra rb => some (packR 0x2A rd.toNat ra.toNat rb.toNat 0)
  | .shrw _ rd ra rb => some (packR 0x2B rd.toNat ra.toNat rb.toNat 0)
  | .sarw _ rd ra rb => some (packR 0x2C rd.toNat ra.toNat rb.toNat 0)
  | .mulw _ rd ra rb => some (packR 0x2D rd.toNat ra.toNat rb.toNat 0)
  | .sc _ rd ra rb => some (packR 0x53 rd.toNat ra.toNat rb.toNat 0)
  | .scw _ rd ra rb => some (packR 0x55 rd.toNat ra.toNat rb.toNat 0)
  | .clz _ rd ra => some (packR 0x2E rd.toNat ra.toNat 0 0)
  | .ctz _ rd ra => some (packR 0x2E rd.toNat ra.toNat 0 1)
  | .popc _ rd ra => some (packR 0x2E rd.toNat ra.toNat 0 2)
  | .bswap _ rd ra => some (packR 0x2E rd.toNat ra.toNat 0 3)
  | .sextb _ rd ra => some (packR 0x2E rd.toNat ra.toNat 0 4)
  | .sexth _ rd ra => some (packR 0x2E rd.toNat ra.toNat 0 5)
  | .zextb _ rd ra => some (packR 0x2E rd.toNat ra.toNat 0 6)
  | .zexth _ rd ra => some (packR 0x2E rd.toNat ra.toNat 0 7)
  | .addi _ rd ra imm => some (packI 0x30 rd.toNat ra.toNat imm.toNat)
  | .andi _ rd ra imm => some (packI 0x31 rd.toNat ra.toNat imm.toNat)
  | .ori _ rd ra imm => some (packI 0x32 rd.toNat ra.toNat imm.toNat)
  | .xori _ rd ra imm => some (packI 0x33 rd.toNat ra.toNat imm.toNat)
  | .slti _ rd ra imm => some (packI 0x38 rd.toNat ra.toNat imm.toNat)
  | .sltiu _ rd ra imm => some (packI 0x39 rd.toNat ra.toNat imm.toNat)
  | .muli _ rd ra imm => some (packI 0x3A rd.toNat ra.toNat imm.toNat)
  | .addwi _ rd ra imm => some (packI 0x3B rd.toNat ra.toNat imm.toNat)
  | .ioIn _ rd ra imm => some (packI 0x58 rd.toNat ra.toNat imm.toNat)
  | .out _ rd ra imm => some (packI 0x59 rd.toNat ra.toNat imm.toNat)
  | .ind _ rd ra imm => some (packI 0x5A rd.toNat ra.toNat imm.toNat)
  | .outd _ rd ra imm => some (packI 0x5B rd.toNat ra.toNat imm.toNat)
  | .iload _ rd ra imm => some (packI 0x5C rd.toNat ra.toNat imm.toNat)
  | .istore _ rd ra imm => some (packI 0x5D rd.toNat ra.toNat imm.toNat)
  | .shli _ rd ra c => some (packI 0x34 rd.toNat ra.toNat c.toNat)
  | .shri _ rd ra c => some (packI 0x35 rd.toNat ra.toNat c.toNat)
  | .sari _ rd ra c => some (packI 0x36 rd.toNat ra.toNat c.toNat)
  | .rori _ rd ra c => some (packI 0x37 rd.toNat ra.toNat c.toNat)
  | .movi _ rd imm => some (packI 0x3C rd.toNat 0 imm.toNat)
  | .orh _ rd h imm => some (packI 0x3D rd.toNat 0 (h.toNat * 65536 + imm.toNat))
  | .addpc _ rd imm => some (packI 0x3E rd.toNat 0 imm.toNat)
  | .ldb _ rd ra m d => some (packI 0x40 rd.toNat ra.toNat (m.toNat * 4096 + d.toNat))
  | .ldbs _ rd ra m d => some (packI 0x41 rd.toNat ra.toNat (m.toNat * 4096 + d.toNat))
  | .ldh _ rd ra m d => some (packI 0x42 rd.toNat ra.toNat (m.toNat * 4096 + d.toNat))
  | .ldhs _ rd ra m d => some (packI 0x43 rd.toNat ra.toNat (m.toNat * 4096 + d.toNat))
  | .ldw _ rd ra m d => some (packI 0x44 rd.toNat ra.toNat (m.toNat * 4096 + d.toNat))
  | .ldws _ rd ra m d => some (packI 0x45 rd.toNat ra.toNat (m.toNat * 4096 + d.toNat))
  | .ldd _ rd ra m d => some (packI 0x46 rd.toNat ra.toNat (m.toNat * 4096 + d.toNat))
  | .stb _ rd ra m d => some (packI 0x48 rd.toNat ra.toNat (m.toNat * 4096 + d.toNat))
  | .sth _ rd ra m d => some (packI 0x49 rd.toNat ra.toNat (m.toNat * 4096 + d.toNat))
  | .stw _ rd ra m d => some (packI 0x4A rd.toNat ra.toNat (m.toNat * 4096 + d.toNat))
  | .std _ rd ra m d => some (packI 0x4B rd.toNat ra.toNat (m.toNat * 4096 + d.toNat))
  | .tas _ rd ra k => some (packI 0x50 rd.toNat ra.toNat (k.toNat * 1024))
  | .rels _ ra k => some (packI 0x51 0 ra.toNat (k.toNat * 1024))
  | .lr _ rd ra b => some (packI 0x52 rd.toNat ra.toNat (if b then 8192 else 0))
  | .lrw _ rd ra b => some (packI 0x54 rd.toNat ra.toNat (if b then 8192 else 0))
  | .b _ off => some (0x60 * 16777216 + off.toNat)
  | .bl _ off => some (0x61 * 16777216 + off.toNat)
  | .br _ ra => some (packI 0x62 0 ra.toNat 0)
  | .blr _ ra => some (packI 0x63 0 ra.toNat 0)
  | .beq _ ra rb off => some (packI 0x64 ra.toNat rb.toNat off.toNat)
  | .bne _ ra rb off => some (packI 0x65 ra.toNat rb.toNat off.toNat)
  | .blt _ ra rb off => some (packI 0x66 ra.toNat rb.toNat off.toNat)
  | .bge _ ra rb off => some (packI 0x67 ra.toNat rb.toNat off.toNat)
  | .bltu _ ra rb off => some (packI 0x68 ra.toNat rb.toNat off.toNat)
  | .bgeu _ ra rb off => some (packI 0x69 ra.toNat rb.toNat off.toNat)
  | .callm _ ra mask _ => some (0x6A * 16777216 + ra.toNat * 65536 + mask.toNat)
  | .retm _ mask _ => some (0x6B * 16777216 + mask.toNat)
  | .send _ rd ra rb p c => some (packR 0x6C rd.toNat ra.toNat rb.toNat (c.toNat * 8 + p.toNat))
  | .mbrd _ rd ra => some (packR 0x6D rd.toNat ra.toNat 0 0)
  | .movb _ rd ra rb _ => some (packR 0x6E rd.toNat ra.toNat rb.toNat 0)
  | .fillb _ rd ra rb _ => some (packR 0x6F rd.toNat ra.toNat rb.toNat 0)
  | .akey128 _ rd ra rb => some (packR 0x70 rd.toNat ra.toNat rb.toNat 0)
  | .akey256 _ rd ra rb => some (packR 0x70 rd.toNat ra.toNat rb.toNat 1)
  | .gcmenc _ rd ra rb => some (packR 0x70 rd.toNat ra.toNat rb.toNat 2)
  | .gcmdec _ rd ra rb => some (packR 0x70 rd.toNat ra.toNat rb.toNat 3)
  | .ghash _ rd ra rb => some (packR 0x70 rd.toNat ra.toNat rb.toNat 4)
  | .gcmtag _ rd ra rb => some (packR 0x70 rd.toNat ra.toNat rb.toNat 5)
  | .cmac _ rd ra rb => some (packR 0x70 rd.toNat ra.toNat rb.toNat 6)
  | .cmacend _ rd ra rb => some (packR 0x70 rd.toNat ra.toNat rb.toNat 7)
  | .s256init _ rd ra => some (packR 0x71 rd.toNat ra.toNat 0 0)
  | .s256blk _ rd ra rb => some (packR 0x71 rd.toNat ra.toNat rb.toNat 1)
  | .s256end _ rd ra rb => some (packR 0x71 rd.toNat ra.toNat rb.toNat 2)
  | .s384init _ rd ra => some (packR 0x71 rd.toNat ra.toNat 0 3)
  | .s384blk _ rd ra rb => some (packR 0x71 rd.toNat ra.toNat rb.toNat 4)
  | .s384end _ rd ra rb => some (packR 0x71 rd.toNat ra.toNat rb.toNat 5)
  | .crc32c _ rd ra rb => some (packR 0x72 rd.toNat ra.toNat rb.toNat 0)
  | .csum _ rd ra rb => some (packR 0x72 rd.toNat ra.toNat rb.toNat 1)
  | .csfold _ rd ra => some (packR 0x72 rd.toNat ra.toNat 0 2)
  | .slook _ rd ra rb => some (packR 0x73 rd.toNat ra.toNat rb.toNat 0)
  | .sins _ rd ra rb => some (packR 0x73 rd.toNat ra.toNat rb.toNat 1)
  | .sdel _ rd ra rb => some (packR 0x73 rd.toNat ra.toNat rb.toNat 2)
  | .dadd _ rd ra rb => some (packR 0x74 rd.toNat ra.toNat rb.toNat 0)
  | .dsub _ rd ra rb => some (packR 0x74 rd.toNat ra.toNat rb.toNat 1)
  | .dmul _ rd ra rb => some (packR 0x74 rd.toNat ra.toNat rb.toNat 2)
  | .dcmp _ rd ra rb => some (packR 0x74 rd.toNat ra.toNat rb.toNat 3)
  | .dchk _ rd ra => some (packR 0x74 rd.toNat ra.toNat 0 4)
  | .a2p _ rd ra rb => some (packR 0x75 rd.toNat ra.toNat rb.toNat 0)
  | .p2a _ rd ra rb => some (packR 0x75 rd.toNat ra.toNat rb.toNat 1)
  | .e2p _ rd ra rb => some (packR 0x75 rd.toNat ra.toNat rb.toNat 2)
  | .p2e _ rd ra rb => some (packR 0x75 rd.toNat ra.toNat rb.toNat 3)
  | .p2b _ rd ra => some (packR 0x75 rd.toNat ra.toNat 0 4)
  | .b2p _ rd ra => some (packR 0x75 rd.toNat ra.toNat 0 5)
  | .farx _ op rd ra rb fn => some (packR (0x78 + op.toNat) rd.toNat ra.toNat rb.toNat fn.toNat)
  | .pairedWord _ a b => some (2147483648 + packS a * 65536 + packS b * 2)
  | _ => none

/-- The word of a core instruction. -/
def encodeWord (i : Instr) : Option Word32 := (encodeNat i).map (BitVec.ofNat 32)

end Sys2Proof
end

