-- ==== Sys2Proof/Config.lean ====
section
/-! DEFINITION. What the spec leaves to the part or leaves open: constants without a body, so that no proof can see
their value. -/

namespace Sys2Proof.Config

/-- The word at byte offset `4 * n` of the boot ROM (13 R413, R416: its contents are Tywetin's). (log 8, DESIGN CHOICE) -/
opaque romWord : Nat → Word32
/-- Byte `i` of the form in which the near Annex keeps its opaque key schedule (03 R101): the stored byte is the
schedule byte combined with this one. (log 9, DESIGN CHOICE) -/
opaque aesMask : Nat → Byte
/-- The validity marker of a SHA state block (03 R104 gives it no value). (log 10, DESIGN CHOICE) -/
opaque shaMarker : Word
/-- What the Bellows expects a raise of a region from a setpoint code by a number of codes to add to the die power, in
0.25 W (07 R262 speaks of a raise that would take the power over the ceiling and gives no estimate). (log 11, DESIGN CHOICE) -/
opaque raisePower : Nat → Nat → Nat → BitVec 12
/-- A value the spec leaves open, one for each use of the free-value counter. (log 6, DESIGN CHOICE) -/
opaque freeWord : Nat → Word
/-- Word `n` of the Attar microcode ROM (13 R423; its contents are Tywetin's). (log 12, DESIGN CHOICE) -/
opaque attarRom : Nat → Word32
/-- The microaddress at which the ROM routine of CALLM (0), RETM (1), MOVB (2), FILLB (3) or a remote TAS (4) begins, and
the one at which it is resumed (13 R425 names them and gives no address). (log 12, DESIGN CHOICE) -/
opaque attarEntry : Nat → Nat
/-- Log 12, DESIGN CHOICE. -/
opaque attarResume : Nat → Nat
/-- The I3C bus characteristics register (12 R404). (log 13, DESIGN CHOICE) -/
opaque i3cBcr : Byte
/-- The I3C device characteristics register (12 R404). (log 13, DESIGN CHOICE) -/
opaque i3cDcr : Byte
/-- The JTAG identity code (14 R441). (log 13, DESIGN CHOICE) -/
opaque jtagId : Word32
/-- The bytes that a read of a word with an uncorrectable error finds, where a requester takes them (05 R161). (log 14, DESIGN CHOICE) -/
opaque badByte : Nat → Byte
/-- Whether a read of the Attar master finds an uncorrectable word (13 R430), by the number of the free value. (log 105, DESIGN CHOICE) -/
opaque masterBad : Nat → Bool

/-- A word of a function's configuration space, by function and offset, where the spec gives no contents (10 R323). (log 67, PRESUMED) -/
opaque configWord : Nat → Nat → Word32
/-- The bytes, less 1, that the unit takes of a block for a PARTLEN that 03 R101 gives no meaning. (log 32, DESIGN CHOICE) -/
opaque partLen : Nat → Nat
/-- The result of an Attar ALU function on operands for which 13 R423 states none. (log 117, DESIGN CHOICE) -/
opaque microAlu : Nat → Word → Word → Word

end Sys2Proof.Config
end

