-- ==== Sys2Proof/Machine/RegMap.lean ====
section
/-! DEFINITION. Every register of the I/O space with its fields: place, access type, update category and reset
value, as the field tables of chapters 04 to 13 and the register index (15) give them. -/

namespace Sys2Proof.Machine

/-- Access types (00_scope.md R8). -/
inductive Access where
  | rw | ro | wo | w1c | w1s | rc
  deriving DecidableEq, Repr

/-- Update categories (00_scope.md R11). `none` is the dash of a status field. -/
inductive Upd where
  | live | boundary | commit | stopped | none
  deriving DecidableEq, Repr

/-- One field of a register. -/
structure RegField where
  lo    : Nat
  width : Nat
  acc   : Access
  upd   : Upd
  reset : Nat
  deriving DecidableEq, Repr

/-- One register, or an array of registers: its first I/O address, the strides and counts of its indices, and its
fields. -/
structure RegDesc where
  base   : Nat
  dims   : List (Nat × Nat)
  fields : List RegField
  deriving DecidableEq, Repr

/-- A field as the meanings name it: the I/O address of its register (index 0), its place, and whether its value in
effect may lag behind the last value written (update categories B and C, R11). -/
structure FieldRef where
  reg   : Nat
  lo    : Nat
  width : Nat
  lag   : Bool
  deriving DecidableEq, Repr


namespace Reg

abbrev GL_ID : Nat := 0x0
abbrev GL_SEC : Nat := 0x4
abbrev GL_CTL : Nat := 0x100
abbrev GL_BROVR : Nat := 0x104
abbrev GL_LINK_CTL : Nat := 0x4000
abbrev GL_LINK_STS : Nat := 0x4004
abbrev GL_PCIID : Nat := 0x4008
abbrev GL_PCISS : Nat := 0x400c
abbrev GL_LINK_RETRAIN : Nat := 0x4010
abbrev GL_LINK_REPLAY : Nat := 0x4014
abbrev GL_HL_RDERR : Nat := 0x4018
abbrev GL_HL_WRDISC : Nat := 0x401c
abbrev GL_WIN_CTL : Nat := 0x4100
abbrev GL_WIN_SRC_LO : Nat := 0x4108
abbrev GL_WIN_SRC_HI : Nat := 0x410c
abbrev GL_WIN_DST_LO : Nat := 0x4110
abbrev GL_WIN_DST_HI : Nat := 0x4114
abbrev LG_STS : Nat := 0x10000
abbrev LG_CTL : Nat := 0x10004
abbrev LG_BOOT : Nat := 0x10008
abbrev LG_BOOTLEN : Nat := 0x1000c
abbrev LG_APPLY : Nat := 0x10010
abbrev LG_LLEN : Nat := 0x10014
abbrev LG_COMMIT : Nat := 0x10018
abbrev LG_SEQ : Nat := 0x1001c
abbrev LG_ERRADDR : Nat := 0x10020
abbrev LG_ERRCNT : Nat := 0x10024
abbrev LG_BPATCH_OFF : Nat := 0x10030
abbrev LG_BPATCH_LEN : Nat := 0x10034
abbrev LG_BLDG_OFF : Nat := 0x10038
abbrev LG_BLDG_LEN : Nat := 0x1003c
abbrev BW_CTL : Nat := 0x20000
abbrev BW_STS : Nat := 0x20004
abbrev BW_PWR : Nat := 0x20010
abbrev BW_EXC : Nat := 0x20014
abbrev BW_MCFG : Nat := 0x20018
abbrev BW_WARN : Nat := 0x20020
abbrev BW_PCAP : Nat := 0x20008
abbrev BW_PCAP_CEIL : Nat := 0x2000c
abbrev BW_SHED : Nat := 0x2001c
abbrev BW_ENV : Nat := 0x20040
abbrev BW_SET : Nat := 0x20060
abbrev BW_RING : Nat := 0x20080
abbrev TY_CTL : Nat := 0x30000
abbrev TY_STS : Nat := 0x30004
abbrev TY_POP : Nat := 0x30008
abbrev TY_DROP : Nat := 0x3000c
abbrev TY_PUSH : Nat := 0x30010
abbrev TY_SCFG : Nat := 0x30014
abbrev TY_TPRI0 : Nat := 0x30018
abbrev TY_TPRI1 : Nat := 0x3001c
abbrev TY_RCFG : Nat := 0x30020
abbrev TY_LVL : Nat := 0x30030
abbrev TY_LOST : Nat := 0x30040
abbrev TY_MDROP : Nat := 0x30050
abbrev TY_ITEM : Nat := 0x30060
abbrev TY_ADCCTL : Nat := 0x30080
abbrev TY_ADC : Nat := 0x300c0
abbrev TY_ADCLIM : Nat := 0x30100
abbrev TY_TEMP : Nat := 0x30140
abbrev TY_VSNS : Nat := 0x30180
abbrev TY_HCTL : Nat := 0x301a0
abbrev TY_HCFG : Nat := 0x301a4
abbrev TY_HBIN : Nat := 0x30200
abbrev TY_PWM_PER : Nat := 0x30500
abbrev TY_PWM_HIGH : Nat := 0x30520
abbrev TY_CE : Nat := 0x30600
abbrev TY_CAP_LO : Nat := 0x30800
abbrev TY_CAP_HI : Nat := 0x30804
abbrev TY_CM_CFG : Nat := 0x31000
abbrev TY_CM_RATE : Nat := 0x31004
abbrev TY_CM_BURST : Nat := 0x31008
abbrev TY_CM_EXC : Nat := 0x3100c
abbrev TY_SM_CFG : Nat := 0x34000
abbrev TY_SM_RATE : Nat := 0x34004
abbrev TY_SM_BURST : Nat := 0x34008
abbrev TY_SM_EXC : Nat := 0x3400c
abbrev TB_CTL : Nat := 0x40000
abbrev TB_STS : Nat := 0x40004
abbrev TB_NOWF : Nat := 0x40010
abbrev TB_DISC : Nat := 0x4001c
abbrev TB_PPSCFG : Nat := 0x40030
abbrev TB_UNC : Nat := 0x40040
abbrev TB_XUNC : Nat := 0x40048
abbrev TB_NOW_LO : Nat := 0x40008
abbrev TB_NOW_HI : Nat := 0x4000c
abbrev TB_PPSCAP_LO : Nat := 0x40038
abbrev TB_PPSCAP_HI : Nat := 0x4003c
abbrev TB_DARK_LO : Nat := 0x40050
abbrev TB_DARK_HI : Nat := 0x40054
abbrev TB_STEP_LO : Nat := 0x40020
abbrev TB_STEP_HI : Nat := 0x40024
abbrev TB_SET_LO : Nat := 0x40028
abbrev TB_SET_HI : Nat := 0x4002c
abbrev TB_RATE : Nat := 0x40014
abbrev TB_SLEW : Nat := 0x40018
abbrev TB_PPSERR : Nat := 0x40034
abbrev TB_XPER : Nat := 0x40044
abbrev TB_XMEAS : Nat := 0x4004c
abbrev TB_CNT_PPSREJ : Nat := 0x40058
abbrev CR_STS : Nat := 0x50000
abbrev CR_CNT_SPUR : Nat := 0x50010
abbrev CR_CNT_MERGE : Nat := 0x50014
abbrev CR_CNT_REROUTE : Nat := 0x50018
abbrev CR_CNT_WAKE : Nat := 0x5001c
abbrev CR_CNT_DECLINE : Nat := 0x50020
abbrev CR_WAKE : Nat := 0x50100
abbrev CR_HNOTE : Nat := 0x50400
abbrev CR_MYCLAIM : Nat := 0x50f00
abbrev CR_MYCMPL : Nat := 0x50f04
abbrev CR_MYTHR : Nat := 0x50f08
abbrev CR_SCFG : Nat := 0x51000
abbrev CR_SMOD : Nat := 0x51004
abbrev CR_PEND : Nat := 0x53000
abbrev CR_CLMD : Nat := 0x53080
abbrev CR_SWSET : Nat := 0x53100
abbrev CR_SWCLR : Nat := 0x53120
abbrev CR_THR : Nat := 0x54000
abbrev CR_TCLAIM : Nat := 0x54004
abbrev CR_TCMPL : Nat := 0x54008
abbrev CR_MPEND : Nat := 0x5c000
abbrev CR_GRP : Nat := 0x60000
abbrev LL_STS : Nat := 0x70000
abbrev LL_CTL : Nat := 0x70004
abbrev LL_CMD : Nat := 0x70008
abbrev LL_WKREASON : Nat := 0x70010
abbrev LL_WKFAIL : Nat := 0x70014
abbrev LL_STRAP : Nat := 0x70024
abbrev LL_WAKECFG : Nat := 0x70028
abbrev LL_EVT : Nat := 0x7002c
abbrev LL_DKDROP : Nat := 0x70030
abbrev LL_PDC : Nat := 0x70048
abbrev LL_PMSTS : Nat := 0x70050
abbrev LL_RST_CAUSE : Nat := 0x7000c
abbrev LL_WK_TMO : Nat := 0x70018
abbrev LL_DIDLE : Nat := 0x7001c
abbrev LL_DRAIN : Nat := 0x70020
abbrev LL_XCNT_LO : Nat := 0x70038
abbrev LL_XCNT_HI : Nat := 0x7003c
abbrev LL_ALARM_LO : Nat := 0x70040
abbrev LL_ALARM_HI : Nat := 0x70044
abbrev LL_PMCMD : Nat := 0x70054
abbrev LL_PMDATA : Nat := 0x70058
abbrev LL_RAIL_CFG : Nat := 0x70100
abbrev LL_RAIL_V : Nat := 0x70104
abbrev AS_CTL : Nat := 0x80000
abbrev AS_STS : Nat := 0x80004
abbrev AS_HOLD : Nat := 0x80008
abbrev AS_TREQ : Nat := 0x8000c
abbrev AS_LOGHEAD : Nat := 0x80010
abbrev AS_ACCLOG0 : Nat := 0x80020
abbrev AS_ACCLOG1 : Nat := 0x80024
abbrev AS_SPIDX : Nat := 0x80090
abbrev AS_SPDAT : Nat := 0x80094
abbrev AS_ACCT_LO : Nat := 0x80028
abbrev AS_ACCT_HI : Nat := 0x8002c
abbrev AS_RETCORE : Nat := 0x80040
abbrev AS_RETCL : Nat := 0x80080
abbrev AS_RETRG : Nat := 0x80088
abbrev AS_PORTOOS : Nat := 0x8008c
abbrev AS_CNT_CORR : Nat := 0x800a0
abbrev AS_CNT_UNC : Nat := 0x800a4
abbrev AS_CNT_TRANS : Nat := 0x800a8
abbrev AS_CNT_LAST : Nat := 0x800ac
abbrev AS_CNT_DISAG : Nat := 0x800b0
abbrev AS_CNT_RELCONF : Nat := 0x800b4
abbrev AS_CNT_RELECC : Nat := 0x800b8
abbrev AS_CNT_RUNAWAY : Nat := 0x800bc
abbrev AS_CNT_RETDROP : Nat := 0x800c0
abbrev AS_LOG_UNIT : Nat := 0x80100
abbrev AS_LOG_INFO : Nat := 0x80104
abbrev AS_LOG_T_LO : Nat := 0x80108
abbrev AS_LOG_T_HI : Nat := 0x8010c
abbrev TL_CFRZ : Nat := 0x90000
abbrev TL_RFRZ : Nat := 0x90008
abbrev TL_FFRZ : Nat := 0x9000c
abbrev TL_CDRN : Nat := 0x90010
abbrev TL_RDRN : Nat := 0x90018
abbrev TL_FDRN : Nat := 0x9001c
abbrev TL_STCFG : Nat := 0x90020
abbrev TL_STARVE : Nat := 0x90024
abbrev TL_STARVE2 : Nat := 0x9002c
abbrev TL_HOSTRD : Nat := 0x90030
abbrev TL_RSVEV : Nat := 0x90040
abbrev TL_CRED : Nat := 0x90100
abbrev TL_WAITMAX : Nat := 0x90200
abbrev AT_ID : Nat := 0xa0000
abbrev AT_CTL : Nat := 0xa0004
abbrev AT_STS : Nat := 0xa0008
abbrev AT_PLOAD : Nat := 0xa000c
abbrev AT_PLEN : Nat := 0xa0010
abbrev AT_LOADED : Nat := 0xa0014
abbrev AT_CNT_RELOAD : Nat := 0xa001c
abbrev AT_PKH : Nat := 0xa0040
abbrev PT_CTL : Nat := 0xb0000
abbrev PT_STS : Nat := 0xb0004
abbrev PT_ETYPE : Nat := 0xb000c
abbrev PT_PFC : Nat := 0xb0010
abbrev PT_PFCMAP : Nat := 0xb0014
abbrev PT_TSOFF : Nat := 0xb0018
abbrev PT_ECNTHR : Nat := 0xb001c
abbrev PT_TXTSID : Nat := 0xb0048
abbrev PT_LANECFG : Nat := 0xb0008
abbrev PT_LANECFG_P : Nat := 0xb2008
abbrev PT_SHAPE : Nat := 0xb0024
abbrev PT_TXTS_LO : Nat := 0xb0040
abbrev PT_TXTS_HI : Nat := 0xb0044
abbrev PT_RXOK : Nat := 0xb0100
abbrev PT_RXFCS : Nat := 0xb0104
abbrev PT_RXRUNT : Nat := 0xb0108
abbrev PT_RXLONG : Nat := 0xb010c
abbrev PT_FECCORR : Nat := 0xb0110
abbrev PT_FECUNC : Nat := 0xb0114
abbrev PT_TXOK : Nat := 0xb0118
abbrev PT_TXINVFCS : Nat := 0xb011c
abbrev PT_TXGUARD : Nat := 0xb0120
abbrev PT_TXLONG : Nat := 0xb0124
abbrev PT_PFCRX : Nat := 0xb0128
abbrev PT_PFCTX : Nat := 0xb012c
abbrev PT_PPAUSEIGN : Nat := 0xb0130
abbrev PO_CTL : Nat := 0xc0000
abbrev PO_STS : Nat := 0xc0004
abbrev PO_TAGPORT : Nat := 0xc000c
abbrev PO_SHED : Nat := 0xc0050
abbrev PO_AXOFF : Nat := 0xc0054
abbrev PO_FBSW : Nat := 0xc0058
abbrev PO_DEVNUM : Nat := 0xc0008
abbrev PO_PSTART : Nat := 0xc0010
abbrev PO_PCPMAP : Nat := 0xc0018
abbrev PO_DFLT : Nat := 0xc0020
abbrev PO_ERRDST : Nat := 0xc0024
abbrev PO_TAGERR : Nat := 0xc0028
abbrev PO_FWDDST : Nat := 0xc002c
abbrev PO_GMODE : Nat := 0xc0030
abbrev PO_SHARE : Nat := 0xc0040
abbrev PO_USED : Nat := 0xc0060
abbrev PO_DROP_P : Nat := 0xc0080
abbrev PO_DROP_A : Nat := 0xc0084
abbrev PO_DROP_B : Nat := 0xc0088
abbrev PO_DROP_I : Nat := 0xc008c
abbrev PO_DROP_MBF : Nat := 0xc0090
abbrev PO_DROP_PERR : Nat := 0xc0094
abbrev PO_DROP_TAG : Nat := 0xc0098
abbrev PO_DROP_HOPS : Nat := 0xc009c
abbrev PO_DROP_SFULL : Nat := 0xc00a0
abbrev PO_DROP_DEST : Nat := 0xc00a4
abbrev PO_DROP_STOP : Nat := 0xc00a8
abbrev PO_DROP_PLONG : Nat := 0xc00ac
abbrev PO_GA : Nat := 0xc8000
abbrev PO_GB : Nat := 0xca000
abbrev PO_DG : Nat := 0xcc000
abbrev PS_CTL : Nat := 0xd0000
abbrev PS_STS : Nat := 0xd0004
abbrev PS_BANK : Nat := 0xd0008
abbrev PS_BEAT : Nat := 0xd000c
abbrev PS_SLOT : Nat := 0xd0010
abbrev PS_FBWAIT : Nat := 0xd0018
abbrev PS_CHK : Nat := 0xd001c
abbrev PS_RES : Nat := 0xd0030
abbrev PS_DIEBUD : Nat := 0xd0014
abbrev PS_PORT : Nat := 0xd0040
abbrev PS_GBUD : Nat := 0xd0084
abbrev PS_COND : Nat := 0xd0020
abbrev PS_CONDLOG : Nat := 0xd0024
abbrev PS_SPARE : Nat := 0xd0028
abbrev PS_GENT : Nat := 0xd0080
abbrev PS_GFB : Nat := 0xd0088
abbrev PS_SUB : Nat := 0xd0200
abbrev PS_DISP : Nat := 0xd0300
abbrev PS_OVERIN : Nat := 0xd0304
abbrev PS_OVEROUT : Nat := 0xd0308
abbrev PS_SLOTMISS : Nat := 0xd030c
abbrev PS_FALLBK : Nat := 0xd0310
abbrev PS_DEMOTED : Nat := 0xd0314
abbrev PS_BA : Nat := 0xd0400
abbrev PS_BB : Nat := 0xd0600
abbrev ANX_CTL : Nat := 0xe0000
abbrev ANX_VID : Nat := 0xe0004
abbrev ANX_TMO : Nat := 0xe0008
abbrev ANX_STS : Nat := 0xe000c
abbrev ANX_CNT_REQ : Nat := 0xe0010
abbrev ANX_CNT_TMO : Nat := 0xe0014
abbrev ANX_CNT_LATE : Nat := 0xe0018
abbrev ANX_CNT_ABAND : Nat := 0xe001c
abbrev HQ_BASE : Nat := 0x100000
abbrev HQ_CFG : Nat := 0x100004
abbrev HQ_MOD : Nat := 0x100008
abbrev HQ_DB : Nat := 0x10000c
abbrev HQ_SQPOS : Nat := 0x100010
abbrev HQ_CQPOS : Nat := 0x100014
abbrev HQ_STS : Nat := 0x100018
abbrev HQ_POST : Nat := 0x10001c
abbrev RG_PCTL : Nat := 0x206000
abbrev RG_PSTS : Nat := 0x206004
abbrev CO_ID : Nat := 0x200000
abbrev CO_CTL : Nat := 0x200004
abbrev CO_STS : Nat := 0x200008
abbrev CO_IOPERM : Nat := 0x200010
abbrev CO_LTCTL : Nat := 0x200040
abbrev CO_MBEATS : Nat := 0x200050
abbrev CO_SLACK : Nat := 0x200054
abbrev CO_TCTL : Nat := 0x200100
abbrev CO_TSTS : Nat := 0x200104
abbrev CO_XCAUSE : Nat := 0x200108
abbrev CO_XADDR0_LO : Nat := 0x200110
abbrev CO_XADDR0_HI : Nat := 0x200114
abbrev CO_XADDR1_LO : Nat := 0x200118
abbrev CO_XADDR1_HI : Nat := 0x20011c
end Reg

namespace Fld

abbrev GL_ID_PART : FieldRef := ⟨0x0, 0, 16, false⟩
abbrev GL_ID_STEP : FieldRef := ⟨0x0, 16, 4, false⟩
abbrev GL_SEC_RKEY : FieldRef := ⟨0x4, 0, 1, false⟩
abbrev GL_SEC_DBGLOCK : FieldRef := ⟨0x4, 1, 1, false⟩
abbrev GL_CTL_QUIET : FieldRef := ⟨0x100, 0, 1, false⟩
abbrev GL_BROVR_OVR : FieldRef := ⟨0x104, 0, 14, false⟩
abbrev GL_LINK_CTL_MAXSPD : FieldRef := ⟨0x4000, 0, 2, false⟩
abbrev GL_LINK_CTL_L1EN : FieldRef := ⟨0x4000, 2, 1, false⟩
abbrev GL_LINK_CTL_RETRAIN : FieldRef := ⟨0x4000, 3, 1, false⟩
abbrev GL_LINK_STS_STATE : FieldRef := ⟨0x4004, 0, 3, false⟩
abbrev GL_LINK_STS_SPEED : FieldRef := ⟨0x4004, 3, 2, false⟩
abbrev GL_LINK_STS_REPAIR : FieldRef := ⟨0x4004, 5, 1, false⟩
abbrev GL_LINK_STS_L1BLK : FieldRef := ⟨0x4004, 6, 1, false⟩
abbrev GL_PCIID_VAL : FieldRef := ⟨0x4008, 0, 32, false⟩
abbrev GL_PCISS_VAL : FieldRef := ⟨0x400c, 0, 32, false⟩
abbrev GL_LINK_RETRAIN_COUNT : FieldRef := ⟨0x4010, 0, 32, false⟩
abbrev GL_LINK_REPLAY_COUNT : FieldRef := ⟨0x4014, 0, 32, false⟩
abbrev GL_HL_RDERR_COUNT : FieldRef := ⟨0x4018, 0, 32, false⟩
abbrev GL_HL_WRDISC_COUNT : FieldRef := ⟨0x401c, 0, 32, false⟩
abbrev GL_WIN_CTL_EN : FieldRef := ⟨0x4100, 0, 1, true⟩
abbrev GL_WIN_CTL_WR : FieldRef := ⟨0x4100, 1, 1, true⟩
abbrev GL_WIN_CTL_CODE : FieldRef := ⟨0x4100, 2, 1, true⟩
abbrev GL_WIN_CTL_NS : FieldRef := ⟨0x4100, 3, 1, true⟩
abbrev GL_WIN_CTL_RO : FieldRef := ⟨0x4100, 4, 1, true⟩
abbrev GL_WIN_CTL_FN : FieldRef := ⟨0x4100, 5, 3, true⟩
abbrev GL_WIN_CTL_SIZE : FieldRef := ⟨0x4100, 8, 6, true⟩
abbrev GL_WIN_SRC_LO_SRC : FieldRef := ⟨0x4108, 12, 20, true⟩
abbrev GL_WIN_SRC_HI_SRC : FieldRef := ⟨0x410c, 0, 15, true⟩
abbrev GL_WIN_DST_LO_DST : FieldRef := ⟨0x4110, 12, 20, true⟩
abbrev GL_WIN_DST_HI_DST : FieldRef := ⟨0x4114, 0, 32, true⟩
abbrev LG_STS_STATE : FieldRef := ⟨0x10000, 0, 3, false⟩
abbrev LG_STS_OUT : FieldRef := ⟨0x10000, 3, 1, false⟩
abbrev LG_STS_HCAUSE : FieldRef := ⟨0x10000, 4, 3, false⟩
abbrev LG_STS_WR_IGNORED : FieldRef := ⟨0x10000, 7, 1, false⟩
abbrev LG_STS_FAIL : FieldRef := ⟨0x10000, 8, 3, false⟩
abbrev LG_STS_APPERR : FieldRef := ⟨0x10000, 11, 1, false⟩
abbrev LG_STS_REFUSED : FieldRef := ⟨0x10000, 12, 1, false⟩
abbrev LG_STS_REFGRP : FieldRef := ⟨0x10000, 13, 3, false⟩
abbrev LG_STS_BUSYREF : FieldRef := ⟨0x10000, 16, 1, false⟩
abbrev LG_CTL_HOLD : FieldRef := ⟨0x10004, 0, 1, false⟩
abbrev LG_BOOT_STATE : FieldRef := ⟨0x10008, 0, 3, false⟩
abbrev LG_BOOT_ERR : FieldRef := ⟨0x10008, 4, 4, false⟩
abbrev LG_BOOT_GO : FieldRef := ⟨0x10008, 8, 1, false⟩
abbrev LG_BOOT_DEBUG : FieldRef := ⟨0x10008, 9, 1, false⟩
abbrev LG_BOOTLEN_BYTES : FieldRef := ⟨0x1000c, 0, 25, false⟩
abbrev LG_APPLY_OFFSET : FieldRef := ⟨0x10010, 6, 22, false⟩
abbrev LG_APPLY_SPACE : FieldRef := ⟨0x10010, 28, 4, false⟩
abbrev LG_LLEN_BYTES : FieldRef := ⟨0x10014, 0, 25, false⟩
abbrev LG_COMMIT_GROUPS : FieldRef := ⟨0x10018, 0, 8, false⟩
abbrev LG_COMMIT_DIRECT : FieldRef := ⟨0x10018, 8, 1, false⟩
abbrev LG_SEQ_SEQ : FieldRef := ⟨0x1001c, 0, 32, false⟩
abbrev LG_ERRADDR_ADDR : FieldRef := ⟨0x10020, 0, 24, false⟩
abbrev LG_ERRCNT_COUNT : FieldRef := ⟨0x10024, 0, 16, false⟩
abbrev LG_BPATCH_OFF_BYTES : FieldRef := ⟨0x10030, 0, 25, false⟩
abbrev LG_BPATCH_LEN_BYTES : FieldRef := ⟨0x10034, 0, 25, false⟩
abbrev LG_BLDG_OFF_BYTES : FieldRef := ⟨0x10038, 0, 25, false⟩
abbrev LG_BLDG_LEN_BYTES : FieldRef := ⟨0x1003c, 0, 25, false⟩
abbrev BW_CTL_EN : FieldRef := ⟨0x20000, 0, 1, false⟩
abbrev BW_STS_CAPX : FieldRef := ⟨0x20004, 0, 1, false⟩
abbrev BW_STS_CEILHIT : FieldRef := ⟨0x20004, 1, 1, false⟩
abbrev BW_STS_HDRLOW : FieldRef := ⟨0x20004, 2, 1, false⟩
abbrev BW_STS_OVRRAISE : FieldRef := ⟨0x20004, 3, 1, false⟩
abbrev BW_STS_SHED : FieldRef := ⟨0x20004, 8, 3, false⟩
abbrev BW_PWR_AVG : FieldRef := ⟨0x20010, 0, 12, false⟩
abbrev BW_PWR_PEAK : FieldRef := ⟨0x20010, 16, 12, false⟩
abbrev BW_EXC_DUR : FieldRef := ⟨0x20014, 0, 16, false⟩
abbrev BW_EXC_MAXW : FieldRef := ⟨0x20014, 16, 12, false⟩
abbrev BW_MCFG_BASE : FieldRef := ⟨0x20018, 0, 8, true⟩
abbrev BW_MCFG_AGEK : FieldRef := ⟨0x20018, 8, 4, true⟩
abbrev BW_MCFG_SLKMIN : FieldRef := ⟨0x20018, 12, 8, true⟩
abbrev BW_MCFG_HYST : FieldRef := ⟨0x20018, 20, 8, true⟩
abbrev BW_WARN_HDR : FieldRef := ⟨0x20020, 0, 8, false⟩
abbrev BW_PCAP_W : FieldRef := ⟨0x20008, 0, 12, false⟩
abbrev BW_PCAP_CEIL_W : FieldRef := ⟨0x2000c, 0, 12, false⟩
abbrev BW_SHED_REG : FieldRef := ⟨0x2001c, 0, 24, false⟩
abbrev BW_ENV_MIN : FieldRef := ⟨0x20040, 0, 7, true⟩
abbrev BW_ENV_MAX : FieldRef := ⟨0x20040, 8, 7, true⟩
abbrev BW_SET_SETPT : FieldRef := ⟨0x20060, 0, 7, false⟩
abbrev BW_SET_SHORT : FieldRef := ⟨0x20060, 8, 1, false⟩
abbrev BW_SET_SHED : FieldRef := ⟨0x20060, 9, 1, false⟩
abbrev BW_RING_DLY : FieldRef := ⟨0x20080, 0, 12, false⟩
abbrev BW_RING_AGE : FieldRef := ⟨0x20080, 16, 8, false⟩
abbrev TY_CTL_EN : FieldRef := ⟨0x30000, 0, 4, false⟩
abbrev TY_STS_CFGERR : FieldRef := ⟨0x30004, 0, 1, false⟩
abbrev TY_STS_PUSHERR : FieldRef := ⟨0x30004, 1, 1, false⟩
abbrev TY_STS_INREC : FieldRef := ⟨0x30004, 2, 1, false⟩
abbrev TY_STS_RPRIO : FieldRef := ⟨0x30004, 3, 2, false⟩
abbrev TY_POP_HDR : FieldRef := ⟨0x30008, 0, 32, false⟩
abbrev TY_DROP_DROP : FieldRef := ⟨0x3000c, 0, 1, false⟩
abbrev TY_PUSH_PRIO : FieldRef := ⟨0x30010, 0, 2, false⟩
abbrev TY_PUSH_N : FieldRef := ⟨0x30010, 2, 3, false⟩
abbrev TY_PUSH_OFFSET : FieldRef := ⟨0x30010, 6, 22, false⟩
abbrev TY_PUSH_SPACE : FieldRef := ⟨0x30010, 28, 4, false⟩
abbrev TY_SCFG_PER : FieldRef := ⟨0x30014, 0, 16, false⟩
abbrev TY_TPRI0_N0 : FieldRef := ⟨0x30018, 0, 3, false⟩
abbrev TY_TPRI0_N1 : FieldRef := ⟨0x30018, 4, 3, false⟩
abbrev TY_TPRI0_N2 : FieldRef := ⟨0x30018, 8, 3, false⟩
abbrev TY_TPRI0_N3 : FieldRef := ⟨0x30018, 12, 3, false⟩
abbrev TY_TPRI0_N4 : FieldRef := ⟨0x30018, 16, 3, false⟩
abbrev TY_TPRI0_N5 : FieldRef := ⟨0x30018, 20, 3, false⟩
abbrev TY_TPRI0_N6 : FieldRef := ⟨0x30018, 24, 3, false⟩
abbrev TY_TPRI0_N7 : FieldRef := ⟨0x30018, 28, 3, false⟩
abbrev TY_TPRI1_N0 : FieldRef := ⟨0x3001c, 0, 3, false⟩
abbrev TY_TPRI1_N1 : FieldRef := ⟨0x3001c, 4, 3, false⟩
abbrev TY_TPRI1_N2 : FieldRef := ⟨0x3001c, 8, 3, false⟩
abbrev TY_RCFG_LOG2 : FieldRef := ⟨0x30020, 0, 4, false⟩
abbrev TY_RCFG_BASE : FieldRef := ⟨0x30020, 8, 8, false⟩
abbrev TY_RCFG_THR : FieldRef := ⟨0x30020, 16, 16, false⟩
abbrev TY_LVL_ITEMS : FieldRef := ⟨0x30030, 0, 17, false⟩
abbrev TY_LOST_COUNT : FieldRef := ⟨0x30040, 0, 32, false⟩
abbrev TY_MDROP_COUNT : FieldRef := ⟨0x30050, 0, 32, false⟩
abbrev TY_ITEM_WORD : FieldRef := ⟨0x30060, 0, 32, false⟩
abbrev TY_ADCCTL_CHEN : FieldRef := ⟨0x30080, 0, 16, false⟩
abbrev TY_ADCCTL_AVG : FieldRef := ⟨0x30080, 16, 3, false⟩
abbrev TY_ADCCTL_RECPER : FieldRef := ⟨0x30080, 20, 12, false⟩
abbrev TY_ADC_VALUE : FieldRef := ⟨0x300c0, 0, 12, false⟩
abbrev TY_ADC_VALID : FieldRef := ⟨0x300c0, 15, 1, false⟩
abbrev TY_ADCLIM_LO : FieldRef := ⟨0x30100, 0, 12, false⟩
abbrev TY_ADCLIM_HI : FieldRef := ⟨0x30100, 16, 12, false⟩
abbrev TY_ADCLIM_EN : FieldRef := ⟨0x30100, 31, 1, false⟩
abbrev TY_TEMP_VAL : FieldRef := ⟨0x30140, 0, 12, false⟩
abbrev TY_TEMP_VALID : FieldRef := ⟨0x30140, 15, 1, false⟩
abbrev TY_VSNS_VAL : FieldRef := ⟨0x30180, 0, 12, false⟩
abbrev TY_VSNS_VALID : FieldRef := ⟨0x30180, 15, 1, false⟩
abbrev TY_HCTL_SNAP : FieldRef := ⟨0x301a0, 0, 5, false⟩
abbrev TY_HCTL_PER : FieldRef := ⟨0x301a0, 16, 16, false⟩
abbrev TY_HCFG_SHIFT : FieldRef := ⟨0x301a4, 0, 5, false⟩
abbrev TY_HCFG_EN : FieldRef := ⟨0x301a4, 8, 1, false⟩
abbrev TY_HCFG_REC : FieldRef := ⟨0x301a4, 9, 1, false⟩
abbrev TY_HBIN_BIN : FieldRef := ⟨0x30200, 0, 32, false⟩
abbrev TY_PWM_PER_NS : FieldRef := ⟨0x30500, 0, 24, true⟩
abbrev TY_PWM_HIGH_NS : FieldRef := ⟨0x30520, 0, 24, true⟩
abbrev TY_CE_MODE : FieldRef := ⟨0x30600, 0, 2, false⟩
abbrev TY_CE_OUT : FieldRef := ⟨0x30600, 2, 1, false⟩
abbrev TY_CE_EDGE : FieldRef := ⟨0x30600, 3, 2, false⟩
abbrev TY_CE_GEN : FieldRef := ⟨0x30600, 5, 3, false⟩
abbrev TY_CE_REC : FieldRef := ⟨0x30600, 8, 1, false⟩
abbrev TY_CE_IN : FieldRef := ⟨0x30600, 16, 1, false⟩
abbrev TY_CE_LASTEDGE : FieldRef := ⟨0x30600, 17, 1, false⟩
abbrev TY_CE_OVR : FieldRef := ⟨0x30600, 18, 1, false⟩
abbrev TY_CAP_LO_VAL : FieldRef := ⟨0x30800, 0, 32, false⟩
abbrev TY_CAP_HI_VAL : FieldRef := ⟨0x30804, 0, 32, false⟩
abbrev TY_CM_CFG_ACT : FieldRef := ⟨0x31000, 17, 1, false⟩
abbrev TY_CM_RATE_RATE : FieldRef := ⟨0x31004, 0, 20, false⟩
abbrev TY_CM_RATE_SCALE : FieldRef := ⟨0x31004, 20, 1, false⟩
abbrev TY_CM_BURST_BURST : FieldRef := ⟨0x31008, 0, 24, false⟩
abbrev TY_CM_EXC_COUNT : FieldRef := ⟨0x3100c, 0, 32, false⟩
abbrev TY_SM_CFG_SESSION : FieldRef := ⟨0x34000, 0, 16, false⟩
abbrev TY_SM_CFG_VALID : FieldRef := ⟨0x34000, 16, 1, false⟩
abbrev TY_SM_CFG_ACT : FieldRef := ⟨0x34000, 17, 1, false⟩
abbrev TY_SM_RATE_RATE : FieldRef := ⟨0x34004, 0, 20, false⟩
abbrev TY_SM_RATE_SCALE : FieldRef := ⟨0x34004, 20, 1, false⟩
abbrev TY_SM_BURST_BURST : FieldRef := ⟨0x34008, 0, 24, false⟩
abbrev TY_SM_EXC_COUNT : FieldRef := ⟨0x3400c, 0, 32, false⟩
abbrev TB_CTL_MODE : FieldRef := ⟨0x40000, 0, 1, false⟩
abbrev TB_CTL_REFSEL : FieldRef := ⟨0x40000, 1, 1, false⟩
abbrev TB_CTL_PPSPOL : FieldRef := ⟨0x40000, 2, 1, false⟩
abbrev TB_CTL_PPSOUT : FieldRef := ⟨0x40000, 3, 1, false⟩
abbrev TB_STS_PLLLOCK : FieldRef := ⟨0x40004, 0, 1, false⟩
abbrev TB_STS_REFOK : FieldRef := ⟨0x40004, 1, 1, false⟩
abbrev TB_STS_LOCKED : FieldRef := ⟨0x40004, 2, 1, false⟩
abbrev TB_STS_COAST : FieldRef := ⟨0x40004, 3, 1, false⟩
abbrev TB_STS_UNSET : FieldRef := ⟨0x40004, 4, 1, false⟩
abbrev TB_STS_SLEWING : FieldRef := ⟨0x40004, 5, 1, false⟩
abbrev TB_STS_PPSOK : FieldRef := ⟨0x40004, 6, 1, false⟩
abbrev TB_NOWF_FRAC : FieldRef := ⟨0x40010, 0, 16, false⟩
abbrev TB_DISC_OK : FieldRef := ⟨0x4001c, 0, 1, false⟩
abbrev TB_DISC_LOST : FieldRef := ⟨0x4001c, 1, 1, false⟩
abbrev TB_PPSCFG_WIN : FieldRef := ⟨0x40030, 0, 8, false⟩
abbrev TB_PPSCFG_LOCK : FieldRef := ⟨0x40030, 8, 8, false⟩
abbrev TB_PPSCFG_STEPLIM : FieldRef := ⟨0x40030, 16, 8, false⟩
abbrev TB_PPSCFG_OUTW : FieldRef := ⟨0x40030, 24, 8, false⟩
abbrev TB_UNC_NS : FieldRef := ⟨0x40040, 0, 32, false⟩
abbrev TB_XUNC_PPB : FieldRef := ⟨0x40048, 0, 24, false⟩
abbrev TB_NOW_LO_VAL : FieldRef := ⟨0x40008, 0, 32, false⟩
abbrev TB_NOW_HI_VAL : FieldRef := ⟨0x4000c, 0, 32, false⟩
abbrev TB_PPSCAP_LO_VAL : FieldRef := ⟨0x40038, 0, 32, false⟩
abbrev TB_PPSCAP_HI_VAL : FieldRef := ⟨0x4003c, 0, 32, false⟩
abbrev TB_DARK_LO_VAL : FieldRef := ⟨0x40050, 0, 32, false⟩
abbrev TB_DARK_HI_VAL : FieldRef := ⟨0x40054, 0, 32, false⟩
abbrev TB_STEP_LO_VAL : FieldRef := ⟨0x40020, 0, 32, false⟩
abbrev TB_STEP_HI_VAL : FieldRef := ⟨0x40024, 0, 32, false⟩
abbrev TB_SET_LO_VAL : FieldRef := ⟨0x40028, 0, 32, false⟩
abbrev TB_SET_HI_VAL : FieldRef := ⟨0x4002c, 0, 32, false⟩
abbrev TB_RATE_VAL : FieldRef := ⟨0x40014, 0, 32, false⟩
abbrev TB_SLEW_VAL : FieldRef := ⟨0x40018, 0, 32, false⟩
abbrev TB_PPSERR_VAL : FieldRef := ⟨0x40034, 0, 32, false⟩
abbrev TB_XPER_PER : FieldRef := ⟨0x40044, 0, 32, false⟩
abbrev TB_XMEAS_PER : FieldRef := ⟨0x4004c, 0, 32, false⟩
abbrev TB_CNT_PPSREJ_COUNT : FieldRef := ⟨0x40058, 0, 32, false⟩
abbrev CR_STS_WSRC : FieldRef := ⟨0x50000, 0, 10, false⟩
abbrev CR_STS_WVALID : FieldRef := ⟨0x50000, 15, 1, false⟩
abbrev CR_CNT_SPUR_COUNT : FieldRef := ⟨0x50010, 0, 32, false⟩
abbrev CR_CNT_MERGE_COUNT : FieldRef := ⟨0x50014, 0, 32, false⟩
abbrev CR_CNT_REROUTE_COUNT : FieldRef := ⟨0x50018, 0, 32, false⟩
abbrev CR_CNT_WAKE_COUNT : FieldRef := ⟨0x5001c, 0, 32, false⟩
abbrev CR_CNT_DECLINE_COUNT : FieldRef := ⟨0x50020, 0, 32, false⟩
abbrev CR_WAKE_SRC : FieldRef := ⟨0x50100, 0, 10, false⟩
abbrev CR_WAKE_VALID : FieldRef := ⟨0x50100, 15, 1, false⟩
abbrev CR_HNOTE_AXLOSS : FieldRef := ⟨0x50400, 0, 1, false⟩
abbrev CR_HNOTE_DEVEVT : FieldRef := ⟨0x50400, 1, 1, false⟩
abbrev CR_MYCLAIM_SRC : FieldRef := ⟨0x50f00, 0, 10, false⟩
abbrev CR_MYCLAIM_LEVEL : FieldRef := ⟨0x50f00, 10, 4, false⟩
abbrev CR_MYCLAIM_LT : FieldRef := ⟨0x50f00, 14, 1, false⟩
abbrev CR_MYCLAIM_MBX : FieldRef := ⟨0x50f00, 16, 1, false⟩
abbrev CR_MYCLAIM_QUE : FieldRef := ⟨0x50f00, 17, 1, false⟩
abbrev CR_MYCLAIM_VALID : FieldRef := ⟨0x50f00, 31, 1, false⟩
abbrev CR_MYCMPL_SRC : FieldRef := ⟨0x50f04, 0, 10, false⟩
abbrev CR_MYTHR_THR : FieldRef := ⟨0x50f08, 0, 4, false⟩
abbrev CR_SCFG_LEVEL : FieldRef := ⟨0x51000, 0, 4, false⟩
abbrev CR_SCFG_GROUP : FieldRef := ⟨0x51000, 4, 8, false⟩
abbrev CR_SCFG_WAKE : FieldRef := ⟨0x51000, 12, 1, false⟩
abbrev CR_SCFG_HNOTE : FieldRef := ⟨0x51000, 13, 1, false⟩
abbrev CR_SCFG_TRIG : FieldRef := ⟨0x51000, 14, 1, false⟩
abbrev CR_SMOD_CNT : FieldRef := ⟨0x51004, 0, 8, false⟩
abbrev CR_SMOD_HOLD : FieldRef := ⟨0x51004, 8, 16, false⟩
abbrev CR_PEND_MAP : FieldRef := ⟨0x53000, 0, 32, false⟩
abbrev CR_CLMD_MAP : FieldRef := ⟨0x53080, 0, 32, false⟩
abbrev CR_SWSET_SRC : FieldRef := ⟨0x53100, 0, 32, false⟩
abbrev CR_SWCLR_SRC : FieldRef := ⟨0x53120, 0, 32, false⟩
abbrev CR_THR_THR : FieldRef := ⟨0x54000, 0, 4, false⟩
abbrev CR_TCLAIM_SRC : FieldRef := ⟨0x54004, 0, 10, false⟩
abbrev CR_TCLAIM_LEVEL : FieldRef := ⟨0x54004, 10, 4, false⟩
abbrev CR_TCLAIM_LT : FieldRef := ⟨0x54004, 14, 1, false⟩
abbrev CR_TCLAIM_MBX : FieldRef := ⟨0x54004, 16, 1, false⟩
abbrev CR_TCLAIM_QUE : FieldRef := ⟨0x54004, 17, 1, false⟩
abbrev CR_TCLAIM_VALID : FieldRef := ⟨0x54004, 31, 1, false⟩
abbrev CR_TCMPL_SRC : FieldRef := ⟨0x54008, 0, 10, false⟩
abbrev CR_MPEND_MBX : FieldRef := ⟨0x5c000, 0, 4, false⟩
abbrev CR_MPEND_QUE : FieldRef := ⟨0x5c000, 4, 4, false⟩
abbrev CR_MPEND_CLM : FieldRef := ⟨0x5c000, 8, 4, false⟩
abbrev CR_GRP_MEMBER : FieldRef := ⟨0x60000, 0, 32, false⟩
abbrev LL_STS_DSTATE : FieldRef := ⟨0x70000, 0, 3, false⟩
abbrev LL_STS_WKF : FieldRef := ⟨0x70000, 3, 1, false⟩
abbrev LL_STS_DKREF : FieldRef := ⟨0x70000, 4, 3, false⟩
abbrev LL_STS_LDOLP : FieldRef := ⟨0x70000, 7, 1, false⟩
abbrev LL_STS_VIOSW : FieldRef := ⟨0x70000, 8, 1, false⟩
abbrev LL_CTL_I3CWK : FieldRef := ⟨0x70004, 0, 1, false⟩
abbrev LL_CTL_SBWK : FieldRef := ⟨0x70004, 1, 1, false⟩
abbrev LL_CTL_IBIEN : FieldRef := ⟨0x70004, 2, 1, false⟩
abbrev LL_CMD_DARK : FieldRef := ⟨0x70008, 0, 1, false⟩
abbrev LL_CMD_WAKE : FieldRef := ⟨0x70008, 1, 1, false⟩
abbrev LL_CMD_RETRY : FieldRef := ⟨0x70008, 2, 1, false⟩
abbrev LL_WKREASON_KIND : FieldRef := ⟨0x70010, 0, 3, false⟩
abbrev LL_WKREASON_SRC : FieldRef := ⟨0x70010, 3, 10, false⟩
abbrev LL_WKREASON_PEND : FieldRef := ⟨0x70010, 13, 1, false⟩
abbrev LL_WKFAIL_CODE : FieldRef := ⟨0x70014, 0, 2, false⟩
abbrev LL_WKFAIL_ATT : FieldRef := ⟨0x70014, 2, 2, false⟩
abbrev LL_STRAP_DIE : FieldRef := ⟨0x70024, 0, 2, false⟩
abbrev LL_STRAP_PMMST : FieldRef := ⟨0x70024, 2, 1, false⟩
abbrev LL_STRAP_XBYP : FieldRef := ⟨0x70024, 3, 1, false⟩
abbrev LL_STRAP_HIGH : FieldRef := ⟨0x70024, 4, 4, false⟩
abbrev LL_WAKECFG_POL : FieldRef := ⟨0x70028, 0, 8, false⟩
abbrev LL_WAKECFG_FILT : FieldRef := ⟨0x70028, 8, 8, false⟩
abbrev LL_EVT_CODE : FieldRef := ⟨0x7002c, 0, 8, false⟩
abbrev LL_EVT_COUNT : FieldRef := ⟨0x7002c, 16, 16, false⟩
abbrev LL_DKDROP_BULK : FieldRef := ⟨0x70030, 0, 16, false⟩
abbrev LL_DKDROP_IDLE : FieldRef := ⟨0x70030, 16, 16, false⟩
abbrev LL_PDC_OE : FieldRef := ⟨0x70048, 0, 8, false⟩
abbrev LL_PDC_LITLVL : FieldRef := ⟨0x70048, 8, 8, false⟩
abbrev LL_PDC_BANKLVL : FieldRef := ⟨0x70048, 16, 8, false⟩
abbrev LL_PDC_IN : FieldRef := ⟨0x70048, 24, 8, false⟩
abbrev LL_PMSTS_NOMST : FieldRef := ⟨0x70050, 0, 1, false⟩
abbrev LL_PMSTS_BUSY : FieldRef := ⟨0x70050, 1, 1, false⟩
abbrev LL_PMSTS_ERR : FieldRef := ⟨0x70050, 2, 1, false⟩
abbrev LL_PMSTS_RAIL : FieldRef := ⟨0x70050, 3, 4, false⟩
abbrev LL_PMSTS_ALERT : FieldRef := ⟨0x70050, 7, 1, false⟩
abbrev LL_RST_CAUSE_AONPOR : FieldRef := ⟨0x7000c, 0, 1, false⟩
abbrev LL_RST_CAUSE_PORST : FieldRef := ⟨0x7000c, 1, 1, false⟩
abbrev LL_RST_CAUSE_WARM : FieldRef := ⟨0x7000c, 2, 1, false⟩
abbrev LL_RST_CAUSE_BOLP : FieldRef := ⟨0x7000c, 3, 1, false⟩
abbrev LL_RST_CAUSE_BOHP : FieldRef := ⟨0x7000c, 4, 1, false⟩
abbrev LL_RST_CAUSE_VCORE : FieldRef := ⟨0x7000c, 5, 1, false⟩
abbrev LL_RST_CAUSE_THERM : FieldRef := ⟨0x7000c, 6, 1, false⟩
abbrev LL_RST_CAUSE_WKFAIL : FieldRef := ⟨0x7000c, 7, 1, false⟩
abbrev LL_WK_TMO_US : FieldRef := ⟨0x70018, 0, 10, false⟩
abbrev LL_DIDLE_MS : FieldRef := ⟨0x7001c, 0, 32, false⟩
abbrev LL_DRAIN_MS : FieldRef := ⟨0x70020, 0, 8, false⟩
abbrev LL_XCNT_LO_VAL : FieldRef := ⟨0x70038, 0, 32, false⟩
abbrev LL_XCNT_HI_VAL : FieldRef := ⟨0x7003c, 0, 16, false⟩
abbrev LL_ALARM_LO_VAL : FieldRef := ⟨0x70040, 0, 32, false⟩
abbrev LL_ALARM_HI_VAL : FieldRef := ⟨0x70044, 0, 16, false⟩
abbrev LL_PMCMD_ADDR : FieldRef := ⟨0x70054, 0, 7, false⟩
abbrev LL_PMCMD_READ : FieldRef := ⟨0x70054, 7, 1, false⟩
abbrev LL_PMCMD_CMD : FieldRef := ⟨0x70054, 8, 8, false⟩
abbrev LL_PMCMD_LEN : FieldRef := ⟨0x70054, 16, 2, false⟩
abbrev LL_PMCMD_PEC : FieldRef := ⟨0x70054, 18, 1, false⟩
abbrev LL_PMCMD_GO : FieldRef := ⟨0x70054, 19, 1, false⟩
abbrev LL_PMDATA_DATA : FieldRef := ⟨0x70058, 0, 16, false⟩
abbrev LL_RAIL_CFG_ADDR : FieldRef := ⟨0x70100, 0, 7, false⟩
abbrev LL_RAIL_CFG_EN : FieldRef := ⟨0x70100, 7, 1, false⟩
abbrev LL_RAIL_CFG_PAGE : FieldRef := ⟨0x70100, 8, 8, false⟩
abbrev LL_RAIL_CFG_PEC : FieldRef := ⟨0x70100, 16, 1, false⟩
abbrev LL_RAIL_CFG_DARKOFF : FieldRef := ⟨0x70100, 17, 1, false⟩
abbrev LL_RAIL_CFG_BANKV : FieldRef := ⟨0x70100, 18, 1, false⟩
abbrev LL_RAIL_CFG_DELAY : FieldRef := ⟨0x70100, 24, 8, false⟩
abbrev LL_RAIL_V_VLIT : FieldRef := ⟨0x70104, 0, 16, false⟩
abbrev LL_RAIL_V_VBANKED : FieldRef := ⟨0x70104, 16, 16, false⟩
abbrev AS_CTL_WIN : FieldRef := ⟨0x80000, 0, 8, true⟩
abbrev AS_STS_WOPEN : FieldRef := ⟨0x80004, 0, 1, false⟩
abbrev AS_STS_WLATE : FieldRef := ⟨0x80004, 1, 1, false⟩
abbrev AS_STS_HOLD : FieldRef := ⟨0x80004, 2, 1, false⟩
abbrev AS_STS_BUSY : FieldRef := ⟨0x80004, 3, 1, false⟩
abbrev AS_STS_QDEPTH : FieldRef := ⟨0x80004, 4, 7, false⟩
abbrev AS_STS_HCAUSE : FieldRef := ⟨0x80004, 12, 3, false⟩
abbrev AS_STS_TWOLAST : FieldRef := ⟨0x80004, 15, 1, false⟩
abbrev AS_HOLD_RESUME : FieldRef := ⟨0x80008, 0, 1, false⟩
abbrev AS_TREQ_UNIT : FieldRef := ⟨0x8000c, 0, 32, false⟩
abbrev AS_LOGHEAD_NEXT : FieldRef := ⟨0x80010, 0, 5, false⟩
abbrev AS_LOGHEAD_TOTAL : FieldRef := ⟨0x80010, 16, 16, false⟩
abbrev AS_ACCLOG0_PAIR : FieldRef := ⟨0x80020, 0, 6, false⟩
abbrev AS_ACCLOG0_GROUP : FieldRef := ⟨0x80020, 6, 4, false⟩
abbrev AS_ACCLOG0_SECOND : FieldRef := ⟨0x80020, 10, 1, false⟩
abbrev AS_ACCLOG0_KIND : FieldRef := ⟨0x80020, 11, 2, false⟩
abbrev AS_ACCLOG0_ENTRY : FieldRef := ⟨0x80020, 13, 8, false⟩
abbrev AS_ACCLOG1_BEATS : FieldRef := ⟨0x80024, 0, 13, false⟩
abbrev AS_SPIDX_BANK : FieldRef := ⟨0x80090, 0, 9, false⟩
abbrev AS_SPDAT_FREE : FieldRef := ⟨0x80094, 0, 4, false⟩
abbrev AS_SPDAT_WDRAW : FieldRef := ⟨0x80094, 8, 12, false⟩
abbrev AS_ACCT_LO_VAL : FieldRef := ⟨0x80028, 0, 32, false⟩
abbrev AS_ACCT_HI_VAL : FieldRef := ⟨0x8002c, 0, 32, false⟩
abbrev AS_RETCORE_MAP : FieldRef := ⟨0x80040, 0, 32, false⟩
abbrev AS_RETCL_MAP : FieldRef := ⟨0x80080, 0, 32, false⟩
abbrev AS_RETRG_MAP : FieldRef := ⟨0x80088, 0, 8, false⟩
abbrev AS_PORTOOS_MAP : FieldRef := ⟨0x8008c, 0, 8, false⟩
abbrev AS_CNT_CORR_COUNT : FieldRef := ⟨0x800a0, 0, 32, false⟩
abbrev AS_CNT_UNC_COUNT : FieldRef := ⟨0x800a4, 0, 32, false⟩
abbrev AS_CNT_TRANS_COUNT : FieldRef := ⟨0x800a8, 0, 32, false⟩
abbrev AS_CNT_LAST_COUNT : FieldRef := ⟨0x800ac, 0, 32, false⟩
abbrev AS_CNT_DISAG_COUNT : FieldRef := ⟨0x800b0, 0, 32, false⟩
abbrev AS_CNT_RELCONF_COUNT : FieldRef := ⟨0x800b4, 0, 32, false⟩
abbrev AS_CNT_RELECC_COUNT : FieldRef := ⟨0x800b8, 0, 32, false⟩
abbrev AS_CNT_RUNAWAY_COUNT : FieldRef := ⟨0x800bc, 0, 32, false⟩
abbrev AS_CNT_RETDROP_COUNT : FieldRef := ⟨0x800c0, 0, 32, false⟩
abbrev AS_LOG_UNIT_UNIT : FieldRef := ⟨0x80100, 0, 32, false⟩
abbrev AS_LOG_INFO_CAUSE : FieldRef := ⟨0x80104, 0, 4, false⟩
abbrev AS_LOG_INFO_VERDICT : FieldRef := ⟨0x80104, 4, 2, false⟩
abbrev AS_LOG_INFO_SECOND : FieldRef := ⟨0x80104, 6, 1, false⟩
abbrev AS_LOG_INFO_DONE : FieldRef := ⟨0x80104, 7, 1, false⟩
abbrev AS_LOG_INFO_DETAIL : FieldRef := ⟨0x80104, 16, 16, false⟩
abbrev AS_LOG_T_LO_VAL : FieldRef := ⟨0x80108, 0, 32, false⟩
abbrev AS_LOG_T_HI_VAL : FieldRef := ⟨0x8010c, 0, 32, false⟩
abbrev TL_CFRZ_FRZ : FieldRef := ⟨0x90000, 0, 32, false⟩
abbrev TL_RFRZ_FRZ : FieldRef := ⟨0x90008, 0, 8, false⟩
abbrev TL_FFRZ_FRZ : FieldRef := ⟨0x9000c, 0, 12, false⟩
abbrev TL_FFRZ_ESC : FieldRef := ⟨0x9000c, 16, 1, false⟩
abbrev TL_CDRN_DRN : FieldRef := ⟨0x90010, 0, 32, false⟩
abbrev TL_RDRN_DRN : FieldRef := ⟨0x90018, 0, 8, false⟩
abbrev TL_FDRN_DRN : FieldRef := ⟨0x9001c, 0, 12, false⟩
abbrev TL_FDRN_ESC : FieldRef := ⟨0x9001c, 16, 1, false⟩
abbrev TL_STCFG_LIMIT : FieldRef := ⟨0x90020, 0, 16, false⟩
abbrev TL_STARVE_FLAG : FieldRef := ⟨0x90024, 0, 32, false⟩
abbrev TL_STARVE2_FLAG : FieldRef := ⟨0x9002c, 0, 8, false⟩
abbrev TL_HOSTRD_CORE : FieldRef := ⟨0x90030, 0, 13, false⟩
abbrev TL_HOSTRD_ENGINE : FieldRef := ⟨0x90030, 16, 10, false⟩
abbrev TL_RSVEV_COUNT : FieldRef := ⟨0x90040, 0, 16, false⟩
abbrev TL_CRED_ARES : FieldRef := ⟨0x90100, 0, 8, true⟩
abbrev TL_CRED_BRES : FieldRef := ⟨0x90100, 8, 8, true⟩
abbrev TL_CRED_IRES : FieldRef := ⟨0x90100, 16, 8, true⟩
abbrev TL_WAITMAX_NS : FieldRef := ⟨0x90200, 0, 16, false⟩
abbrev AT_ID_ROMREV : FieldRef := ⟨0xa0000, 0, 16, false⟩
abbrev AT_ID_PATCHREV : FieldRef := ⟨0xa0000, 16, 16, false⟩
abbrev AT_CTL_RELOAD : FieldRef := ⟨0xa0004, 0, 1, false⟩
abbrev AT_CTL_ONE : FieldRef := ⟨0xa0004, 1, 1, false⟩
abbrev AT_CTL_CL : FieldRef := ⟨0xa0004, 2, 6, false⟩
abbrev AT_STS_LOADED : FieldRef := ⟨0xa0008, 0, 1, false⟩
abbrev AT_STS_RLBUSY : FieldRef := ⟨0xa0008, 1, 1, false⟩
abbrev AT_STS_MERR : FieldRef := ⟨0xa0008, 2, 1, false⟩
abbrev AT_STS_ERR : FieldRef := ⟨0xa0008, 4, 4, false⟩
abbrev AT_PLOAD_OFFSET : FieldRef := ⟨0xa000c, 6, 22, false⟩
abbrev AT_PLOAD_SPACE : FieldRef := ⟨0xa000c, 28, 4, false⟩
abbrev AT_PLEN_BYTES : FieldRef := ⟨0xa0010, 0, 25, false⟩
abbrev AT_LOADED_MAP : FieldRef := ⟨0xa0014, 0, 32, false⟩
abbrev AT_CNT_RELOAD_COUNT : FieldRef := ⟨0xa001c, 0, 32, false⟩
abbrev AT_PKH_HASH : FieldRef := ⟨0xa0040, 0, 32, false⟩
abbrev PT_CTL_EN : FieldRef := ⟨0xb0000, 0, 1, false⟩
abbrev PT_CTL_MEDIA : FieldRef := ⟨0xb0000, 1, 1, false⟩
abbrev PT_CTL_LPIEN : FieldRef := ⟨0xb0000, 2, 1, false⟩
abbrev PT_CTL_PTPEN : FieldRef := ⟨0xb0000, 3, 1, false⟩
abbrev PT_CTL_TAGUPD : FieldRef := ⟨0xb0000, 4, 1, false⟩
abbrev PT_CTL_PGUARD : FieldRef := ⟨0xb0000, 5, 1, false⟩
abbrev PT_STS_LINK : FieldRef := ⟨0xb0004, 0, 1, false⟩
abbrev PT_STS_INSVC : FieldRef := ⟨0xb0004, 1, 1, false⟩
abbrev PT_STS_LPI : FieldRef := ⟨0xb0004, 2, 1, false⟩
abbrev PT_STS_LPIOK : FieldRef := ⟨0xb0004, 3, 1, false⟩
abbrev PT_STS_FECBURST : FieldRef := ⟨0xb0004, 4, 1, false⟩
abbrev PT_STS_PAUSED : FieldRef := ⟨0xb0004, 8, 8, false⟩
abbrev PT_STS_XOFF : FieldRef := ⟨0xb0004, 16, 8, false⟩
abbrev PT_ETYPE_ETYPE : FieldRef := ⟨0xb000c, 0, 16, true⟩
abbrev PT_PFC_AEN : FieldRef := ⟨0xb0010, 0, 8, false⟩
abbrev PT_PFC_RXEN : FieldRef := ⟨0xb0010, 8, 8, false⟩
abbrev PT_PFC_QUANTA : FieldRef := ⟨0xb0010, 16, 16, false⟩
abbrev PT_PFCMAP_P0 : FieldRef := ⟨0xb0014, 0, 3, false⟩
abbrev PT_PFCMAP_P1 : FieldRef := ⟨0xb0014, 3, 3, false⟩
abbrev PT_PFCMAP_P2 : FieldRef := ⟨0xb0014, 6, 3, false⟩
abbrev PT_PFCMAP_P3 : FieldRef := ⟨0xb0014, 9, 3, false⟩
abbrev PT_PFCMAP_PPAUSE : FieldRef := ⟨0xb0014, 12, 1, false⟩
abbrev PT_TSOFF_RX : FieldRef := ⟨0xb0018, 0, 16, false⟩
abbrev PT_TSOFF_TX : FieldRef := ⟨0xb0018, 16, 16, false⟩
abbrev PT_ECNTHR_THR : FieldRef := ⟨0xb001c, 0, 16, false⟩
abbrev PT_TXTSID_SEQID : FieldRef := ⟨0xb0048, 0, 16, false⟩
abbrev PT_TXTSID_VALID : FieldRef := ⟨0xb0048, 16, 1, false⟩
abbrev PT_TXTSID_OVF : FieldRef := ⟨0xb0048, 17, 1, false⟩
abbrev PT_LANECFG_CFG : FieldRef := ⟨0xb0008, 0, 2, false⟩
abbrev PT_LANECFG_RXINV : FieldRef := ⟨0xb0008, 8, 8, false⟩
abbrev PT_LANECFG_TXINV : FieldRef := ⟨0xb0008, 16, 8, false⟩
abbrev PT_SHAPE_RATE : FieldRef := ⟨0xb0024, 0, 16, true⟩
abbrev PT_SHAPE_BURST : FieldRef := ⟨0xb0024, 16, 16, true⟩
abbrev PT_TXTS_LO_VAL : FieldRef := ⟨0xb0040, 0, 32, false⟩
abbrev PT_TXTS_HI_VAL : FieldRef := ⟨0xb0044, 0, 32, false⟩
abbrev PT_RXOK_COUNT : FieldRef := ⟨0xb0100, 0, 32, false⟩
abbrev PT_RXFCS_COUNT : FieldRef := ⟨0xb0104, 0, 32, false⟩
abbrev PT_RXRUNT_COUNT : FieldRef := ⟨0xb0108, 0, 32, false⟩
abbrev PT_RXLONG_COUNT : FieldRef := ⟨0xb010c, 0, 32, false⟩
abbrev PT_FECCORR_COUNT : FieldRef := ⟨0xb0110, 0, 32, false⟩
abbrev PT_FECUNC_COUNT : FieldRef := ⟨0xb0114, 0, 32, false⟩
abbrev PT_TXOK_COUNT : FieldRef := ⟨0xb0118, 0, 32, false⟩
abbrev PT_TXINVFCS_COUNT : FieldRef := ⟨0xb011c, 0, 32, false⟩
abbrev PT_TXGUARD_COUNT : FieldRef := ⟨0xb0120, 0, 32, false⟩
abbrev PT_TXLONG_COUNT : FieldRef := ⟨0xb0124, 0, 32, false⟩
abbrev PT_PFCRX_COUNT : FieldRef := ⟨0xb0128, 0, 32, false⟩
abbrev PT_PFCTX_COUNT : FieldRef := ⟨0xb012c, 0, 32, false⟩
abbrev PT_PPAUSEIGN_COUNT : FieldRef := ⟨0xb0130, 0, 32, false⟩
abbrev PO_CTL_EN : FieldRef := ⟨0xc0000, 0, 1, false⟩
abbrev PO_CTL_GBANK : FieldRef := ⟨0xc0000, 1, 1, true⟩
abbrev PO_STS_RUN : FieldRef := ⟨0xc0004, 0, 1, false⟩
abbrev PO_STS_BANK : FieldRef := ⟨0xc0004, 1, 1, false⟩
abbrev PO_STS_WRDISC : FieldRef := ⟨0xc0004, 16, 16, false⟩
abbrev PO_TAGPORT_PORT : FieldRef := ⟨0xc000c, 0, 16, true⟩
abbrev PO_SHED_IDLE : FieldRef := ⟨0xc0050, 0, 14, true⟩
abbrev PO_SHED_BULK : FieldRef := ⟨0xc0050, 16, 14, true⟩
abbrev PO_AXOFF_XOFF : FieldRef := ⟨0xc0054, 0, 14, true⟩
abbrev PO_AXOFF_XON : FieldRef := ⟨0xc0054, 16, 14, true⟩
abbrev PO_FBSW_UNITS : FieldRef := ⟨0xc0058, 0, 14, false⟩
abbrev PO_DEVNUM_DEV : FieldRef := ⟨0xc0008, 0, 14, true⟩
abbrev PO_DEVNUM_DIE : FieldRef := ⟨0xc0008, 16, 2, false⟩
abbrev PO_PSTART_S0 : FieldRef := ⟨0xc0010, 0, 8, true⟩
abbrev PO_PSTART_S1 : FieldRef := ⟨0xc0010, 8, 8, true⟩
abbrev PO_PSTART_S2 : FieldRef := ⟨0xc0010, 16, 8, true⟩
abbrev PO_PSTART_S3 : FieldRef := ⟨0xc0010, 24, 8, true⟩
abbrev PO_PCPMAP_Q0 : FieldRef := ⟨0xc0018, 0, 2, false⟩
abbrev PO_PCPMAP_Q1 : FieldRef := ⟨0xc0018, 2, 2, false⟩
abbrev PO_PCPMAP_Q2 : FieldRef := ⟨0xc0018, 4, 2, false⟩
abbrev PO_PCPMAP_Q3 : FieldRef := ⟨0xc0018, 6, 2, false⟩
abbrev PO_PCPMAP_Q4 : FieldRef := ⟨0xc0018, 8, 2, false⟩
abbrev PO_PCPMAP_Q5 : FieldRef := ⟨0xc0018, 10, 2, false⟩
abbrev PO_PCPMAP_Q6 : FieldRef := ⟨0xc0018, 12, 2, false⟩
abbrev PO_PCPMAP_Q7 : FieldRef := ⟨0xc0018, 14, 2, false⟩
abbrev PO_DFLT_DEST : FieldRef := ⟨0xc0020, 0, 32, true⟩
abbrev PO_ERRDST_DEST : FieldRef := ⟨0xc0024, 0, 32, true⟩
abbrev PO_TAGERR_DEST : FieldRef := ⟨0xc0028, 0, 32, true⟩
abbrev PO_FWDDST_DEST : FieldRef := ⟨0xc002c, 0, 32, true⟩
abbrev PO_GMODE_HASH : FieldRef := ⟨0xc0030, 0, 32, true⟩
abbrev PO_SHARE_RES : FieldRef := ⟨0xc0040, 0, 14, true⟩
abbrev PO_SHARE_MAX : FieldRef := ⟨0xc0040, 16, 14, true⟩
abbrev PO_USED_CELLS : FieldRef := ⟨0xc0060, 0, 18, false⟩
abbrev PO_DROP_P_COUNT : FieldRef := ⟨0xc0080, 0, 32, false⟩
abbrev PO_DROP_A_COUNT : FieldRef := ⟨0xc0084, 0, 32, false⟩
abbrev PO_DROP_B_COUNT : FieldRef := ⟨0xc0088, 0, 32, false⟩
abbrev PO_DROP_I_COUNT : FieldRef := ⟨0xc008c, 0, 32, false⟩
abbrev PO_DROP_MBF_COUNT : FieldRef := ⟨0xc0090, 0, 32, false⟩
abbrev PO_DROP_PERR_COUNT : FieldRef := ⟨0xc0094, 0, 32, false⟩
abbrev PO_DROP_TAG_COUNT : FieldRef := ⟨0xc0098, 0, 32, false⟩
abbrev PO_DROP_HOPS_COUNT : FieldRef := ⟨0xc009c, 0, 32, false⟩
abbrev PO_DROP_SFULL_COUNT : FieldRef := ⟨0xc00a0, 0, 32, false⟩
abbrev PO_DROP_DEST_COUNT : FieldRef := ⟨0xc00a4, 0, 32, false⟩
abbrev PO_DROP_STOP_COUNT : FieldRef := ⟨0xc00a8, 0, 32, false⟩
abbrev PO_DROP_PLONG_COUNT : FieldRef := ⟨0xc00ac, 0, 32, false⟩
abbrev PO_GA_WORD : FieldRef := ⟨0xc8000, 0, 32, false⟩
abbrev PO_GB_WORD : FieldRef := ⟨0xca000, 0, 32, false⟩
abbrev PO_DG_T0 : FieldRef := ⟨0xcc000, 0, 11, true⟩
abbrev PO_DG_V0 : FieldRef := ⟨0xcc000, 15, 1, true⟩
abbrev PO_DG_T1 : FieldRef := ⟨0xcc000, 16, 11, true⟩
abbrev PO_DG_V1 : FieldRef := ⟨0xcc000, 31, 1, true⟩
abbrev PS_CTL_EN : FieldRef := ⟨0xd0000, 0, 1, false⟩
abbrev PS_CTL_DEMOTE : FieldRef := ⟨0xd0000, 1, 1, false⟩
abbrev PS_CTL_ROLE : FieldRef := ⟨0xd0000, 2, 1, false⟩
abbrev PS_STS_RUN : FieldRef := ⟨0xd0004, 0, 1, false⟩
abbrev PS_STS_METERED : FieldRef := ⟨0xd0004, 1, 1, false⟩
abbrev PS_STS_ABANK : FieldRef := ⟨0xd0004, 2, 1, false⟩
abbrev PS_STS_SWPEND : FieldRef := ⟨0xd0004, 3, 1, false⟩
abbrev PS_STS_WRDISC : FieldRef := ⟨0xd0004, 16, 16, false⟩
abbrev PS_BANK_SEL : FieldRef := ⟨0xd0008, 0, 1, true⟩
abbrev PS_BEAT_PS : FieldRef := ⟨0xd000c, 0, 11, false⟩
abbrev PS_SLOT_BEATS : FieldRef := ⟨0xd0010, 0, 7, false⟩
abbrev PS_FBWAIT_US : FieldRef := ⟨0xd0018, 0, 16, false⟩
abbrev PS_CHK_GO : FieldRef := ⟨0xd001c, 0, 1, false⟩
abbrev PS_CHK_DONE : FieldRef := ⟨0xd001c, 1, 1, false⟩
abbrev PS_CHK_PASS : FieldRef := ⟨0xd001c, 2, 1, false⟩
abbrev PS_CHK_BANK : FieldRef := ⟨0xd001c, 3, 1, false⟩
abbrev PS_CHK_CAUSE : FieldRef := ⟨0xd001c, 4, 4, false⟩
abbrev PS_CHK_SLOT : FieldRef := ⟨0xd001c, 8, 8, false⟩
abbrev PS_CHK_GROUP : FieldRef := ⟨0xd001c, 16, 4, false⟩
abbrev PS_RES_ING : FieldRef := ⟨0xd0030, 0, 16, false⟩
abbrev PS_RES_EGR : FieldRef := ⟨0xd0030, 16, 16, false⟩
abbrev PS_DIEBUD_RATE : FieldRef := ⟨0xd0014, 0, 9, true⟩
abbrev PS_DIEBUD_BURST : FieldRef := ⟨0xd0014, 16, 8, true⟩
abbrev PS_PORT_RATE : FieldRef := ⟨0xd0040, 0, 9, true⟩
abbrev PS_PORT_BURST : FieldRef := ⟨0xd0040, 16, 8, true⟩
abbrev PS_PORT_RSPMAX : FieldRef := ⟨0xd0040, 24, 6, true⟩
abbrev PS_GBUD_RATE : FieldRef := ⟨0xd0084, 0, 9, true⟩
abbrev PS_GBUD_BURST : FieldRef := ⟨0xd0084, 16, 8, true⟩
abbrev PS_COND_COND : FieldRef := ⟨0xd0020, 0, 9, false⟩
abbrev PS_CONDLOG_COND : FieldRef := ⟨0xd0024, 0, 9, false⟩
abbrev PS_SPARE_SPARE : FieldRef := ⟨0xd0028, 0, 32, true⟩
abbrev PS_GENT_ENTRY : FieldRef := ⟨0xd0080, 0, 13, true⟩
abbrev PS_GENT_EN : FieldRef := ⟨0xd0080, 13, 1, true⟩
abbrev PS_GENT_B : FieldRef := ⟨0xd0080, 16, 11, true⟩
abbrev PS_GFB_DEST : FieldRef := ⟨0xd0088, 0, 32, true⟩
abbrev PS_SUB_PAIR0 : FieldRef := ⟨0xd0200, 0, 6, false⟩
abbrev PS_SUB_VALID0 : FieldRef := ⟨0xd0200, 7, 1, false⟩
abbrev PS_SUB_PAIR1 : FieldRef := ⟨0xd0200, 8, 6, false⟩
abbrev PS_SUB_VALID1 : FieldRef := ⟨0xd0200, 15, 1, false⟩
abbrev PS_SUB_PAIR2 : FieldRef := ⟨0xd0200, 16, 6, false⟩
abbrev PS_SUB_VALID2 : FieldRef := ⟨0xd0200, 23, 1, false⟩
abbrev PS_SUB_PAIR3 : FieldRef := ⟨0xd0200, 24, 6, false⟩
abbrev PS_SUB_VALID3 : FieldRef := ⟨0xd0200, 31, 1, false⟩
abbrev PS_DISP_COUNT : FieldRef := ⟨0xd0300, 0, 32, false⟩
abbrev PS_OVERIN_COUNT : FieldRef := ⟨0xd0304, 0, 32, false⟩
abbrev PS_OVEROUT_COUNT : FieldRef := ⟨0xd0308, 0, 32, false⟩
abbrev PS_SLOTMISS_COUNT : FieldRef := ⟨0xd030c, 0, 32, false⟩
abbrev PS_FALLBK_COUNT : FieldRef := ⟨0xd0310, 0, 32, false⟩
abbrev PS_DEMOTED_COUNT : FieldRef := ⟨0xd0314, 0, 32, false⟩
abbrev PS_BA_E0 : FieldRef := ⟨0xd0400, 0, 10, false⟩
abbrev PS_BA_V0 : FieldRef := ⟨0xd0400, 15, 1, false⟩
abbrev PS_BA_E1 : FieldRef := ⟨0xd0400, 16, 10, false⟩
abbrev PS_BA_V1 : FieldRef := ⟨0xd0400, 31, 1, false⟩
abbrev PS_BB_E0 : FieldRef := ⟨0xd0600, 0, 10, false⟩
abbrev PS_BB_V0 : FieldRef := ⟨0xd0600, 15, 1, false⟩
abbrev PS_BB_E1 : FieldRef := ⟨0xd0600, 16, 10, false⟩
abbrev PS_BB_V1 : FieldRef := ⟨0xd0600, 31, 1, false⟩
abbrev ANX_CTL_EN : FieldRef := ⟨0xe0000, 0, 8, false⟩
abbrev ANX_CTL_IWAIT : FieldRef := ⟨0xe0000, 8, 1, false⟩
abbrev ANX_VID_VID : FieldRef := ⟨0xe0004, 0, 16, false⟩
abbrev ANX_TMO_US : FieldRef := ⟨0xe0008, 0, 16, false⟩
abbrev ANX_STS_OUT : FieldRef := ⟨0xe000c, 0, 12, false⟩
abbrev ANX_CNT_REQ_COUNT : FieldRef := ⟨0xe0010, 0, 32, false⟩
abbrev ANX_CNT_TMO_COUNT : FieldRef := ⟨0xe0014, 0, 32, false⟩
abbrev ANX_CNT_LATE_COUNT : FieldRef := ⟨0xe0018, 0, 32, false⟩
abbrev ANX_CNT_ABAND_COUNT : FieldRef := ⟨0xe001c, 0, 32, false⟩
abbrev HQ_BASE_ADDR : FieldRef := ⟨0x100000, 0, 32, false⟩
abbrev HQ_CFG_EN : FieldRef := ⟨0x100004, 0, 1, false⟩
abbrev HQ_CFG_SWQ : FieldRef := ⟨0x100004, 1, 1, false⟩
abbrev HQ_CFG_PQ : FieldRef := ⟨0x100004, 2, 1, false⟩
abbrev HQ_CFG_SQSZ : FieldRef := ⟨0x100004, 4, 5, false⟩
abbrev HQ_CFG_CQSZ : FieldRef := ⟨0x100004, 9, 5, false⟩
abbrev HQ_CFG_SLOT : FieldRef := ⟨0x100004, 14, 3, false⟩
abbrev HQ_CFG_THREAD : FieldRef := ⟨0x100004, 18, 11, false⟩
abbrev HQ_MOD_CNT : FieldRef := ⟨0x100008, 0, 8, false⟩
abbrev HQ_MOD_HOLD : FieldRef := ⟨0x100008, 8, 16, false⟩
abbrev HQ_DB_INDEX : FieldRef := ⟨0x10000c, 0, 16, false⟩
abbrev HQ_DB_WHICH : FieldRef := ⟨0x10000c, 16, 2, false⟩
abbrev HQ_SQPOS_HEAD : FieldRef := ⟨0x100010, 0, 16, false⟩
abbrev HQ_SQPOS_TAIL : FieldRef := ⟨0x100010, 16, 16, false⟩
abbrev HQ_CQPOS_HEAD : FieldRef := ⟨0x100014, 0, 16, false⟩
abbrev HQ_CQPOS_TAIL : FieldRef := ⟨0x100014, 16, 16, false⟩
abbrev HQ_STS_RUN : FieldRef := ⟨0x100018, 0, 1, false⟩
abbrev HQ_STS_CFGERR : FieldRef := ⟨0x100018, 1, 1, false⟩
abbrev HQ_STS_DBERR : FieldRef := ⟨0x100018, 2, 1, false⟩
abbrev HQ_STS_PDISC : FieldRef := ⟨0x100018, 3, 1, false⟩
abbrev HQ_STS_DMAERR : FieldRef := ⟨0x100018, 4, 1, false⟩
abbrev HQ_STS_SQERR : FieldRef := ⟨0x100018, 5, 1, false⟩
abbrev HQ_STS_DROP : FieldRef := ⟨0x100018, 16, 16, false⟩
abbrev HQ_POST_OFFSET : FieldRef := ⟨0x10001c, 6, 22, false⟩
abbrev HQ_POST_SPACE : FieldRef := ⟨0x10001c, 28, 4, false⟩
abbrev RG_PCTL_IDLE : FieldRef := ⟨0x206000, 0, 16, false⟩
abbrev RG_PCTL_RET : FieldRef := ⟨0x206000, 16, 1, false⟩
abbrev RG_PCTL_WAKE : FieldRef := ⟨0x206000, 17, 1, false⟩
abbrev RG_PSTS_STATE : FieldRef := ⟨0x206004, 0, 3, false⟩
abbrev RG_PSTS_SHED : FieldRef := ⟨0x206004, 3, 1, false⟩
abbrev RG_PSTS_METERED : FieldRef := ⟨0x206004, 4, 1, false⟩
abbrev RG_PSTS_WAKES : FieldRef := ⟨0x206004, 16, 16, false⟩
abbrev CO_ID_ID : FieldRef := ⟨0x200000, 0, 9, false⟩
abbrev CO_CTL_TEN : FieldRef := ⟨0x200004, 0, 4, true⟩
abbrev CO_CTL_LBEN : FieldRef := ⟨0x200004, 4, 1, true⟩
abbrev CO_CTL_BPEN : FieldRef := ⟨0x200004, 5, 1, true⟩
abbrev CO_CTL_DUAL : FieldRef := ⟨0x200004, 6, 1, true⟩
abbrev CO_STS_RETIRED : FieldRef := ⟨0x200008, 0, 1, false⟩
abbrev CO_STS_METERED : FieldRef := ⟨0x200008, 1, 1, false⟩
abbrev CO_STS_LBENG : FieldRef := ⟨0x200008, 2, 1, false⟩
abbrev CO_STS_LBTHR : FieldRef := ⟨0x200008, 3, 2, false⟩
abbrev CO_STS_BOVR : FieldRef := ⟨0x200008, 5, 1, false⟩
abbrev CO_STS_BUDGET : FieldRef := ⟨0x200008, 6, 1, false⟩
abbrev CO_STS_BOVRCNT : FieldRef := ⟨0x200008, 8, 16, false⟩
abbrev CO_IOPERM_PAGE : FieldRef := ⟨0x200010, 0, 32, false⟩
abbrev CO_LTCTL_THREAD : FieldRef := ⟨0x200040, 0, 2, false⟩
abbrev CO_LTCTL_LEVEL : FieldRef := ⟨0x200040, 2, 4, false⟩
abbrev CO_LTCTL_PEND : FieldRef := ⟨0x200040, 8, 1, false⟩
abbrev CO_MBEATS_LAST : FieldRef := ⟨0x200050, 0, 16, false⟩
abbrev CO_MBEATS_MAX : FieldRef := ⟨0x200050, 16, 16, false⟩
abbrev CO_SLACK_MINPS : FieldRef := ⟨0x200054, 0, 12, false⟩
abbrev CO_TCTL_RST : FieldRef := ⟨0x200100, 0, 1, false⟩
abbrev CO_TSTS_STATE : FieldRef := ⟨0x200104, 0, 3, false⟩
abbrev CO_XCAUSE_VECTOR : FieldRef := ⟨0x200108, 0, 6, false⟩
abbrev CO_XCAUSE_SLOTB : FieldRef := ⟨0x200108, 6, 1, false⟩
abbrev CO_XCAUSE_ENTRY : FieldRef := ⟨0x200108, 7, 1, false⟩
abbrev CO_XCAUSE_SPLIT : FieldRef := ⟨0x200108, 8, 1, false⟩
abbrev CO_XADDR0_LO_VAL : FieldRef := ⟨0x200110, 0, 32, false⟩
abbrev CO_XADDR0_HI_VAL : FieldRef := ⟨0x200114, 0, 32, false⟩
abbrev CO_XADDR1_LO_VAL : FieldRef := ⟨0x200118, 0, 32, false⟩
abbrev CO_XADDR1_HI_VAL : FieldRef := ⟨0x20011c, 0, 32, false⟩
end Fld

/-- Registers of the GL block. -/
def regsGL : List RegDesc :=
  [⟨Reg.GL_ID, [], [⟨0, 16, .ro, .none, 33808⟩, ⟨16, 4, .ro, .none, 2⟩]⟩,
   ⟨Reg.GL_SEC, [], [⟨0, 1, .ro, .none, 0⟩, ⟨1, 1, .ro, .none, 0⟩]⟩,
   ⟨Reg.GL_CTL, [], [⟨0, 1, .rw, .live, 1⟩]⟩,
   ⟨Reg.GL_BROVR, [], [⟨0, 14, .w1c, .live, 0⟩]⟩,
   ⟨Reg.GL_LINK_CTL, [], [⟨0, 2, .rw, .live, 3⟩, ⟨2, 1, .rw, .live, 1⟩, ⟨3, 1, .wo, .live, 0⟩]⟩,
   ⟨Reg.GL_LINK_STS, [], [⟨0, 3, .ro, .none, 0⟩, ⟨3, 2, .ro, .none, 0⟩, ⟨5, 1, .ro, .none, 0⟩, ⟨6, 1, .ro, .none, 0⟩]⟩,
   ⟨Reg.GL_PCIID, [], [⟨0, 32, .ro, .none, 2215641088⟩]⟩,
   ⟨Reg.GL_PCISS, [], [⟨0, 32, .ro, .none, 0⟩]⟩,
   ⟨Reg.GL_LINK_RETRAIN, [], [⟨0, 32, .rc, .none, 0⟩]⟩,
   ⟨Reg.GL_LINK_REPLAY, [], [⟨0, 32, .rc, .none, 0⟩]⟩,
   ⟨Reg.GL_HL_RDERR, [], [⟨0, 32, .rc, .none, 0⟩]⟩,
   ⟨Reg.GL_HL_WRDISC, [], [⟨0, 32, .rc, .none, 0⟩]⟩,
   ⟨Reg.GL_WIN_CTL, [(32, 64)], [⟨0, 1, .rw, .commit, 0⟩, ⟨1, 1, .rw, .commit, 0⟩, ⟨2, 1, .rw, .commit, 0⟩, ⟨3, 1, .rw, .commit, 0⟩, ⟨4, 1, .rw, .commit, 0⟩, ⟨5, 3, .rw, .commit, 0⟩, ⟨8, 6, .rw, .commit, 12⟩]⟩,
   ⟨Reg.GL_WIN_SRC_LO, [(32, 64)], [⟨12, 20, .rw, .commit, 0⟩]⟩,
   ⟨Reg.GL_WIN_SRC_HI, [(32, 64)], [⟨0, 15, .rw, .commit, 0⟩]⟩,
   ⟨Reg.GL_WIN_DST_LO, [(32, 64)], [⟨12, 20, .rw, .commit, 0⟩]⟩,
   ⟨Reg.GL_WIN_DST_HI, [(32, 64)], [⟨0, 32, .rw, .commit, 0⟩]⟩]

/-- Registers of the LG block. -/
def regsLG : List RegDesc :=
  [⟨Reg.LG_STS, [], [⟨0, 3, .ro, .none, 0⟩, ⟨3, 1, .ro, .none, 0⟩, ⟨4, 3, .ro, .none, 1⟩, ⟨7, 1, .w1c, .live, 0⟩, ⟨8, 3, .ro, .none, 0⟩, ⟨11, 1, .ro, .none, 0⟩, ⟨12, 1, .w1c, .live, 0⟩, ⟨13, 3, .ro, .none, 0⟩, ⟨16, 1, .w1c, .live, 0⟩]⟩,
   ⟨Reg.LG_CTL, [], [⟨0, 1, .rw, .live, 0⟩]⟩,
   ⟨Reg.LG_BOOT, [], [⟨0, 3, .ro, .none, 0⟩, ⟨4, 4, .ro, .none, 0⟩, ⟨8, 1, .wo, .live, 0⟩, ⟨9, 1, .ro, .none, 0⟩]⟩,
   ⟨Reg.LG_BOOTLEN, [], [⟨0, 25, .rw, .live, 0⟩]⟩,
   ⟨Reg.LG_APPLY, [], [⟨6, 22, .wo, .live, 0⟩, ⟨28, 4, .wo, .live, 0⟩]⟩,
   ⟨Reg.LG_LLEN, [], [⟨0, 25, .rw, .live, 0⟩]⟩,
   ⟨Reg.LG_COMMIT, [], [⟨0, 8, .wo, .live, 0⟩, ⟨8, 1, .wo, .live, 0⟩]⟩,
   ⟨Reg.LG_SEQ, [], [⟨0, 32, .ro, .none, 0⟩]⟩,
   ⟨Reg.LG_ERRADDR, [], [⟨0, 24, .ro, .none, 0⟩]⟩,
   ⟨Reg.LG_ERRCNT, [], [⟨0, 16, .rc, .none, 0⟩]⟩,
   ⟨Reg.LG_BPATCH_OFF, [], [⟨0, 25, .ro, .none, 0⟩]⟩,
   ⟨Reg.LG_BPATCH_LEN, [], [⟨0, 25, .ro, .none, 0⟩]⟩,
   ⟨Reg.LG_BLDG_OFF, [], [⟨0, 25, .ro, .none, 0⟩]⟩,
   ⟨Reg.LG_BLDG_LEN, [], [⟨0, 25, .ro, .none, 0⟩]⟩]

/-- Registers of the BW block. -/
def regsBW : List RegDesc :=
  [⟨Reg.BW_CTL, [], [⟨0, 1, .rw, .live, 1⟩]⟩,
   ⟨Reg.BW_STS, [], [⟨0, 1, .ro, .none, 0⟩, ⟨1, 1, .w1c, .live, 0⟩, ⟨2, 1, .w1c, .live, 0⟩, ⟨3, 1, .w1c, .live, 0⟩, ⟨8, 3, .ro, .none, 0⟩]⟩,
   ⟨Reg.BW_PWR, [], [⟨0, 12, .ro, .none, 0⟩, ⟨16, 12, .rc, .none, 0⟩]⟩,
   ⟨Reg.BW_EXC, [], [⟨0, 16, .rc, .none, 0⟩, ⟨16, 12, .rc, .none, 0⟩]⟩,
   ⟨Reg.BW_MCFG, [], [⟨0, 8, .rw, .commit, 60⟩, ⟨8, 4, .rw, .commit, 2⟩, ⟨12, 8, .rw, .commit, 40⟩, ⟨20, 8, .rw, .commit, 25⟩]⟩,
   ⟨Reg.BW_WARN, [], [⟨0, 8, .rw, .live, 10⟩]⟩,
   ⟨Reg.BW_PCAP, [], [⟨0, 12, .rw, .live, 420⟩]⟩,
   ⟨Reg.BW_PCAP_CEIL, [], [⟨0, 12, .rw, .live, 420⟩]⟩,
   ⟨Reg.BW_SHED, [], [⟨0, 24, .rw, .live, 15803205⟩]⟩,
   ⟨Reg.BW_ENV, [(4, 8)], [⟨0, 7, .rw, .commit, 10⟩, ⟨8, 7, .rw, .commit, 90⟩]⟩,
   ⟨Reg.BW_SET, [(4, 8)], [⟨0, 7, .ro, .none, 40⟩, ⟨8, 1, .ro, .none, 0⟩, ⟨9, 1, .ro, .none, 0⟩]⟩,
   ⟨Reg.BW_RING, [(4, 8)], [⟨0, 12, .ro, .none, 0⟩, ⟨16, 8, .ro, .none, 0⟩]⟩]

/-- Registers of the TY block, part 1. -/
def regsTY1 : List RegDesc :=
  [⟨Reg.TY_CTL, [], [⟨0, 4, .rw, .live, 15⟩]⟩,
   ⟨Reg.TY_STS, [], [⟨0, 1, .w1c, .live, 0⟩, ⟨1, 1, .w1c, .live, 0⟩, ⟨2, 1, .ro, .none, 0⟩, ⟨3, 2, .ro, .none, 0⟩]⟩,
   ⟨Reg.TY_POP, [], [⟨0, 32, .rc, .none, 0⟩]⟩,
   ⟨Reg.TY_DROP, [], [⟨0, 1, .wo, .live, 0⟩]⟩,
   ⟨Reg.TY_PUSH, [], [⟨0, 2, .wo, .live, 0⟩, ⟨2, 3, .wo, .live, 0⟩, ⟨6, 22, .wo, .live, 0⟩, ⟨28, 4, .wo, .live, 0⟩]⟩,
   ⟨Reg.TY_SCFG, [], [⟨0, 16, .rw, .live, 0⟩]⟩,
   ⟨Reg.TY_TPRI0, [], [⟨0, 3, .rw, .live, 7⟩, ⟨4, 3, .rw, .live, 7⟩, ⟨8, 3, .rw, .live, 6⟩, ⟨12, 3, .rw, .live, 7⟩, ⟨16, 3, .rw, .live, 6⟩, ⟨20, 3, .rw, .live, 5⟩, ⟨24, 3, .rw, .live, 4⟩, ⟨28, 3, .rw, .live, 5⟩]⟩,
   ⟨Reg.TY_TPRI1, [], [⟨0, 3, .rw, .live, 6⟩, ⟨4, 3, .rw, .live, 4⟩, ⟨8, 3, .rw, .live, 5⟩]⟩,
   ⟨Reg.TY_RCFG, [(4, 4)], [⟨0, 4, .rw, .stopped, 10⟩, ⟨8, 8, .rw, .stopped, 0⟩, ⟨16, 16, .rw, .live, 0⟩]⟩,
   ⟨Reg.TY_LVL, [(4, 4)], [⟨0, 17, .ro, .none, 0⟩]⟩,
   ⟨Reg.TY_LOST, [(4, 4)], [⟨0, 32, .rc, .none, 0⟩]⟩,
   ⟨Reg.TY_MDROP, [], [⟨0, 32, .rc, .none, 0⟩]⟩,
   ⟨Reg.TY_ITEM, [(4, 8)], [⟨0, 32, .ro, .none, 0⟩]⟩,
   ⟨Reg.TY_ADCCTL, [], [⟨0, 16, .rw, .live, 0⟩, ⟨16, 3, .rw, .live, 0⟩, ⟨20, 12, .rw, .live, 0⟩]⟩,
   ⟨Reg.TY_ADC, [(4, 16)], [⟨0, 12, .ro, .none, 0⟩, ⟨15, 1, .ro, .none, 0⟩]⟩,
   ⟨Reg.TY_ADCLIM, [(4, 16)], [⟨0, 12, .rw, .live, 0⟩, ⟨16, 12, .rw, .live, 4095⟩, ⟨31, 1, .rw, .live, 0⟩]⟩,
   ⟨Reg.TY_TEMP, [(4, 16)], [⟨0, 12, .ro, .none, 0⟩, ⟨15, 1, .ro, .none, 0⟩]⟩,
   ⟨Reg.TY_VSNS, [(4, 8)], [⟨0, 12, .ro, .none, 0⟩, ⟨15, 1, .ro, .none, 0⟩]⟩,
   ⟨Reg.TY_HCTL, [], [⟨0, 5, .wo, .live, 0⟩, ⟨16, 16, .rw, .live, 0⟩]⟩,
   ⟨Reg.TY_HCFG, [(4, 5)], [⟨0, 5, .rw, .live, 7⟩, ⟨8, 1, .rw, .live, 1⟩, ⟨9, 1, .rw, .live, 0⟩]⟩]

/-- Registers of the TY block, part 2. -/
def regsTY2 : List RegDesc :=
  [⟨Reg.TY_HBIN, [(128, 5), (4, 32)], [⟨0, 32, .ro, .none, 0⟩]⟩,
   ⟨Reg.TY_PWM_PER, [(4, 8)], [⟨0, 24, .rw, .boundary, 0⟩]⟩,
   ⟨Reg.TY_PWM_HIGH, [(4, 8)], [⟨0, 24, .rw, .boundary, 0⟩]⟩,
   ⟨Reg.TY_CE, [(4, 96)], [⟨0, 2, .rw, .live, 0⟩, ⟨2, 1, .rw, .live, 0⟩, ⟨3, 2, .rw, .live, 0⟩, ⟨5, 3, .rw, .live, 0⟩, ⟨8, 1, .rw, .live, 0⟩, ⟨16, 1, .ro, .none, 0⟩, ⟨17, 1, .ro, .none, 0⟩, ⟨18, 1, .w1c, .live, 0⟩]⟩,
   ⟨Reg.TY_CAP_LO, [(8, 96)], [⟨0, 32, .ro, .none, 0⟩]⟩,
   ⟨Reg.TY_CAP_HI, [(8, 96)], [⟨0, 32, .ro, .none, 0⟩]⟩,
   ⟨Reg.TY_CM_CFG, [(16, 32)], [⟨17, 1, .rw, .live, 0⟩]⟩,
   ⟨Reg.TY_CM_RATE, [(16, 32)], [⟨0, 20, .rw, .live, 0⟩, ⟨20, 1, .rw, .live, 0⟩]⟩,
   ⟨Reg.TY_CM_BURST, [(16, 32)], [⟨0, 24, .rw, .live, 0⟩]⟩,
   ⟨Reg.TY_CM_EXC, [(16, 32)], [⟨0, 32, .rc, .none, 0⟩]⟩,
   ⟨Reg.TY_SM_CFG, [(16, 1024)], [⟨0, 16, .rw, .live, 0⟩, ⟨16, 1, .rw, .live, 0⟩, ⟨17, 1, .rw, .live, 0⟩]⟩,
   ⟨Reg.TY_SM_RATE, [(16, 1024)], [⟨0, 20, .rw, .live, 0⟩, ⟨20, 1, .rw, .live, 0⟩]⟩,
   ⟨Reg.TY_SM_BURST, [(16, 1024)], [⟨0, 24, .rw, .live, 0⟩]⟩,
   ⟨Reg.TY_SM_EXC, [(16, 1024)], [⟨0, 32, .rc, .none, 0⟩]⟩]

/-- Registers of the TY block. -/
def regsTY : List RegDesc := regsTY1 ++ regsTY2

/-- Registers of the TB block, part 1. -/
def regsTB1 : List RegDesc :=
  [⟨Reg.TB_CTL, [], [⟨0, 1, .rw, .live, 0⟩, ⟨1, 1, .rw, .stopped, 0⟩, ⟨2, 1, .rw, .live, 0⟩, ⟨3, 1, .rw, .live, 0⟩]⟩,
   ⟨Reg.TB_STS, [], [⟨0, 1, .ro, .none, 0⟩, ⟨1, 1, .ro, .none, 0⟩, ⟨2, 1, .ro, .none, 0⟩, ⟨3, 1, .ro, .none, 0⟩, ⟨4, 1, .ro, .none, 1⟩, ⟨5, 1, .ro, .none, 0⟩, ⟨6, 1, .ro, .none, 0⟩]⟩,
   ⟨Reg.TB_NOWF, [], [⟨0, 16, .ro, .none, 0⟩]⟩,
   ⟨Reg.TB_DISC, [], [⟨0, 1, .wo, .live, 0⟩, ⟨1, 1, .wo, .live, 0⟩]⟩,
   ⟨Reg.TB_PPSCFG, [], [⟨0, 8, .rw, .live, 10⟩, ⟨8, 8, .rw, .live, 25⟩, ⟨16, 8, .rw, .live, 100⟩, ⟨24, 8, .rw, .live, 100⟩]⟩,
   ⟨Reg.TB_UNC, [], [⟨0, 32, .ro, .none, 4294967295⟩]⟩,
   ⟨Reg.TB_XUNC, [], [⟨0, 24, .rw, .live, 20000⟩]⟩,
   ⟨Reg.TB_NOW_LO, [], [⟨0, 32, .ro, .none, 0⟩]⟩,
   ⟨Reg.TB_NOW_HI, [], [⟨0, 32, .ro, .none, 0⟩]⟩,
   ⟨Reg.TB_PPSCAP_LO, [], [⟨0, 32, .ro, .none, 0⟩]⟩,
   ⟨Reg.TB_PPSCAP_HI, [], [⟨0, 32, .ro, .none, 0⟩]⟩,
   ⟨Reg.TB_DARK_LO, [], [⟨0, 32, .ro, .none, 0⟩]⟩,
   ⟨Reg.TB_DARK_HI, [], [⟨0, 32, .ro, .none, 0⟩]⟩,
   ⟨Reg.TB_STEP_LO, [], [⟨0, 32, .wo, .live, 0⟩]⟩,
   ⟨Reg.TB_STEP_HI, [], [⟨0, 32, .wo, .live, 0⟩]⟩,
   ⟨Reg.TB_SET_LO, [], [⟨0, 32, .wo, .live, 0⟩]⟩,
   ⟨Reg.TB_SET_HI, [], [⟨0, 32, .wo, .live, 0⟩]⟩,
   ⟨Reg.TB_RATE, [], [⟨0, 32, .rw, .live, 0⟩]⟩,
   ⟨Reg.TB_SLEW, [], [⟨0, 32, .rw, .live, 0⟩]⟩,
   ⟨Reg.TB_PPSERR, [], [⟨0, 32, .ro, .none, 0⟩]⟩]

/-- Registers of the TB block, part 2. -/
def regsTB2 : List RegDesc :=
  [⟨Reg.TB_XPER, [], [⟨0, 32, .rw, .live, 2000000000⟩]⟩,
   ⟨Reg.TB_XMEAS, [], [⟨0, 32, .ro, .none, 0⟩]⟩,
   ⟨Reg.TB_CNT_PPSREJ, [], [⟨0, 32, .rc, .none, 0⟩]⟩]

/-- Registers of the TB block. -/
def regsTB : List RegDesc := regsTB1 ++ regsTB2

/-- Registers of the CR block, part 1. -/
def regsCR1 : List RegDesc :=
  [⟨Reg.CR_STS, [], [⟨0, 10, .ro, .none, 0⟩, ⟨15, 1, .w1c, .live, 0⟩]⟩,
   ⟨Reg.CR_CNT_SPUR, [], [⟨0, 32, .rc, .none, 0⟩]⟩,
   ⟨Reg.CR_CNT_MERGE, [], [⟨0, 32, .rc, .none, 0⟩]⟩,
   ⟨Reg.CR_CNT_REROUTE, [], [⟨0, 32, .rc, .none, 0⟩]⟩,
   ⟨Reg.CR_CNT_WAKE, [], [⟨0, 32, .rc, .none, 0⟩]⟩,
   ⟨Reg.CR_CNT_DECLINE, [], [⟨0, 32, .rc, .none, 0⟩]⟩,
   ⟨Reg.CR_WAKE, [(4, 64)], [⟨0, 10, .rw, .live, 0⟩, ⟨15, 1, .rw, .live, 0⟩]⟩,
   ⟨Reg.CR_HNOTE, [(4, 8)], [⟨0, 1, .w1c, .live, 0⟩, ⟨1, 1, .w1c, .live, 0⟩]⟩,
   ⟨Reg.CR_MYCLAIM, [], [⟨0, 10, .ro, .none, 0⟩, ⟨10, 4, .ro, .none, 0⟩, ⟨14, 1, .ro, .none, 0⟩, ⟨16, 1, .ro, .none, 0⟩, ⟨17, 1, .ro, .none, 0⟩, ⟨31, 1, .ro, .none, 0⟩]⟩,
   ⟨Reg.CR_MYCMPL, [], [⟨0, 10, .wo, .live, 0⟩]⟩,
   ⟨Reg.CR_MYTHR, [], [⟨0, 4, .rw, .live, 0⟩]⟩,
   ⟨Reg.CR_SCFG, [(8, 1024)], [⟨0, 4, .rw, .live, 0⟩, ⟨4, 8, .rw, .live, 0⟩, ⟨12, 1, .rw, .live, 0⟩, ⟨13, 1, .rw, .live, 0⟩, ⟨14, 1, .ro, .none, 0⟩]⟩,
   ⟨Reg.CR_SMOD, [(8, 1024)], [⟨0, 8, .rw, .live, 0⟩, ⟨8, 16, .rw, .live, 0⟩]⟩,
   ⟨Reg.CR_PEND, [(4, 32)], [⟨0, 32, .ro, .none, 0⟩]⟩,
   ⟨Reg.CR_CLMD, [(4, 32)], [⟨0, 32, .ro, .none, 0⟩]⟩,
   ⟨Reg.CR_SWSET, [(4, 8)], [⟨0, 32, .w1s, .live, 0⟩]⟩,
   ⟨Reg.CR_SWCLR, [(4, 8)], [⟨0, 32, .w1c, .live, 0⟩]⟩,
   ⟨Reg.CR_THR, [(16, 2048)], [⟨0, 4, .rw, .live, 0⟩]⟩,
   ⟨Reg.CR_TCLAIM, [(16, 2048)], [⟨0, 10, .ro, .none, 0⟩, ⟨10, 4, .ro, .none, 0⟩, ⟨14, 1, .ro, .none, 0⟩, ⟨16, 1, .ro, .none, 0⟩, ⟨17, 1, .ro, .none, 0⟩, ⟨31, 1, .ro, .none, 0⟩]⟩,
   ⟨Reg.CR_TCMPL, [(16, 2048)], [⟨0, 10, .wo, .live, 0⟩]⟩]

/-- Registers of the CR block, part 2. -/
def regsCR2 : List RegDesc :=
  [⟨Reg.CR_MPEND, [(4, 512)], [⟨0, 4, .ro, .none, 0⟩, ⟨4, 4, .ro, .none, 0⟩, ⟨8, 4, .ro, .none, 0⟩]⟩,
   ⟨Reg.CR_GRP, [(256, 256), (4, 64)], [⟨0, 32, .rw, .live, 0⟩]⟩]

/-- Registers of the CR block. -/
def regsCR : List RegDesc := regsCR1 ++ regsCR2

/-- Registers of the LL block, part 1. -/
def regsLL1 : List RegDesc :=
  [⟨Reg.LL_STS, [], [⟨0, 3, .ro, .none, 3⟩, ⟨3, 1, .ro, .none, 0⟩, ⟨4, 3, .ro, .none, 0⟩, ⟨7, 1, .ro, .none, 0⟩, ⟨8, 1, .ro, .none, 1⟩]⟩,
   ⟨Reg.LL_CTL, [], [⟨0, 1, .rw, .live, 1⟩, ⟨1, 1, .rw, .live, 1⟩, ⟨2, 1, .rw, .live, 0⟩]⟩,
   ⟨Reg.LL_CMD, [], [⟨0, 1, .wo, .live, 0⟩, ⟨1, 1, .wo, .live, 0⟩, ⟨2, 1, .wo, .live, 0⟩]⟩,
   ⟨Reg.LL_WKREASON, [], [⟨0, 3, .ro, .none, 0⟩, ⟨3, 10, .ro, .none, 0⟩, ⟨13, 1, .ro, .none, 0⟩]⟩,
   ⟨Reg.LL_WKFAIL, [], [⟨0, 2, .ro, .none, 0⟩, ⟨2, 2, .ro, .none, 0⟩]⟩,
   ⟨Reg.LL_STRAP, [], [⟨0, 2, .ro, .none, 0⟩, ⟨2, 1, .ro, .none, 0⟩, ⟨3, 1, .ro, .none, 0⟩, ⟨4, 4, .ro, .none, 0⟩]⟩,
   ⟨Reg.LL_WAKECFG, [], [⟨0, 8, .rw, .live, 0⟩, ⟨8, 8, .rw, .live, 0⟩]⟩,
   ⟨Reg.LL_EVT, [], [⟨0, 8, .ro, .none, 0⟩, ⟨16, 16, .rc, .none, 0⟩]⟩,
   ⟨Reg.LL_DKDROP, [], [⟨0, 16, .rc, .none, 0⟩, ⟨16, 16, .rc, .none, 0⟩]⟩,
   ⟨Reg.LL_PDC, [], [⟨0, 8, .rw, .live, 0⟩, ⟨8, 8, .rw, .live, 0⟩, ⟨16, 8, .rw, .live, 0⟩, ⟨24, 8, .ro, .none, 0⟩]⟩,
   ⟨Reg.LL_PMSTS, [], [⟨0, 1, .ro, .none, 0⟩, ⟨1, 1, .ro, .none, 0⟩, ⟨2, 1, .w1c, .live, 0⟩, ⟨3, 4, .ro, .none, 0⟩, ⟨7, 1, .ro, .none, 0⟩]⟩,
   ⟨Reg.LL_RST_CAUSE, [], [⟨0, 1, .w1c, .live, 0⟩, ⟨1, 1, .w1c, .live, 0⟩, ⟨2, 1, .w1c, .live, 0⟩, ⟨3, 1, .w1c, .live, 0⟩, ⟨4, 1, .w1c, .live, 0⟩, ⟨5, 1, .w1c, .live, 0⟩, ⟨6, 1, .w1c, .live, 0⟩, ⟨7, 1, .w1c, .live, 0⟩]⟩,
   ⟨Reg.LL_WK_TMO, [], [⟨0, 10, .rw, .live, 200⟩]⟩,
   ⟨Reg.LL_DIDLE, [], [⟨0, 32, .rw, .live, 0⟩]⟩,
   ⟨Reg.LL_DRAIN, [], [⟨0, 8, .rw, .live, 10⟩]⟩,
   ⟨Reg.LL_XCNT_LO, [], [⟨0, 32, .ro, .none, 0⟩]⟩,
   ⟨Reg.LL_XCNT_HI, [], [⟨0, 16, .ro, .none, 0⟩]⟩,
   ⟨Reg.LL_ALARM_LO, [], [⟨0, 32, .rw, .live, 0⟩]⟩,
   ⟨Reg.LL_ALARM_HI, [], [⟨0, 16, .rw, .live, 0⟩]⟩,
   ⟨Reg.LL_PMCMD, [], [⟨0, 7, .rw, .live, 0⟩, ⟨7, 1, .rw, .live, 0⟩, ⟨8, 8, .rw, .live, 0⟩, ⟨16, 2, .rw, .live, 0⟩, ⟨18, 1, .rw, .live, 0⟩, ⟨19, 1, .wo, .live, 0⟩]⟩]

/-- Registers of the LL block, part 2. -/
def regsLL2 : List RegDesc :=
  [⟨Reg.LL_PMDATA, [], [⟨0, 16, .rw, .live, 0⟩]⟩,
   ⟨Reg.LL_RAIL_CFG, [(8, 16)], [⟨0, 7, .rw, .live, 0⟩, ⟨7, 1, .rw, .live, 0⟩, ⟨8, 8, .rw, .live, 255⟩, ⟨16, 1, .rw, .live, 0⟩, ⟨17, 1, .rw, .live, 0⟩, ⟨18, 1, .rw, .live, 0⟩, ⟨24, 8, .rw, .live, 0⟩]⟩,
   ⟨Reg.LL_RAIL_V, [(8, 16)], [⟨0, 16, .rw, .live, 0⟩, ⟨16, 16, .rw, .live, 0⟩]⟩]

/-- Registers of the LL block. -/
def regsLL : List RegDesc := regsLL1 ++ regsLL2

/-- Registers of the AS block, part 1. -/
def regsAS1 : List RegDesc :=
  [⟨Reg.AS_CTL, [], [⟨0, 8, .rw, .commit, 50⟩]⟩,
   ⟨Reg.AS_STS, [], [⟨0, 1, .ro, .none, 0⟩, ⟨1, 1, .w1c, .live, 0⟩, ⟨2, 1, .ro, .none, 0⟩, ⟨3, 1, .ro, .none, 0⟩, ⟨4, 7, .ro, .none, 0⟩, ⟨12, 3, .ro, .none, 0⟩, ⟨15, 1, .w1c, .live, 0⟩]⟩,
   ⟨Reg.AS_HOLD, [], [⟨0, 1, .wo, .live, 0⟩]⟩,
   ⟨Reg.AS_TREQ, [], [⟨0, 32, .wo, .live, 0⟩]⟩,
   ⟨Reg.AS_LOGHEAD, [], [⟨0, 5, .ro, .none, 0⟩, ⟨16, 16, .ro, .none, 0⟩]⟩,
   ⟨Reg.AS_ACCLOG0, [], [⟨0, 6, .ro, .none, 0⟩, ⟨6, 4, .ro, .none, 0⟩, ⟨10, 1, .ro, .none, 0⟩, ⟨11, 2, .ro, .none, 0⟩, ⟨13, 8, .ro, .none, 0⟩]⟩,
   ⟨Reg.AS_ACCLOG1, [], [⟨0, 13, .ro, .none, 0⟩]⟩,
   ⟨Reg.AS_SPIDX, [], [⟨0, 9, .rw, .live, 0⟩]⟩,
   ⟨Reg.AS_SPDAT, [], [⟨0, 4, .ro, .none, 0⟩, ⟨8, 12, .ro, .none, 0⟩]⟩,
   ⟨Reg.AS_ACCT_LO, [], [⟨0, 32, .ro, .none, 0⟩]⟩,
   ⟨Reg.AS_ACCT_HI, [], [⟨0, 32, .ro, .none, 0⟩]⟩,
   ⟨Reg.AS_RETCORE, [(4, 16)], [⟨0, 32, .ro, .none, 0⟩]⟩,
   ⟨Reg.AS_RETCL, [(4, 2)], [⟨0, 32, .ro, .none, 0⟩]⟩,
   ⟨Reg.AS_RETRG, [], [⟨0, 8, .ro, .none, 0⟩]⟩,
   ⟨Reg.AS_PORTOOS, [], [⟨0, 8, .ro, .none, 0⟩]⟩,
   ⟨Reg.AS_CNT_CORR, [], [⟨0, 32, .rc, .none, 0⟩]⟩,
   ⟨Reg.AS_CNT_UNC, [], [⟨0, 32, .rc, .none, 0⟩]⟩,
   ⟨Reg.AS_CNT_TRANS, [], [⟨0, 32, .rc, .none, 0⟩]⟩,
   ⟨Reg.AS_CNT_LAST, [], [⟨0, 32, .rc, .none, 0⟩]⟩,
   ⟨Reg.AS_CNT_DISAG, [], [⟨0, 32, .rc, .none, 0⟩]⟩]

/-- Registers of the AS block, part 2. -/
def regsAS2 : List RegDesc :=
  [⟨Reg.AS_CNT_RELCONF, [], [⟨0, 32, .rc, .none, 0⟩]⟩,
   ⟨Reg.AS_CNT_RELECC, [], [⟨0, 32, .rc, .none, 0⟩]⟩,
   ⟨Reg.AS_CNT_RUNAWAY, [], [⟨0, 32, .rc, .none, 0⟩]⟩,
   ⟨Reg.AS_CNT_RETDROP, [], [⟨0, 32, .rc, .none, 0⟩]⟩,
   ⟨Reg.AS_LOG_UNIT, [(16, 32)], [⟨0, 32, .ro, .none, 0⟩]⟩,
   ⟨Reg.AS_LOG_INFO, [(16, 32)], [⟨0, 4, .ro, .none, 0⟩, ⟨4, 2, .ro, .none, 0⟩, ⟨6, 1, .ro, .none, 0⟩, ⟨7, 1, .ro, .none, 0⟩, ⟨16, 16, .ro, .none, 0⟩]⟩,
   ⟨Reg.AS_LOG_T_LO, [(16, 32)], [⟨0, 32, .ro, .none, 0⟩]⟩,
   ⟨Reg.AS_LOG_T_HI, [(16, 32)], [⟨0, 32, .ro, .none, 0⟩]⟩]

/-- Registers of the AS block. -/
def regsAS : List RegDesc := regsAS1 ++ regsAS2

/-- Registers of the TL block. -/
def regsTL : List RegDesc :=
  [⟨Reg.TL_CFRZ, [(4, 2)], [⟨0, 32, .rw, .live, 0⟩]⟩,
   ⟨Reg.TL_RFRZ, [], [⟨0, 8, .rw, .live, 0⟩]⟩,
   ⟨Reg.TL_FFRZ, [], [⟨0, 12, .rw, .live, 0⟩, ⟨16, 1, .rw, .stopped, 0⟩]⟩,
   ⟨Reg.TL_CDRN, [(4, 2)], [⟨0, 32, .ro, .none, 0⟩]⟩,
   ⟨Reg.TL_RDRN, [], [⟨0, 8, .ro, .none, 0⟩]⟩,
   ⟨Reg.TL_FDRN, [], [⟨0, 12, .ro, .none, 0⟩, ⟨16, 1, .ro, .none, 0⟩]⟩,
   ⟨Reg.TL_STCFG, [], [⟨0, 16, .rw, .live, 10000⟩]⟩,
   ⟨Reg.TL_STARVE, [(4, 2)], [⟨0, 32, .w1c, .live, 0⟩]⟩,
   ⟨Reg.TL_STARVE2, [], [⟨0, 8, .w1c, .live, 0⟩]⟩,
   ⟨Reg.TL_HOSTRD, [], [⟨0, 13, .ro, .none, 0⟩, ⟨16, 10, .ro, .none, 0⟩]⟩,
   ⟨Reg.TL_RSVEV, [(4, 3)], [⟨0, 16, .rc, .none, 0⟩]⟩,
   ⟨Reg.TL_CRED, [(4, 12)], [⟨0, 8, .rw, .commit, 16⟩, ⟨8, 8, .rw, .commit, 8⟩, ⟨16, 8, .rw, .commit, 4⟩]⟩,
   ⟨Reg.TL_WAITMAX, [(4, 72)], [⟨0, 16, .rc, .none, 0⟩]⟩]

/-- Registers of the AT block. -/
def regsAT : List RegDesc :=
  [⟨Reg.AT_ID, [], [⟨0, 16, .ro, .none, 0⟩, ⟨16, 16, .ro, .none, 0⟩]⟩,
   ⟨Reg.AT_CTL, [], [⟨0, 1, .wo, .live, 0⟩, ⟨1, 1, .wo, .live, 0⟩, ⟨2, 6, .wo, .live, 0⟩]⟩,
   ⟨Reg.AT_STS, [], [⟨0, 1, .ro, .none, 0⟩, ⟨1, 1, .ro, .none, 0⟩, ⟨2, 1, .ro, .none, 0⟩, ⟨4, 4, .ro, .none, 0⟩]⟩,
   ⟨Reg.AT_PLOAD, [], [⟨6, 22, .wo, .live, 0⟩, ⟨28, 4, .wo, .live, 0⟩]⟩,
   ⟨Reg.AT_PLEN, [], [⟨0, 25, .rw, .live, 0⟩]⟩,
   ⟨Reg.AT_LOADED, [(4, 2)], [⟨0, 32, .ro, .none, 0⟩]⟩,
   ⟨Reg.AT_CNT_RELOAD, [], [⟨0, 32, .rc, .none, 0⟩]⟩,
   ⟨Reg.AT_PKH, [(4, 12)], [⟨0, 32, .ro, .none, 0⟩]⟩]

/-- Registers of the PT block, part 1. -/
def regsPT1 : List RegDesc :=
  [⟨Reg.PT_CTL, [(8192, 8)], [⟨0, 1, .rw, .live, 0⟩, ⟨1, 1, .rw, .stopped, 0⟩, ⟨2, 1, .rw, .live, 1⟩, ⟨3, 1, .rw, .live, 0⟩, ⟨4, 1, .rw, .live, 0⟩, ⟨5, 1, .rw, .live, 0⟩]⟩,
   ⟨Reg.PT_STS, [(8192, 8)], [⟨0, 1, .ro, .none, 0⟩, ⟨1, 1, .ro, .none, 0⟩, ⟨2, 1, .ro, .none, 0⟩, ⟨3, 1, .ro, .none, 0⟩, ⟨4, 1, .w1c, .live, 0⟩, ⟨8, 8, .ro, .none, 0⟩, ⟨16, 8, .ro, .none, 0⟩]⟩,
   ⟨Reg.PT_ETYPE, [(8192, 8)], [⟨0, 16, .rw, .boundary, 34997⟩]⟩,
   ⟨Reg.PT_PFC, [(8192, 8)], [⟨0, 8, .rw, .live, 0⟩, ⟨8, 8, .rw, .live, 0⟩, ⟨16, 16, .rw, .live, 65535⟩]⟩,
   ⟨Reg.PT_PFCMAP, [(8192, 8)], [⟨0, 3, .rw, .live, 6⟩, ⟨3, 3, .rw, .live, 4⟩, ⟨6, 3, .rw, .live, 1⟩, ⟨9, 3, .rw, .live, 0⟩, ⟨12, 1, .rw, .live, 0⟩]⟩,
   ⟨Reg.PT_TSOFF, [(8192, 8)], [⟨0, 16, .rw, .live, 0⟩, ⟨16, 16, .rw, .live, 0⟩]⟩,
   ⟨Reg.PT_ECNTHR, [(8192, 8)], [⟨0, 16, .rw, .live, 0⟩]⟩,
   ⟨Reg.PT_TXTSID, [(8192, 8)], [⟨0, 16, .rc, .none, 0⟩, ⟨16, 1, .rc, .none, 0⟩, ⟨17, 1, .w1c, .live, 0⟩]⟩,
   ⟨Reg.PT_LANECFG, [], [⟨0, 2, .rw, .stopped, 0⟩, ⟨8, 8, .rw, .stopped, 0⟩, ⟨16, 8, .rw, .stopped, 0⟩]⟩,
   ⟨Reg.PT_LANECFG_P, [(8192, 7)], []⟩,
   ⟨Reg.PT_SHAPE, [(8192, 8), (4, 3)], [⟨0, 16, .rw, .boundary, 0⟩, ⟨16, 16, .rw, .boundary, 256⟩]⟩,
   ⟨Reg.PT_TXTS_LO, [(8192, 8)], [⟨0, 32, .ro, .none, 0⟩]⟩,
   ⟨Reg.PT_TXTS_HI, [(8192, 8)], [⟨0, 32, .ro, .none, 0⟩]⟩,
   ⟨Reg.PT_RXOK, [(8192, 8)], [⟨0, 32, .rc, .none, 0⟩]⟩,
   ⟨Reg.PT_RXFCS, [(8192, 8)], [⟨0, 32, .rc, .none, 0⟩]⟩,
   ⟨Reg.PT_RXRUNT, [(8192, 8)], [⟨0, 32, .rc, .none, 0⟩]⟩,
   ⟨Reg.PT_RXLONG, [(8192, 8)], [⟨0, 32, .rc, .none, 0⟩]⟩,
   ⟨Reg.PT_FECCORR, [(8192, 8)], [⟨0, 32, .rc, .none, 0⟩]⟩,
   ⟨Reg.PT_FECUNC, [(8192, 8)], [⟨0, 32, .rc, .none, 0⟩]⟩,
   ⟨Reg.PT_TXOK, [(8192, 8)], [⟨0, 32, .rc, .none, 0⟩]⟩]

/-- Registers of the PT block, part 2. -/
def regsPT2 : List RegDesc :=
  [⟨Reg.PT_TXINVFCS, [(8192, 8)], [⟨0, 32, .rc, .none, 0⟩]⟩,
   ⟨Reg.PT_TXGUARD, [(8192, 8)], [⟨0, 32, .rc, .none, 0⟩]⟩,
   ⟨Reg.PT_TXLONG, [(8192, 8)], [⟨0, 32, .rc, .none, 0⟩]⟩,
   ⟨Reg.PT_PFCRX, [(8192, 8)], [⟨0, 32, .rc, .none, 0⟩]⟩,
   ⟨Reg.PT_PFCTX, [(8192, 8)], [⟨0, 32, .rc, .none, 0⟩]⟩,
   ⟨Reg.PT_PPAUSEIGN, [(8192, 8)], [⟨0, 32, .rc, .none, 0⟩]⟩]

/-- Registers of the PT block. -/
def regsPT : List RegDesc := regsPT1 ++ regsPT2

/-- Registers of the PO block, part 1. -/
def regsPO1 : List RegDesc :=
  [⟨Reg.PO_CTL, [], [⟨0, 1, .rw, .live, 0⟩, ⟨1, 1, .rw, .boundary, 0⟩]⟩,
   ⟨Reg.PO_STS, [], [⟨0, 1, .ro, .none, 0⟩, ⟨1, 1, .ro, .none, 0⟩, ⟨16, 16, .rc, .none, 0⟩]⟩,
   ⟨Reg.PO_TAGPORT, [], [⟨0, 16, .rw, .boundary, 0⟩]⟩,
   ⟨Reg.PO_SHED, [], [⟨0, 14, .rw, .commit, 1024⟩, ⟨16, 14, .rw, .commit, 256⟩]⟩,
   ⟨Reg.PO_AXOFF, [], [⟨0, 14, .rw, .commit, 512⟩, ⟨16, 14, .rw, .commit, 768⟩]⟩,
   ⟨Reg.PO_FBSW, [], [⟨0, 14, .rw, .stopped, 0⟩]⟩,
   ⟨Reg.PO_DEVNUM, [], [⟨0, 14, .rw, .commit, 0⟩, ⟨16, 2, .ro, .none, 0⟩]⟩,
   ⟨Reg.PO_PSTART, [(4, 2)], [⟨0, 8, .rw, .boundary, 0⟩, ⟨8, 8, .rw, .boundary, 0⟩, ⟨16, 8, .rw, .boundary, 0⟩, ⟨24, 8, .rw, .boundary, 0⟩]⟩,
   ⟨Reg.PO_PCPMAP, [], [⟨0, 2, .rw, .live, 2⟩, ⟨2, 2, .rw, .live, 2⟩, ⟨4, 2, .rw, .live, 2⟩, ⟨6, 2, .rw, .live, 2⟩, ⟨8, 2, .rw, .live, 2⟩, ⟨10, 2, .rw, .live, 2⟩, ⟨12, 2, .rw, .live, 2⟩, ⟨14, 2, .rw, .live, 2⟩]⟩,
   ⟨Reg.PO_DFLT, [], [⟨0, 32, .rw, .boundary, 1073741824⟩]⟩,
   ⟨Reg.PO_ERRDST, [], [⟨0, 32, .rw, .boundary, 1073741824⟩]⟩,
   ⟨Reg.PO_TAGERR, [], [⟨0, 32, .rw, .boundary, 1073741824⟩]⟩,
   ⟨Reg.PO_FWDDST, [], [⟨0, 32, .rw, .boundary, 1073741824⟩]⟩,
   ⟨Reg.PO_GMODE, [(4, 2)], [⟨0, 32, .rw, .commit, 0⟩]⟩,
   ⟨Reg.PO_SHARE, [(4, 4)], [⟨0, 14, .rw, .commit, 256⟩, ⟨16, 14, .rw, .commit, 512⟩]⟩,
   ⟨Reg.PO_USED, [(4, 4)], [⟨0, 18, .ro, .none, 0⟩]⟩,
   ⟨Reg.PO_DROP_P, [], [⟨0, 32, .rc, .none, 0⟩]⟩,
   ⟨Reg.PO_DROP_A, [], [⟨0, 32, .rc, .none, 0⟩]⟩,
   ⟨Reg.PO_DROP_B, [], [⟨0, 32, .rc, .none, 0⟩]⟩,
   ⟨Reg.PO_DROP_I, [], [⟨0, 32, .rc, .none, 0⟩]⟩]

/-- Registers of the PO block, part 2. -/
def regsPO2 : List RegDesc :=
  [⟨Reg.PO_DROP_MBF, [], [⟨0, 32, .rc, .none, 0⟩]⟩,
   ⟨Reg.PO_DROP_PERR, [], [⟨0, 32, .rc, .none, 0⟩]⟩,
   ⟨Reg.PO_DROP_TAG, [], [⟨0, 32, .rc, .none, 0⟩]⟩,
   ⟨Reg.PO_DROP_HOPS, [], [⟨0, 32, .rc, .none, 0⟩]⟩,
   ⟨Reg.PO_DROP_SFULL, [], [⟨0, 32, .rc, .none, 0⟩]⟩,
   ⟨Reg.PO_DROP_DEST, [], [⟨0, 32, .rc, .none, 0⟩]⟩,
   ⟨Reg.PO_DROP_STOP, [], [⟨0, 32, .rc, .none, 0⟩]⟩,
   ⟨Reg.PO_DROP_PLONG, [], [⟨0, 32, .rc, .none, 0⟩]⟩,
   ⟨Reg.PO_DG, [(64, 64), (4, 16)], [⟨0, 11, .rw, .commit, 0⟩, ⟨15, 1, .rw, .commit, 0⟩, ⟨16, 11, .rw, .commit, 0⟩, ⟨31, 1, .rw, .commit, 0⟩]⟩]

/-- The words of the 255 nodes of a bank of the parse graph, without their reserved bits (06 R197). -/
def regsNodes (bank : Nat) : List RegDesc :=
  [⟨bank, [(32, 255)], [⟨0, 6, .rw, .live, 0⟩, ⟨8, 24, .rw, .live, 0⟩]⟩,
   ⟨bank + 4, [(32, 255), (4, 4)], [⟨0, 32, .rw, .live, 0⟩]⟩,
   ⟨bank + 20, [(32, 255)], [⟨0, 8, .rw, .live, 0⟩, ⟨16, 13, .rw, .live, 0⟩, ⟨31, 1, .rw, .live, 0⟩]⟩,
   ⟨bank + 24, [(32, 255)], [⟨0, 13, .rw, .live, 0⟩, ⟨15, 1, .rw, .live, 0⟩, ⟨16, 16, .rw, .live, 0⟩]⟩,
   ⟨bank + 28, [(32, 255)], [⟨0, 16, .rw, .live, 0⟩, ⟨16, 7, .rw, .live, 0⟩]⟩]

/-- Registers of the PO block. -/
def regsPO : List RegDesc := regsPO1 ++ regsPO2 ++ regsNodes Reg.PO_GA ++ regsNodes Reg.PO_GB

/-- Registers of the PS block, part 1. -/
def regsPS1 : List RegDesc :=
  [⟨Reg.PS_CTL, [], [⟨0, 1, .rw, .live, 0⟩, ⟨1, 1, .rw, .live, 0⟩, ⟨2, 1, .rw, .stopped, 0⟩]⟩,
   ⟨Reg.PS_STS, [], [⟨0, 1, .ro, .none, 0⟩, ⟨1, 1, .ro, .none, 0⟩, ⟨2, 1, .ro, .none, 0⟩, ⟨3, 1, .ro, .none, 0⟩, ⟨16, 16, .rc, .none, 0⟩]⟩,
   ⟨Reg.PS_BANK, [], [⟨0, 1, .rw, .boundary, 0⟩]⟩,
   ⟨Reg.PS_BEAT, [], [⟨0, 11, .rw, .stopped, 1000⟩]⟩,
   ⟨Reg.PS_SLOT, [], [⟨0, 7, .rw, .stopped, 16⟩]⟩,
   ⟨Reg.PS_FBWAIT, [], [⟨0, 16, .rw, .live, 20⟩]⟩,
   ⟨Reg.PS_CHK, [], [⟨0, 1, .wo, .live, 0⟩, ⟨1, 1, .ro, .none, 0⟩, ⟨2, 1, .ro, .none, 0⟩, ⟨3, 1, .ro, .none, 0⟩, ⟨4, 4, .ro, .none, 0⟩, ⟨8, 8, .ro, .none, 0⟩, ⟨16, 4, .ro, .none, 0⟩]⟩,
   ⟨Reg.PS_RES, [], [⟨0, 16, .rc, .none, 0⟩, ⟨16, 16, .rc, .none, 0⟩]⟩,
   ⟨Reg.PS_DIEBUD, [], [⟨0, 9, .rw, .commit, 256⟩, ⟨16, 8, .rw, .commit, 32⟩]⟩,
   ⟨Reg.PS_PORT, [(4, 8)], [⟨0, 9, .rw, .commit, 32⟩, ⟨16, 8, .rw, .commit, 2⟩, ⟨24, 6, .rw, .commit, 8⟩]⟩,
   ⟨Reg.PS_GBUD, [(16, 16)], [⟨0, 9, .rw, .commit, 32⟩, ⟨16, 8, .rw, .commit, 4⟩]⟩,
   ⟨Reg.PS_COND, [], [⟨0, 9, .ro, .none, 0⟩]⟩,
   ⟨Reg.PS_CONDLOG, [], [⟨0, 9, .w1c, .live, 0⟩]⟩,
   ⟨Reg.PS_SPARE, [(4, 2)], [⟨0, 32, .rw, .commit, 0⟩]⟩,
   ⟨Reg.PS_GENT, [(16, 16)], [⟨0, 13, .rw, .commit, 0⟩, ⟨13, 1, .rw, .commit, 0⟩, ⟨16, 11, .rw, .commit, 0⟩]⟩,
   ⟨Reg.PS_GFB, [(16, 16)], [⟨0, 32, .rw, .commit, 1073741824⟩]⟩,
   ⟨Reg.PS_SUB, [(4, 16)], [⟨0, 6, .ro, .none, 0⟩, ⟨7, 1, .ro, .none, 0⟩, ⟨8, 6, .ro, .none, 0⟩, ⟨15, 1, .ro, .none, 0⟩, ⟨16, 6, .ro, .none, 0⟩, ⟨23, 1, .ro, .none, 0⟩, ⟨24, 6, .ro, .none, 0⟩, ⟨31, 1, .ro, .none, 0⟩]⟩,
   ⟨Reg.PS_DISP, [], [⟨0, 32, .rc, .none, 0⟩]⟩,
   ⟨Reg.PS_OVERIN, [], [⟨0, 32, .rc, .none, 0⟩]⟩,
   ⟨Reg.PS_OVEROUT, [], [⟨0, 32, .rc, .none, 0⟩]⟩]

/-- Registers of the PS block, part 2. -/
def regsPS2 : List RegDesc :=
  [⟨Reg.PS_SLOTMISS, [], [⟨0, 32, .rc, .none, 0⟩]⟩,
   ⟨Reg.PS_FALLBK, [], [⟨0, 32, .rc, .none, 0⟩]⟩,
   ⟨Reg.PS_DEMOTED, [], [⟨0, 32, .rc, .none, 0⟩]⟩,
   ⟨Reg.PS_BA, [(4, 128)], [⟨0, 10, .rw, .live, 0⟩, ⟨15, 1, .rw, .live, 0⟩, ⟨16, 10, .rw, .live, 0⟩, ⟨31, 1, .rw, .live, 0⟩]⟩,
   ⟨Reg.PS_BB, [(4, 128)], [⟨0, 10, .rw, .live, 0⟩, ⟨15, 1, .rw, .live, 0⟩, ⟨16, 10, .rw, .live, 0⟩, ⟨31, 1, .rw, .live, 0⟩]⟩]

/-- Registers of the PS block. -/
def regsPS : List RegDesc := regsPS1 ++ regsPS2

/-- Registers of the ANX block. -/
def regsANX : List RegDesc :=
  [⟨Reg.ANX_CTL, [], [⟨0, 8, .rw, .live, 0⟩, ⟨8, 1, .rw, .live, 0⟩]⟩,
   ⟨Reg.ANX_VID, [], [⟨0, 16, .rw, .live, 0⟩]⟩,
   ⟨Reg.ANX_TMO, [], [⟨0, 16, .rw, .live, 100⟩]⟩,
   ⟨Reg.ANX_STS, [], [⟨0, 12, .ro, .none, 0⟩]⟩,
   ⟨Reg.ANX_CNT_REQ, [], [⟨0, 32, .rc, .none, 0⟩]⟩,
   ⟨Reg.ANX_CNT_TMO, [], [⟨0, 32, .rc, .none, 0⟩]⟩,
   ⟨Reg.ANX_CNT_LATE, [], [⟨0, 32, .rc, .none, 0⟩]⟩,
   ⟨Reg.ANX_CNT_ABAND, [], [⟨0, 32, .rc, .none, 0⟩]⟩]

/-- Registers of the HQ block. -/
def regsHQ : List RegDesc :=
  [⟨Reg.HQ_BASE, [(32, 16384)], [⟨0, 32, .rw, .stopped, 0⟩]⟩,
   ⟨Reg.HQ_CFG, [(32, 16384)], [⟨0, 1, .rw, .live, 0⟩, ⟨1, 1, .rw, .stopped, 0⟩, ⟨2, 1, .rw, .stopped, 0⟩, ⟨4, 5, .rw, .stopped, 0⟩, ⟨9, 5, .rw, .stopped, 0⟩, ⟨14, 3, .rw, .stopped, 0⟩, ⟨18, 11, .rw, .stopped, 0⟩]⟩,
   ⟨Reg.HQ_MOD, [(32, 16384)], [⟨0, 8, .rw, .live, 0⟩, ⟨8, 16, .rw, .live, 0⟩]⟩,
   ⟨Reg.HQ_DB, [(32, 16384)], [⟨0, 16, .wo, .live, 0⟩, ⟨16, 2, .wo, .live, 0⟩]⟩,
   ⟨Reg.HQ_SQPOS, [(32, 16384)], [⟨0, 16, .ro, .none, 0⟩, ⟨16, 16, .ro, .none, 0⟩]⟩,
   ⟨Reg.HQ_CQPOS, [(32, 16384)], [⟨0, 16, .ro, .none, 0⟩, ⟨16, 16, .ro, .none, 0⟩]⟩,
   ⟨Reg.HQ_STS, [(32, 16384)], [⟨0, 1, .ro, .none, 0⟩, ⟨1, 1, .w1c, .live, 0⟩, ⟨2, 1, .w1c, .live, 0⟩, ⟨3, 1, .w1c, .live, 0⟩, ⟨4, 1, .w1c, .live, 0⟩, ⟨5, 1, .w1c, .live, 0⟩, ⟨16, 16, .rc, .none, 0⟩]⟩,
   ⟨Reg.HQ_POST, [(32, 16384)], [⟨6, 22, .wo, .live, 0⟩, ⟨28, 4, .wo, .live, 0⟩]⟩]

/-- Registers of the RG block. -/
def regsRG : List RegDesc :=
  [⟨Reg.RG_PCTL, [(262144, 8)], [⟨0, 16, .rw, .live, 0⟩, ⟨16, 1, .rw, .live, 1⟩, ⟨17, 1, .wo, .live, 0⟩]⟩,
   ⟨Reg.RG_PSTS, [(262144, 8)], [⟨0, 3, .ro, .none, 0⟩, ⟨3, 1, .ro, .none, 0⟩, ⟨4, 1, .ro, .none, 0⟩, ⟨16, 16, .rc, .none, 0⟩]⟩]

/-- Registers of the CO block. -/
def regsCO : List RegDesc :=
  [⟨Reg.CO_ID, [(262144, 8), (32768, 8), (2048, 8)], [⟨0, 9, .ro, .none, 0⟩]⟩,
   ⟨Reg.CO_CTL, [(262144, 8), (32768, 8), (2048, 8)], [⟨0, 4, .rw, .boundary, 0⟩, ⟨4, 1, .rw, .boundary, 1⟩, ⟨5, 1, .rw, .boundary, 1⟩, ⟨6, 1, .rw, .boundary, 1⟩]⟩,
   ⟨Reg.CO_STS, [(262144, 8), (32768, 8), (2048, 8)], [⟨0, 1, .ro, .none, 0⟩, ⟨1, 1, .ro, .none, 0⟩, ⟨2, 1, .ro, .none, 0⟩, ⟨3, 2, .ro, .none, 0⟩, ⟨5, 1, .w1c, .live, 0⟩, ⟨6, 1, .w1c, .live, 0⟩, ⟨8, 16, .rc, .none, 0⟩]⟩,
   ⟨Reg.CO_IOPERM, [(262144, 8), (32768, 8), (2048, 8), (4, 8)], [⟨0, 32, .rw, .live, 0⟩]⟩,
   ⟨Reg.CO_LTCTL, [(262144, 8), (32768, 8), (2048, 8)], [⟨0, 2, .rw, .live, 0⟩, ⟨2, 4, .rw, .live, 0⟩, ⟨8, 1, .w1c, .live, 0⟩]⟩,
   ⟨Reg.CO_MBEATS, [(262144, 8), (32768, 8), (2048, 8)], [⟨0, 16, .ro, .none, 0⟩, ⟨16, 16, .rc, .none, 0⟩]⟩,
   ⟨Reg.CO_SLACK, [(262144, 8), (32768, 8), (2048, 8)], [⟨0, 12, .rc, .none, 4095⟩]⟩,
   ⟨Reg.CO_TCTL, [(262144, 8), (32768, 8), (2048, 8), (64, 4)], [⟨0, 1, .wo, .live, 0⟩]⟩,
   ⟨Reg.CO_TSTS, [(262144, 8), (32768, 8), (2048, 8), (64, 4)], [⟨0, 3, .ro, .none, 0⟩]⟩,
   ⟨Reg.CO_XCAUSE, [(262144, 8), (32768, 8), (2048, 8), (64, 4)], [⟨0, 6, .ro, .none, 0⟩, ⟨6, 1, .ro, .none, 0⟩, ⟨7, 1, .ro, .none, 0⟩, ⟨8, 1, .ro, .none, 0⟩]⟩,
   ⟨Reg.CO_XADDR0_LO, [(262144, 8), (32768, 8), (2048, 8), (64, 4)], [⟨0, 32, .ro, .none, 0⟩]⟩,
   ⟨Reg.CO_XADDR0_HI, [(262144, 8), (32768, 8), (2048, 8), (64, 4)], [⟨0, 32, .ro, .none, 0⟩]⟩,
   ⟨Reg.CO_XADDR1_LO, [(262144, 8), (32768, 8), (2048, 8), (64, 4)], [⟨0, 32, .ro, .none, 0⟩]⟩,
   ⟨Reg.CO_XADDR1_HI, [(262144, 8), (32768, 8), (2048, 8), (64, 4)], [⟨0, 32, .ro, .none, 0⟩]⟩]

/-- The registers that may lie in the 64 KB page of an I/O address (02 R57). -/
def pageRegs (a : Nat) : List RegDesc :=
  match a / 0x10000 with
  | 0x00 => regsGL | 0x01 => regsLG | 0x02 => regsBW | 0x03 => regsTY | 0x04 => regsTB
  | 0x05 => regsCR | 0x06 => regsCR | 0x07 => regsLL | 0x08 => regsAS | 0x09 => regsTL
  | 0x0A => regsAT | 0x0B => regsPT | 0x0C => regsPO | 0x0D => regsPS | 0x0E => regsANX
  | p => if 0x10 ≤ p ∧ p < 0x18 then regsHQ
         else if 0x20 ≤ p ∧ p < 0x40 then
           (if a % 0x8000 < 0x4000 then regsCO else if 0x6000 ≤ a % 0x8000 then regsRG else [])
         else []

/-- Index offset of an address within an array of registers: `some i` where the address is element `i` (in elements,
row-major). -/
def matchDims (off : Nat) : List (Nat × Nat) → Option Nat
  | [] => if off = 0 then some 0 else none
  | (stride, count) :: rest =>
    if off / stride < count then
      (matchDims (off % stride) rest).map (fun i => (off / stride) * (rest.map (·.2)).prod + i)
    else none

/-- The register at a descriptor, with its element index. -/
def RegDesc.at (d : RegDesc) (a : Nat) : Option Nat :=
  if d.base ≤ a then matchDims (a - d.base) d.dims else none

/-- The register at an I/O address with its element index; `none` where no register lies (00 R10, 15 R460). -/
def findReg (a : Nat) : Option (RegDesc × Nat) :=
  (pageRegs a).findSome? (fun d => (d.at a).map (fun i => (d, i)))

/-- The word that the field tables' reset column gives a register. -/
def RegDesc.resetWord (d : RegDesc) : Word32 :=
  d.fields.foldl (fun w f => w ||| BitVec.ofNat 32 (f.reset % 2 ^ f.width * 2 ^ f.lo)) 0

/-- Reset values that depend on the index: CO_CTL.TEN of core (0, 0, 0) (04), CO_ID (04), TY_RCFG_p.BASE (11),
TL_CRED of target 11 (05), PO_SHARE_c (06), and RG_PSTS.STATE: regions 1 to 7 start Gated without retention (13 R415);
LL_PMSTS.NOMST with no strap high (12 R410); LL_RST_CAUSE after VIN_AON has come up and PORST_N was low (12 R401). -/
def resetOverride (d : RegDesc) (i : Nat) : Option Word32 :=
  if d.base = Reg.CO_CTL ∧ i = 0 then some 0x71#32
  else if d.base = Reg.CO_ID then some (BitVec.ofNat 32 i)
  else if d.base = Reg.TY_RCFG then some (BitVec.ofNat 32 (10 + 4 * i * 256))
  else if d.base = Reg.LL_PMSTS then some 1#32
  else if d.base = Reg.LL_RST_CAUSE then some 3#32
  else if d.base = Reg.RG_PSTS then some (if i = 0 then 0#32 else 4#32)
  else if d.base = Reg.TL_CRED ∧ i = 11 then some 0x020408#32
  else if d.base = Reg.PO_SHARE then
    some (match i with
      | 0 => BitVec.ofNat 32 (256 + 512 * 65536)
      | 1 => BitVec.ofNat 32 (2048 + 6144 * 65536)
      | 2 => BitVec.ofNat 32 (1024 + 6144 * 65536)
      | _ => BitVec.ofNat 32 (256 + 2048 * 65536))
  else none

/-- The reset value of the register at an I/O address; 0 where none lies. -/
def resetAt (a : Nat) : Word32 :=
  match findReg a with
  | some (d, i) => (resetOverride d i).getD d.resetWord
  | none => 0

end Sys2Proof.Machine
end

