-- ==== Sys2Proof/Machine/State.lean ====
section
/-! DEFINITION. The state of the VG-8410 as plain data, the reasons a step can stop, and the state after reset. -/

namespace Sys2Proof.Machine

/-- A sparse table: pairs of a key and a value, keys strictly rising. An unlisted key has a default of its own. -/
abbrev Tbl (α : Type) := List (Nat × α)

/-! ### Threads (02 R44 to R49, 04 R116) -/

/-- Thread states, as CO_TSTS.STATE numbers them (04 R116). -/
inductive TState where
  | disabled | ready | wait | farWait | halted | meteredIdle | meteredRun
  deriving DecidableEq, Repr

/-- A 32-byte mailbox header (06 R219), by its fields. -/
structure Header where
  fboff   : BitVec 32 := 0
  len     : BitVec 16 := 0
  port    : BitVec 3 := 0
  cls     : BitVec 2 := 0
  late    : Bool := false
  tagged  : Bool := false
  foreign : Bool := false
  noSess  : Bool := true
  inserted : Bool := false
  vlan    : Bool := false
  perr    : Bool := false
  session : BitVec 32 := 0xFFFFFFFF#32
  tagoff  : BitVec 16 := 0
  payoff  : BitVec 16 := 0
  rxts    : BitVec 64 := 0
  expiry  : BitVec 32 := 0
  tci     : BitVec 16 := 0
  node    : BitVec 8 := 0xFF#8
  deriving DecidableEq, Repr

/-- A claim slot of a thread (09 R309): the source, or the local timer, and for a message source its parts. -/
structure Claim where
  level : Nat
  src   : Nat
  lt    : Bool
  mbx   : Bool
  que   : Bool
  deriving DecidableEq, Repr

/-- A far-Annex request in flight (10 R348). -/
structure FarReq where
  tag    : BitVec 32
  rd     : BitVec 5
  sentAt : Nat
  deriving DecidableEq, Repr

/-- A host-window read that a thread waits for (10 R327): the command that made it, the address it asks for, and the
bytes that earlier reads of the same command brought. (log 18, DESIGN CHOICE) -/
structure HostRead where
  instr : Instr
  va    : Nat
  fn    : Nat
  pa    : Nat
  len   : Nat
  sentAt : Nat
  deriving DecidableEq, Repr

/-- What a thread's Attar sequencer holds (13 R423 to R425): whether a routine stands at a YIELD and where it goes on,
the micro-registers, the operands MASK, PC and IREG, the micro stack, the ALU's conditions, the fault of the last access,
whether the last remote TAS read a word that is not 0, entry by resume, and the step of the last YIELD. (log 7, DESIGN CHOICE) -/
structure Micro where
  live  : Bool := false
  addr  : Nat := 0
  u     : Vector (BitVec 64) 8 := Vector.replicate 8 0
  mask  : BitVec 64 := 0
  pc    : BitVec 64 := 0
  ireg  : BitVec 64 := 0
  stack : List Nat := []
  z     : Bool := false
  n     : Bool := false
  c     : Bool := false
  v     : Bool := false
  fault : Option Raise := none
  tas   : Bool := false
  resumed : Bool := false
  step  : Option Nat := none
  deriving DecidableEq, Repr

/-- One thread context. (log 7, DESIGN CHOICE) -/
structure Thread where
  regs   : Vector (BitVec 64) 32 := Vector.replicate 32 0
  pc     : BitVec 32 := 0
  st     : BitVec 32 := 0
  held   : BitVec 16 := 0
  vbase  : BitVec 32 := 0
  wtmo   : BitVec 32 := 0
  tstate : TState := .disabled
  /-- Elapsed ns at which the spin timer started (03 R83). -/
  spin   : Option Nat := none
  /-- Elapsed ns at which the thread entered WAIT, and whether by WAITE (03 R85, R86). -/
  waitAt : Option (Nat × Bool) := none
  /-- Headers of the mailbox, oldest first (06 R220). -/
  mailbox : List Header := []
  /-- The current message (03 R93). -/
  cur    : Option Header := none
  /-- The far-Annex request in flight (10 R348). -/
  far    : Option FarReq := none
  /-- The thread's far-Annex request count modulo 32 (10 R348). -/
  farSeq : BitVec 5 := 0
  claims : List Claim := []
  hostRd : Option HostRead := none
  /-- Bytes that host reads of the command in progress have brought, by data address; none where the read failed. -/
  hostGot : List (Nat × Option (BitVec 8)) := []
  /-- Taken branches that may engage the loop buffer on their next execution: branch word and target (04 R120). -/
  lbCand : List (BitVec 32 × BitVec 32) := []
  /-- The step at which an unfinished micro-routine goes on (04 R139, R140). -/
  resume : Option Nat := none
  /-- The word that has issued and waits for a region's wake or at an arbiter (04 R131; 05 R182), and whether the first
  half of its split store is performed (04 R127). -/
  waiting : Option Instr := none
  halfDone : Bool := false
  /-- Words that the fetch queue holds with contents that an ISTORE has since changed, by address (04 R123). -/
  fetchQ : Tbl (BitVec 32) := []
  micro  : Micro := {}
  deriving DecidableEq, Repr

/-! ### Cores -/

/-- A commit-buffer entry (08 R266). -/
structure CbEntry where
  kind : BitVec 4
  mask : BitVec 8
  addr : BitVec 48
  data : BitVec 64
  aux  : BitVec 16
  deriving DecidableEq, Repr

/-- An engaged loop buffer (04 R120, R121): the owner, the loop's first and last word, whether an ISTORE ends it
at the next loop branch, and the words captured, by address. -/
structure LoopBuf where
  owner : Nat
  first : BitVec 32
  last  : BitVec 32
  ending : Bool
  words : Tbl (BitVec 32) := []
  deriving DecidableEq, Repr

/-- A line of an instruction cache (05 R154, R156): the instruction address of its first word, the words it holds, by
their number in the line, and those of them with a parity error. -/
structure ILine where
  base  : Nat
  words : Tbl (BitVec 32) := []
  bad   : List Nat := []
  deriving DecidableEq, Repr

/-- A line of a data cache (05 R154, R155): the number of its first byte, and whether a byte of it has a parity error.
Its bytes are those of memory, than which R155 lets it never be older; so they have no second copy here. -/
structure DLine where
  base : Nat
  bad  : Bool := false
  deriving DecidableEq, Repr

/-- The caches of a core, each with the line used last in front (05 R154 to R157). (log 129, DESIGN CHOICE) -/
structure Caches where
  ilines : List ILine := []
  dlines : List DLine := []
  deriving DecidableEq, Repr

structure Core where
  lb     : Option LoopBuf := none
  /-- Elapsed ns at which the local timer expires (04 R138). -/
  ltimer : Option Nat := none
  cbuf   : List CbEntry := []
  /-- Granules of captured SC entries, by index of the entry, that another requester has stored to (08 R271). -/
  scHit  : List (Nat × Nat × Bool) := []
  /-- Beats of the run so far, and the declared B of the run (04 R147, R149). -/
  beats  : Nat := 0
  budget : Nat := 0
  /-- Beat count and signature at DONE (08 R268). -/
  doneAt : Option (Nat × BitVec 64) := none
  /-- Timebase value at the first beat boundary of the run, with what steps and sets have since added, the elapsed ns of that boundary, and the beats that overruns have waited (08 R269; 04 R148). -/
  runT0  : BitVec 64 := 0
  runAt  : Nat := 0
  late   : Nat := 0
  /-- The core is under an Assay test (08 R279). -/
  tested : Bool := false
  /-- A beat overrun of the word in progress has been counted (04 R148). -/
  overrun : Bool := false
  deriving DecidableEq, Repr

/-! ### Twin pairs (07 R243 to R253, 08 R268 to R275) -/

inductive PairPhase where
  | idle          -- Metered idle
  | dispatched    -- a header assigned, waiting for its beat boundary
  | running       -- both Twins run
  | stopped       -- a disagreement was found: both stop, restart or discard follows
  | releasing     -- the checks passed: the region-6 buffer is performed
  deriving DecidableEq, Repr

/-- A message that waits in the Prompt scheduler, or runs on a pair (07 R245). -/
structure PromptMsg where
  hdr    : Header
  group  : Nat
  since  : Nat      -- elapsed ns of its admission, or of its return to the queue (R248)
  rxAt   : Nat      -- elapsed ns of its last bit received
  deriving DecidableEq, Repr

structure Pair where
  phase  : PairPhase := .idle
  msg    : Option PromptMsg := none
  second : Bool := false
  /-- The disagreement found: kind 0 entry, 1 count, 2 signature, 3 timing; and the entry (08, AS_ACCLOG). -/
  disag  : Option (Nat × Nat) := none
  /-- Elapsed ns at which the last run's last beat ended. -/
  endAt  : Nat := 0
  dispAt : Nat := 0
  /-- The release has performed a SEND. -/
  sent   : Bool := false
  deriving DecidableEq, Repr

/-! ### Ports (06) -/

/-- Who queued an egress frame. -/
inductive TxSource where
  | thread (t : Nat)
  | accord (p : Nat)
  | queue (q : Nat)
  deriving DecidableEq, Repr

/-- A frame in an egress queue: data address of its first byte and its length (03 R94, 06 R225). (log 116, DEDUCED) -/
structure TxFrame where
  addr : Nat
  len  : Nat
  src  : TxSource
  at_  : Nat
  /-- For the first frame that an Accord releases: elapsed ns of the message's last bit and of the end of the run's last
  beat (07 R230, PS_RES; 11 R360). -/
  msg  : Option (Nat × Nat) := none
  deriving DecidableEq, Repr

/-- Log 50, DESIGN CHOICE. -/
structure Port where
  /-- The four egress queues, first frame first (06 R225). -/
  q0 : List TxFrame := []
  q1 : List TxFrame := []
  q2 : List TxFrame := []
  q3 : List TxFrame := []
  /-- What the shaper buckets of classes 1 to 3 hold, in 1/8000 byte, where an unlisted one is full; and the elapsed ns of the
  last fill (06 R226). -/
  tokens : Tbl Int := []
  tokAt : Nat := 0
  /-- Elapsed ns until which a frame over 2,048 bytes is in transmission (06 R227). -/
  longUntil : Nat := 0
  /-- Elapsed ns until which each priority is paused by the partner (06 R194). -/
  pausedUntil : Tbl Nat := []
  /-- Two-step timestamps: sequenceId and timestamp, oldest first (06 R192). -/
  twoStep : List (BitVec 16 × BitVec 64) := []
  /-- Pause frames with non-zero quanta are being sent (06 R193), and the elapsed ns of the last. -/
  pausing : Bool := false
  pauseAt : Nat := 0
  /-- Elapsed ns of recent uncorrectable codewords (06 R188). -/
  uncAt : List Nat := []
  /-- Uncorrectable codewords since the port's last lane check began (08 R279). -/
  laneErrs : Nat := 0
  deriving DecidableEq, Repr

/-- A frame held in managed cells of the frame buffer (06 R213): first cell, cells, class, and whether the frame was
freed while an egress queue still holds a frame to be read from its cells (06 R218). -/
structure Held where
  cell  : Nat
  cells : Nat
  cls   : Nat
  freed : Bool := false
  /-- Elapsed ns of the frame's last bit; none for a frame that the histograms do not measure (11 R360). -/
  rxAt  : Option Nat := none
  deriving DecidableEq, Repr

/-- A header in Porter's held store (06 R220). -/
structure HeldHdr where
  hdr    : Header
  thread : Nat
  deriving DecidableEq, Repr

/-- A frame received, which waits for its lookup at fabric target 8 or its write at target 9 while that is frozen (05 R182): its
port, bytes and timestamp, the cell that was offered, and the elapsed ns of its last bit. -/
structure Ingress where
  port  : Nat
  bytes : List (BitVec 8)
  rxts  : BitVec 64
  cell  : Nat
  rxAt  : Nat
  deriving DecidableEq, Repr

structure Porter where
  held   : List Held := []
  /-- Frames received that wait, in order. -/
  ingress : List Ingress := []
  /-- Headers that wait for mailbox room or for a region's wake, in order (06 R220, R223). -/
  store  : List HeldHdr := []
  deriving DecidableEq, Repr

/-! ### Prompt scheduler (07) -/

structure Prompt where
  /-- Waiting headers in arrival order (07 R245). -/
  waiting : List PromptMsg := []
  /-- Token buckets in 1/16000 token: the die, groups 0 to 15, ports 0 to 7, and the elapsed ns of the last fill. -/
  die     : Nat := 32 * 16000
  groups  : Tbl Nat := []
  portsB  : Tbl Nat := []
  tokAt   : Nat := 0
  /-- Buckets that ran empty and are not full again (07 R233 bit 0): die 0, group 1 + g, port 17 + p. -/
  empty   : List Nat := []
  /-- Slot number within the table frame, and the elapsed ps of the beat series' first boundary (04 R146). -/
  slot    : Nat := 0
  seriesAt : Nat := 0
  /-- Elapsed ns of the last event behind each condition bit (07 R233). -/
  lastBad : Tbl Nat := []
  /-- The last bank switch failed the seam rule (07 R250). -/
  seamBad : Bool := false
  /-- Registers of the PS group written since its last commit (07 R236). -/
  written : List Nat := []
  deriving DecidableEq, Repr

/-! ### Crier (09) -/

/-- What the Crier keeps for a source, or for one thread's part of a message source. -/
structure Src where
  /-- An edge event is pending, or the level source is pending (asserted and not claimed). -/
  pend    : Bool := false
  /-- A level source's assertion. -/
  asserted : Bool := false
  /-- Thread that holds the claim of a level source. -/
  claimed : Option Nat := none
  /-- The source was deasserted since its claim (09 R310). -/
  fell    : Bool := false
  /-- Events since the last delivery, and elapsed ns of the first held event (09 R304). -/
  cnt     : Nat := 0
  heldAt  : Option Nat := none
  /-- Moderation has let the event through. -/
  offered : Bool := false
  /-- A reroute of this event has been counted (09 R302). -/
  rerouted : Bool := false
  deriving DecidableEq, Repr

/-- An offer that stands at a thread although the Crier would now choose another or none, for its own THR or IL has since
changed; with its level, and the THR and IL it was made at (09 R306). -/
structure Standing where
  thread : Nat
  key    : Nat
  level  : Nat
  thr    : Nat
  il     : Nat
  deriving DecidableEq, Repr

structure Crier where
  /-- Sources 0 to 255 and 768 to 1023 by number; the part of thread t of a message source at 1024 + t. -/
  srcs : Tbl Src := []
  /-- QUE bits of message sources, by thread (09 R295). -/
  que  : List Nat := []
  /-- Offers kept to their thread's next boundary (09 R306). -/
  offers : List Standing := []
  /-- Events latched by the Lamplighter during Dark and the wake (09 R313). -/
  latched : List Nat := []
  /-- Elapsed ns of the last event of each source that crossed a bridge into clockless logic (12 R408, R409). -/
  crossed : Tbl Nat := []
  deriving DecidableEq, Repr

/-- A PMBus transaction: the rail it serves, 15 and `host` for one of LL_PMCMD (12 R410, R411). -/
structure PmTxn where
  host  : Bool
  rail  : Nat
  addr  : Nat
  page  : Nat
  read  : Bool
  cmd   : Nat
  len   : Nat
  data  : Nat
  pec   : Bool
  /-- ms to wait after it. -/
  delay : Nat
  deriving DecidableEq, Repr

/-! ### What leaves the device: the model's own record -/

/-- Attributes of a request on the host link (10 R328). -/
structure LinkAttr where
  noSnoop : Bool := false
  relaxed : Bool := false
  deriving DecidableEq, Repr

/-- Log 123, DESIGN CHOICE. -/
inductive Emit where
  | hostWrite (fn : Nat) (addr : Nat) (data : List (BitVec 8)) (attr : LinkAttr := {})
  | hostRead (fn : Nat) (addr : Nat) (len : Nat) (attr : LinkAttr := {})
  | msix (fn : Nat) (vector : Nat)
  | frame (port : Nat) (bytes : List (BitVec 8)) (inverted : Bool)
  | pfc (port : Nat) (prios : BitVec 8) (quanta : BitVec 16)
  | annex (vid : BitVec 16) (tag : BitVec 32) (payload : List (BitVec 32))
  | reply (rq : Requester) (a : Nat) (v : BitVec 32)
  | pmbus (txn : PmTxn)
  | ibi (code : BitVec 8)
  | i3c (data : List (BitVec 8))
  | jtag (bits : List Bool)
  | barData (fn : Nat) (data : List (BitVec 8)) (poisoned : Bool)
  | unsupported (fn : Nat)
  | config (fn : Nat) (off : Nat) (v : BitVec 32)
  | message (fn : Nat) (code : BitVec 8)
  deriving DecidableEq, Repr

/-! ### Host link and queues (10) -/

/-- One host function's configuration state (10 R319, R328, R344). -/
structure Func where
  bme     : Bool := false
  msixEn  : Bool := false
  msixMask : Bool := false
  tags    : BitVec 4 := 0
  cto     : BitVec 4 := 0
  relaxed : Bool := false
  d3      : Bool := false
  /-- Max_Payload_Size and Max_Read_Request_Size, as Device Control codes them: 128 bytes times 2 to this power. -/
  mps     : BitVec 3 := 0
  mrrs    : BitVec 3 := 2
  /-- Error reporting is enabled, and the uncorrectable errors that Advanced Error Reporting holds. -/
  errEn   : Bool := false
  aer     : BitVec 32 := 0
  deriving DecidableEq, Repr

/-- One MSI-X vector: table entry, pending bit and moderation (09 R314, R315). -/
structure Vec where
  addrLo : BitVec 32 := 0
  addrHi : BitVec 32 := 0
  data   : BitVec 32 := 0
  ctrl   : BitVec 32 := 1
  pend   : Bool := false
  cnt    : Nat := 0
  heldAt : Option Nat := none
  deriving DecidableEq, Repr

/-- A frame that waits for a host queue's engine (10 R334); for a Prompt frame, the CQ entries allotted at its
admission: the first index and its phase. -/
structure RxWait where
  hdr  : Header
  slot : Option (Nat × Bool) := none
  deriving DecidableEq, Repr

/-- What a descriptor's wait for room ended with (10 R338 step 2): the first cell allotted, the port and class of the place in an
egress queue, and whether a place of Porter's held store is taken. -/
structure Allotted where
  cell  : Nat
  tx    : Option (Nat × Nat) := none
  place : Bool := false
  deriving DecidableEq, Repr

/-- A post whose data is staged: the entries allotted to it, its STATUS, its INFO and its data, and how many Prompt frames of
the queue, with entries allotted before, are still to be sent (10 R335, R341, R345). -/
structure Staged where
  slot   : Nat × Bool
  status : Nat
  info   : List (BitVec 8)
  data   : List (BitVec 8)
  behind : Nat
  deriving DecidableEq, Repr

/-- What a host queue holds beside its registers. -/
structure HQ where
  phase  : Bool := true
  rx     : List RxWait := []
  /-- The SQ descriptor read and not yet finished, as its 64 bytes, and the STATUS that its check found (10 R338). -/
  desc   : Option (List (BitVec 8) × Nat) := none
  /-- An engine's read for this queue is outstanding, of its next descriptor or of its descriptor's data: the elapsed ns at which
  it was sent and the tags it holds (10 R338, R347). -/
  reading : Option (Nat × Nat) := none
  /-- What the descriptor was allotted (10 R338). -/
  got    : Option Allotted := none
  /-- The read has failed and the completion is still to be written (10 R322, R338). -/
  failed : Bool := false
  staged : List Staged := []
  deriving DecidableEq, Repr

/-- What waits for the link to leave L1, with the thread whose store it is (10 R322; 04 R118). -/
structure LinkReq where
  what   : Emit
  thread : Option Nat := none
  deriving DecidableEq, Repr

structure Link where
  /-- BAR requests that wait behind one for the frame buffer, which the freeze of fabric target 9 holds, in the order of their
  arrival (05 R182; 10 R326). -/
  bars     : List (FnId × BarRequest) := []
  /-- Requests made in L1, oldest first, and the elapsed ns at which the exit started (10 R322). -/
  held     : List LinkReq := []
  exitAt   : Option Nat := none
  /-- Failed attempts of the training or retraining in progress, and elapsed ns of the last change of state. -/
  attempts : Nat := 0
  since    : Nat := 0
  /-- Queues that stop and still finish a transfer, and those of them that a Function Level Reset stops (10 R344). -/
  stopping : List Nat := []
  flr      : List Nat := []
  deriving DecidableEq, Repr

/-! ### Tally and Timebase (11) -/

/-- One sub-ring: committed items not yet read, oldest first, each of eight words, and the read pointer's count. -/
structure SubRing where
  items : List (List (BitVec 32)) := []
  rp    : Nat := 0
  deriving DecidableEq, Repr

/-- A meter (11 R358, R359): its bucket in 1/125000 byte, the elapsed ns of the last fill, whether a class meter's CFG
word has been written, and the frames in excess and dropped since its last record. -/
structure Meter where
  level : Int := 0
  since : Nat := 0
  on    : Bool := false
  exc   : Nat := 0
  drops : Nat := 0
  deriving DecidableEq, Repr

/-- What the capture of a control escape keeps (11 R356): a capture not read yet, captures since the last record, and
the elapsed ns of that record. -/
structure Capture where
  unread : Bool := false
  merged : Nat := 0
  recAt  : Option Nat := none
  deriving DecidableEq, Repr

/-- What the ADC keeps for a channel (11 R354): sum and number of the conversions being averaged, and the side on which
the last result broke a limit (0 inside, 1 below LO, 2 above HI). -/
structure AdcChan where
  sum   : Nat := 0
  count : Nat := 0
  limit : Nat := 0
  deriving DecidableEq, Repr

structure Tally where
  rings  : Tbl SubRing := []
  /-- The reader is inside a record of this priority; items of it that an overwrite discarded (11 R365, R366). -/
  reader : Option Nat := none
  broken : Option Nat := none
  /-- Session meter m under m, class meter m under 1024 + m. -/
  meters : Tbl Meter := []
  /-- Live bins of the histograms (11 R360). -/
  hists  : Tbl (List Nat) := []
  caps   : Tbl Capture := []
  /-- What the ADC keeps of each channel, and the channel from which it looks for the next to convert (11 R354). -/
  adc    : Tbl AdcChan := []
  adcNext : Nat := 0
  /-- Elapsed ns of the last sensor record, ADC record and periodic snapshot, and of each meter's last record. -/
  sensorAt : Nat := 0
  adcRecAt : Nat := 0
  snapAt   : Nat := 0
  meterAt  : Tbl Nat := []
  deriving DecidableEq, Repr

/-- What the Lamplighter keeps of the Timebase through Dark (11 R378): the value, the crystal count, and the magnitude
of an abandoned slew. -/
structure Coast where
  value : BitVec 64
  frac  : BitVec 32
  count : BitVec 48
  slew  : Nat
  deriving DecidableEq, Repr

/-- What the next rising edge of the crystal does to the Timebase: nothing, saves it for Dark, or sets it at a wake (11 R378,
R379). -/
inductive EdgeWork where
  | nothing | save | set
  deriving DecidableEq, Repr

structure Timebase where
  now     : BitVec 64 := 0
  frac    : BitVec 32 := 0
  /-- Nanoseconds that the model's clock has run; steps and sets of the Timebase do not move it. -/
  elapsed : Nat := 0
  /-- Ticks of the slew's 100 ns per ms: the part of a ns that the slew has gained, in 1/10000 ns (11 R374). -/
  slewAcc : Nat := 0
  /-- Steps (false) and sets (true) held until the PLL locks, in the order written (11 R374). -/
  heldAct : List (Bool × BitVec 64) := []
  /-- Elapsed ns and capture of the last accepted PPS edge; rejected edges in a row; accepted edges within the lock
  limit in a row; the next edge is accepted as the first (11 R375). -/
  ppsAt   : Option Nat := none
  ppsCap  : BitVec 64 := 0
  ppsRej  : Nat := 0
  ppsGood : Nat := 0
  ppsFirst : Bool := true
  /-- The 48-bit crystal count, and the part of a tick gone, in 1/10^9 (12 R398). -/
  xtal    : BitVec 48 := 0
  xtalAcc : Nat := 0
  /-- Elapsed time, in 2^-32 ns, of the last crystal ticks under LOCKED, newest first: the next tick and the 32,768th before it
  bound what TB_XMEAS measures (11 R381). -/
  xmarks  : List Nat := []
  /-- What the next rising edge of the crystal does (11 R378, R379). -/
  onEdge  : EdgeWork := .nothing
  /-- Discipline has been established since PORST_N (11 R382). -/
  disciplined : Bool := false
  coast   : Option Coast := none
  deriving DecidableEq, Repr

/-- Levels at the escapes and pins that the device reads (11 R355; 12 R398; 13 R436); an escape that nothing drives has
the level of its pull (14, escape table). (log 2, DESIGN CHOICE; log 100, DESIGN CHOICE) -/
structure Pins where
  /-- Control escapes and WAKE escapes that are high. -/
  ceHigh   : List Nat := (List.range 32).map (64 + ·)
  wakeHigh : List Nat := []
  pmalertLow : Bool := false
  holdN    : Bool := true
  /-- BOOTSEL as last sampled (13 R420). -/
  bootsel  : Bool := false
  /-- PDC escapes that the board drives high. -/
  pdcHigh  : List Nat := [4, 5, 6, 7]
  deriving DecidableEq, Repr

/-! ### Assay (08) -/

/-- A fault that awaits its test or its verdict: unit, cause, the number of its log entry counted from reset, and the
elapsed ns of its test's start. (log 149, DEDUCED) -/
structure FaultRec where
  unit   : Nat
  cause  : Nat
  log    : Nat
  startedAt : Option Nat := none
  /-- For a pair, which of its two core tests comes next: 0 that of the region-6 core, 1 that of the other (08 R280). -/
  part   : Nat := 0
  deriving DecidableEq, Repr

structure Assay where
  /-- Log entries written since reset: entry n lies in AS_LOG of n modulo 32. -/
  count   : Nat := 0
  /-- Faults awaiting test, in order of detection (08 R288). -/
  queue   : List FaultRec := []
  /-- Tests that run (08 R280). -/
  running : List FaultRec := []
  /-- Units whose lasting verdict awaits the end of their retirement, with their log entry (08 R283). -/
  retiring : List FaultRec := []
  /-- Transient verdicts: unit and elapsed ns (08 R281). -/
  history : List (Nat × Nat) := []
  /-- The open window: elapsed ns of its opening and its length in ms (08 R286). -/
  window  : Option (Nat × Nat) := none
  /-- Units of the faults of the open window, with the verdict so far: 0 pending, 1 transient, 2 lasting. -/
  faults  : List (Nat × Nat) := []
  /-- The unit that caused Safe Hold (08 R292); and the cause of an entry whose first two steps are done and that waits for
  the Accord releases in progress (08 R290). -/
  holdUnit : Nat := 0
  entering : Option Nat := none
  /-- Spare rows used, and rows withdrawn, by bank as AS_SPIDX numbers it (08). -/
  spares  : Tbl Nat := []
  withdrawn : List Nat := []
  deriving DecidableEq, Repr

/-! ### Bellows (07) and Toll arbiters (05) -/

structure Bellows where
  /-- Evaluations in a row at which each Metered region could be lowered (07 R256). -/
  calm   : Tbl Nat := []
  /-- Regions shed, the last one shed first; elapsed ns of the last gating for the cap and of the last unshed; elapsed
  ns since which the power has stood 1 W below the cap (07 R261, R263). -/
  shed   : List Nat := []
  gatedAt : Option Nat := none
  unshedAt : Option Nat := none
  underAt : Option Nat := none
  /-- The shed list is exhausted and the power still exceeded the cap; elapsed ns of the last evaluation, and ns with
  CAPX at 1 short of a ms (07 R262). -/
  spent  : Bool := false
  evalAt : Option Nat := none
  capNs  : Nat := 0
  /-- Since the last evaluation: ns that the cores of each region were busy, summed over the cores (07 R259). At the last
  evaluation: the hottest reading of each region's sensors, in 1/8 degree (R256). -/
  busyNs : Tbl Nat := []
  hotPrev : Tbl Int := []
  /-- The setpoint that R259 asked for, of each Elastic region that was at least 85 % busy at its last evaluation; and the
  regions whose headroom is low (R265). -/
  asked  : Tbl Nat := []
  low    : List Nat := []
  deriving DecidableEq, Repr

/-- A request that waits at an input of an arbiter, with its class and the elapsed ns of its arrival (05 R174); the thread
that made it, if a thread did; and for a near-Annex operation its unit and the 64-byte steps left (05 R173, R185). -/
structure ArbWait where
  input : Nat
  cls   : Nat
  at_   : Nat
  thread : Option Nat := none
  unit  : Nat := 0
  steps : Nat := 1
  deriving DecidableEq, Repr

/-- A granted request whose response is outstanding; whether it holds an entry of the shared pool (05 R179). -/
structure ArbOut where
  input : Nat
  cls   : Nat
  pool  : Bool
  thread : Option Nat := none
  unit  : Nat := 0
  deriving DecidableEq, Repr

structure Arb where
  /-- In arrival order. -/
  waiting : List ArbWait := []
  out     : List ArbOut := []
  deriving DecidableEq, Repr

/-! ### Power (12) -/

/-- The instruction in the JTAG TAP (14 R441). -/
inductive JtagInstr where
  | bypass | idcode | sample | extest
  deriving DecidableEq, Repr

/-- Log 145, DESIGN CHOICE. -/
structure Power where
  /-- VIN_CORE and VIN_AON lie within their operating ranges (07 R233, condition SUPPLY). -/
  supplyOk : Bool := true
  /-- Gated regions whose wake has been asked for (12 R391). -/
  wakeReq  : List Nat := []
  /-- Elapsed ns since which each region has been Quiet (12 R389). -/
  quietAt  : Tbl Nat := []
  /-- Regions that enter Gated: elapsed ns of the start, and whether with retention (12 R389, R390). -/
  gating   : Tbl (Nat × Bool) := []
  /-- Regions that leave Gated: elapsed ns of the start, and whether from retention (12 R391). -/
  leaving  : Tbl (Nat × Bool) := []
  /-- Elapsed ns since which the device has been Banked (12 R385). -/
  bankedAt : Option Nat := none
  /-- Dark entry: 0 none, 1 drains (steps 1 and 2), 2 waits for L2 (steps 3 and 4), 3 closes (steps 5 to 9), and the
  elapsed ns at which that part began; the wake events latched meanwhile, by KIND and SRC (12 R393, R394). -/
  dkStep   : Nat := 0
  dkAt     : Nat := 0
  dkWake   : List (Nat × Nat) := []
  /-- Start of the supplies at boot or wake: 0 none, 1 waits for REG_READY, 2 waits for the PLLs, 3 the rails and the end
  of the wake, 4 waits 1 ms after a first failure; the elapsed ns at which that part began, and whether it is a wake
  (12 R399, R400; 13 R415); and the attempts of it that failed. -/
  upStep   : Nat := 1
  upAt     : Nat := 0
  upWake   : Bool := false
  upFails  : Nat := 0
  /-- Why FAULT_N is driven low: 1 shutdown, 2 failed wake, 3 ROM self-check (12 R397, R400; 13 R416). -/
  faults   : List Nat := []
  /-- What holds the die in reset: 0 PORST_N low, 1 WARMRST_N low, 2 the Lamplighter without its supply, 3 VIN_AON below
  1.62 V (12 R401; 13 R414). -/
  resetLow : List Nat := []
  /-- Elapsed ns since which each sensor has read above 135 degrees (12 R397). -/
  hotAt    : Tbl Nat := []
  /-- PMBus transactions of the rail sequences that wait, in order, the host's transaction that waits, the transaction in
  progress and its attempts that failed, and the rail whose DELAY runs, with the elapsed ns of its start and its ms
  (12 R410, R411). -/
  rails    : List PmTxn := []
  hostTxn  : Option PmTxn := none
  pmCur    : Option PmTxn := none
  tries    : Nat := 0
  delayAt  : Option (Nat × Nat) := none
  /-- Crystal count at which LL_ALARM last asserted source 23 (12 R398). -/
  alarmed  : Option Nat := none
  /-- The I3C dynamic address, whether the controller has enabled in-band interrupts (12 R404), and the offset that the last
  private transfer left (R405). -/
  dynAddr  : Option (BitVec 7) := none
  ibiOn    : Bool := true
  sideOff  : Nat := 0
  /-- The JTAG TAP's instruction and the boundary cells preloaded (14 R441). -/
  jtag     : JtagInstr := .idcode
  cells    : List Bool := []
  deriving DecidableEq, Repr

/-! ### Boot, Attar and the Ledger (13) -/

/-- What Tywetin fuses into the part, beside the fused registers (12 R404; 13 R418, R427). (log 1, DESIGN CHOICE) -/
structure Fuses where
  rootHash : List (BitVec 8) := []
  patchKey : List (BitVec 8) := []
  mipi     : BitVec 15 := 0
  deriving DecidableEq, Repr

structure Boot where
  /-- The memory clear of boot step 5 is under way (13 R415). -/
  clearing : Bool := false
  /-- A Ledger has been committed since the last reset or wake (13 R435, R436). -/
  committed : Bool := false
  deriving DecidableEq, Repr

/-- A record of a Ledger: its type, I/O address, COUNT and body (13, record types). -/
structure LedgerRec where
  ty    : Nat
  addr  : Nat
  count : Nat
  words : List (BitVec 32)
  deriving DecidableEq, Repr

/-- A Ledger in application or applied: the records not yet performed, words of the first one already written, its SEQ,
whether a write of it has been discarded, and the elapsed ns at which its WAIT record began (13 R431, R432). -/
structure Ledger where
  recs   : List LedgerRec := []
  done   : Nat := 0
  seq    : Nat := 0
  bad    : Bool := false
  waitAt : Option Nat := none
  deriving DecidableEq, Repr

/-- Patch RAM and hook table of an Attar copy, or of the master (13, "Attar microcode"). -/
structure AttarCopy where
  words : List (BitVec 32) := []
  hooks : List (BitVec 32) := []
  deriving DecidableEq, Repr

/-- Log 105, DESIGN CHOICE. -/
structure Attar where
  master : AttarCopy := {}
  copies : Tbl AttarCopy := []
  /-- Cluster copies still to be written, and the one in writing, with the reason: 0 its region left Gated, 1 a load,
  2 a reload (13 R427, R429, R430). -/
  todo    : Tbl Nat := []
  writing : Option (Nat × Nat) := none
  /-- AT_PLOAD has acted since the last reset (13 R427). -/
  acted   : Bool := false
  /-- The master holds an uncorrectable word (13 R430). -/
  bad     : Bool := false
  deriving DecidableEq, Repr

/-! ### The whole -/

/-- Log 6, DESIGN CHOICE; log 7, DESIGN CHOICE. -/
structure State where
  /-- Commands that wait, first in first out. -/
  pending : List Instr := []
  /-- On-die memories, by the physical numbers of `Ops.lean`; an unlisted byte reads 0. -/
  mem     : List Host.Cell := []
  /-- Protected words that hold a correctable or an uncorrectable error (05 R158, R159), by their first byte. -/
  eccC    : List Nat := []
  eccU    : List Nat := []
  /-- Registers: the value a read finds, and for fields of categories B and C the value in effect (00 R11). -/
  regs    : Tbl (BitVec 32) := []
  eff     : Tbl (BitVec 32) := []
  /-- Hold and snapshot registers of the pairs, by the address of _LO (00 R7). -/
  hold    : Tbl (BitVec 32) := []
  snap    : Tbl (BitVec 32) := []
  threads : Tbl Thread := []
  cores   : Tbl Core := []
  caches  : Tbl Caches := []
  /-- Reservations, oldest first: thread and 64-byte granule (05 R170 to R172). -/
  resvs   : List (Nat × Nat) := []
  pairs   : Tbl Pair := []
  ports   : Tbl Port := []
  porter  : Porter := {}
  prompt  : Prompt := {}
  crier   : Crier := {}
  funcs   : Tbl Func := []
  vecs    : Tbl Vec := []
  hqs     : Tbl HQ := []
  link    : Link := {}
  tally   : Tally := {}
  assay   : Assay := {}
  bellows : Bellows := {}
  arbs    : Tbl Arb := []
  power   : Power := {}
  fuses   : Fuses := {}
  boot    : Boot := {}
  ledger  : Ledger := {}
  attar   : Attar := {}
  tb      : Timebase := {}
  pins    : Pins := {}
  emitted : List Emit := []
  /-- Counter of the free values that the model has used (the model's own field). -/
  freeCtr : Nat := 0
  deriving DecidableEq, Repr

/-- Reasons a step stops with a fault. -/
inductive Fault where
  /-- Raised by no meaning: kept for the host's interface. Safe. -/
  | unreachable
  deriving DecidableEq, Repr

/-- Reasons a command is refused. -/
inductive Refusal where
  /-- Raised by an arm of exec whose command has no meaning yet. Safe: the machine stops. -/
  | notModelled (mnemonic : String)
  deriving DecidableEq, Repr

/-- The machine right after PORST_N is released, with no command waiting. -/
def State.reset : State := {}

end Sys2Proof.Machine
end

