-- ==== Sys2Proof/Machine/Ops.lean ====
section
/-! DEFINITION. The named operations over tables, bits, registers, threads and memory that every meaning is
written from. -/

namespace Sys2Proof.Machine

/-! ### Sparse tables -/

/-- The value listed under a key. -/
def tblGet {α : Type} : Tbl α → Nat → Option α
  | [], _ => none
  | (k, v) :: r, n => if k = n then some v else tblGet r n

/-- List a value under a key, keeping the keys strictly rising. -/
def tblPut {α : Type} : Tbl α → Nat → α → Tbl α
  | [], n, v => [(n, v)]
  | (k, w) :: r, n, v =>
    if n < k then (n, v) :: (k, w) :: r else if k = n then (n, v) :: r else (k, w) :: tblPut r n v

/-- Take a key out of a table. -/
def tblDel {α : Type} : Tbl α → Nat → Tbl α
  | [], _ => []
  | (k, w) :: r, n => if k = n then r else (k, w) :: tblDel r n

/-- Insert a number into a strictly rising list. -/
def setIns : List Nat → Nat → List Nat
  | [], n => [n]
  | k :: r, n => if n < k then n :: k :: r else if k = n then k :: r else k :: setIns r n

/-! ### Bits of a register word -/

/-- Field `[lo + n - 1 : lo]` of a word. -/
def bitsGet (w : Word32) (lo n : Nat) : Nat := w.toNat / 2 ^ lo % 2 ^ n

/-- A word with field `[lo + n - 1 : lo]` replaced. -/
def bitsSet (w : Word32) (lo n v : Nat) : Word32 :=
  BitVec.ofNat 32 (w.toNat - bitsGet w lo n * 2 ^ lo + v % 2 ^ n * 2 ^ lo)

/-- Bit `i` of a number. -/
def bitOf (v i : Nat) : Bool := v / 2 ^ i % 2 == 1

/-- 1 for true, 0 for false. -/
def b2n (b : Bool) : Nat := if b then 1 else 0

/-- The little-endian number that bytes spell (00 R2). -/
def leNat : List Byte → Nat
  | [] => 0
  | b :: r => b.toNat + 256 * leNat r

/-- The `n` low bytes of a number, least significant first (00 R2). -/
def leBytes : Nat → Nat → List Byte
  | 0, _ => []
  | n + 1, v => BitVec.ofNat 8 v :: leBytes n (v / 256)

/-- The big-endian number that bytes spell (network byte order). -/
def beNat (bs : List Byte) : Nat := bs.foldl (fun a b => a * 256 + b.toNat) 0

/-- The `n` low bytes of a number, most significant first. -/
def beBytes (n v : Nat) : List Byte := (leBytes n v).reverse

/-- A byte of a list, 0 beyond its end. -/
def byteAt (bs : List Byte) (i : Nat) : Byte := bs.getD i 0

/-- `n` bytes of a list from offset `i`. -/
def slice (bs : List Byte) (i n : Nat) : List Byte := (bs.drop i).take n

/-- `bs` with the bytes from offset `i` replaced. -/
def splice (bs : List Byte) (i : Nat) (new : List Byte) : List Byte :=
  bs.take i ++ new ++ bs.drop (i + new.length)

/-- Sign-extend the low `n` bits of a number to 64 bits. -/
def sextNat (n v : Nat) : Word :=
  BitVec.ofInt 64 (if bitOf v (n - 1) then (v % 2 ^ n : Int) - 2 ^ n else v % 2 ^ n)

/-! ### Numbers of the spec -/

/-- Base of the CO block of a core, less that of core 0 (02 R57). -/
def coOff (c : Nat) : Nat := c / 64 * 0x40000 + c / 8 % 8 * 0x8000 + c % 8 * 0x800

/-- Base of the thread registers of a thread, less those of thread 0. -/
def thOff (t : Nat) : Nat := coOff (t / 4) + t % 4 * 0x40

/-- Base of the RG block of a region, less that of region 0. -/
def rgOff (r : Nat) : Nat := r * 0x40000

/-- Base of the PT block of a port, less that of port 0. -/
def ptOff (p : Nat) : Nat := p * 0x2000

/-- The two cores of a Twin pair (01 R24). -/
def pairCores (p : Nat) : Nat × Nat := (6 * 64 + p, 7 * 64 + p)

/-- The pair that a core of region 6 or 7 belongs to. -/
def pairOf (c : Nat) : Option Nat := if 384 ≤ c ∧ c < 512 then some (c % 64) else none

/-! ### Registers -/

/-- What a read of a stored register finds. (log 2, DESIGN CHOICE) -/
def State.reg (s : State) (a : Nat) : Word32 := (tblGet s.regs a).getD (resetAt a)

/-- The value in effect of a register whose fields lag (00 R11). -/
def State.effReg (s : State) (a : Nat) : Word32 := (tblGet s.eff a).getD (resetAt a)

/-- Store a register's visible value. -/
def State.setReg (s : State) (a : Nat) (v : Word32) : State := { s with regs := tblPut s.regs a v }

/-- Store a register's value in effect. -/
def State.setEff (s : State) (a : Nat) (v : Word32) : State := { s with eff := tblPut s.eff a v }

/-- A field as a read finds it. -/
def State.get (s : State) (f : FieldRef) (off : Nat := 0) : Nat := bitsGet (s.reg (f.reg + off)) f.lo f.width

/-- A field's value in effect. -/
def State.cfg (s : State) (f : FieldRef) (off : Nat := 0) : Nat :=
  if f.lag then bitsGet (s.effReg (f.reg + off)) f.lo f.width else s.get f off

/-- The device sets a field. -/
def State.put (s : State) (f : FieldRef) (v : Nat) (off : Nat := 0) : State :=
  s.setReg (f.reg + off) (bitsSet (s.reg (f.reg + off)) f.lo f.width v)

/-- The device sets a field's value in effect. -/
def State.putEff (s : State) (f : FieldRef) (v : Nat) (off : Nat := 0) : State :=
  s.setEff (f.reg + off) (bitsSet (s.effReg (f.reg + off)) f.lo f.width v)

/-- A field read as a flag. -/
def State.flag (s : State) (f : FieldRef) (off : Nat := 0) : Bool := s.get f off == 1

/-- A field in effect read as a flag. -/
def State.on (s : State) (f : FieldRef) (off : Nat := 0) : Bool := s.cfg f off == 1

/-- Add to a counter field, which stops at its largest value. -/
def State.bump (s : State) (f : FieldRef) (n : Nat := 1) (off : Nat := 0) : State :=
  s.put f (min (s.get f off + n) (2 ^ f.width - 1)) off

/-! ### Parts of the state by number -/

/-- Thread 0 of core (0, 0, 0) is the steward (00, glossary). -/
def steward : Nat := 0

/-- A thread as PORST_N leaves it (04 R130, R136; 13): the steward runs the boot ROM, every other thread is
Disabled. (log 8, DESIGN CHOICE) -/
def Thread.initial (t : Nat) : Thread :=
  if t = steward then
    { st := 8#32, vbase := 0xFFFF0000#32, tstate := .ready, pc := Config.romWord 0 &&& 0xFFFFFFFC#32 }
  else {}

def State.thr (s : State) (t : Nat) : Thread := (tblGet s.threads t).getD (Thread.initial t)
def State.cacheOf (s : State) (c : Nat) : Caches := (tblGet s.caches c).getD {}
def State.core (s : State) (c : Nat) : Core := (tblGet s.cores c).getD {}
def State.pair (s : State) (p : Nat) : Pair := (tblGet s.pairs p).getD {}
def State.port (s : State) (p : Nat) : Port := (tblGet s.ports p).getD {}
def State.func (s : State) (f : Nat) : Func := (tblGet s.funcs f).getD {}
def State.vec (s : State) (q : Nat) : Vec := (tblGet s.vecs q).getD {}
def State.hq (s : State) (q : Nat) : HQ := (tblGet s.hqs q).getD {}

def State.setThr (s : State) (t : Nat) (x : Thread) : State := { s with threads := tblPut s.threads t x }
def State.setCore (s : State) (c : Nat) (x : Core) : State := { s with cores := tblPut s.cores c x }
def State.setCaches (s : State) (c : Nat) (x : Caches) : State := { s with caches := tblPut s.caches c x }
def State.setPair (s : State) (p : Nat) (x : Pair) : State := { s with pairs := tblPut s.pairs p x }
def State.setPort (s : State) (p : Nat) (x : Port) : State := { s with ports := tblPut s.ports p x }
def State.setFunc (s : State) (f : Nat) (x : Func) : State := { s with funcs := tblPut s.funcs f x }
def State.setVec (s : State) (q : Nat) (x : Vec) : State := { s with vecs := tblPut s.vecs q x }
def State.setHq (s : State) (q : Nat) (x : HQ) : State := { s with hqs := tblPut s.hqs q x }

def State.modThr (s : State) (t : Nat) (f : Thread → Thread) : State := s.setThr t (f (s.thr t))
def State.modCore (s : State) (c : Nat) (f : Core → Core) : State := s.setCore c (f (s.core c))
def State.modPair (s : State) (p : Nat) (f : Pair → Pair) : State := s.setPair p (f (s.pair p))
def State.modPort (s : State) (p : Nat) (f : Port → Port) : State := s.setPort p (f (s.port p))
def State.modFunc (s : State) (n : Nat) (f : Func → Func) : State := s.setFunc n (f (s.func n))
def State.modVec (s : State) (q : Nat) (f : Vec → Vec) : State := s.setVec q (f (s.vec q))
def State.modHq (s : State) (q : Nat) (f : HQ → HQ) : State := s.setHq q (f (s.hq q))

def State.modPorter (s : State) (f : Porter → Porter) : State := { s with porter := f s.porter }
def State.modPrompt (s : State) (f : Prompt → Prompt) : State := { s with prompt := f s.prompt }
def State.modCrier (s : State) (f : Crier → Crier) : State := { s with crier := f s.crier }
def State.modTally (s : State) (f : Tally → Tally) : State := { s with tally := f s.tally }
def State.modAssay (s : State) (f : Assay → Assay) : State := { s with assay := f s.assay }
def State.modPower (s : State) (f : Power → Power) : State := { s with power := f s.power }
def State.modBellows (s : State) (f : Bellows → Bellows) : State := { s with bellows := f s.bellows }
def State.modBoot (s : State) (f : Boot → Boot) : State := { s with boot := f s.boot }
def State.modAttar (s : State) (f : Attar → Attar) : State := { s with attar := f s.attar }
def State.modLedger (s : State) (f : Ledger → Ledger) : State := { s with ledger := f s.ledger }
def State.arb (s : State) (k : Nat) : Arb := (tblGet s.arbs k).getD {}
def State.setArb (s : State) (k : Nat) (x : Arb) : State := { s with arbs := tblPut s.arbs k x }
def State.modTb (s : State) (f : Timebase → Timebase) : State := { s with tb := f s.tb }
def State.modLink (s : State) (f : Link → Link) : State := { s with link := f s.link }

/-- Record what leaves the device. (log 123, DESIGN CHOICE) -/
def State.emit (s : State) (e : Emit) : State := { s with emitted := s.emitted ++ [e] }

/-- A free value, a fresh one at each use. (log 6, DESIGN CHOICE) -/
def State.free (s : State) : Word × State :=
  (Config.freeWord s.freeCtr, { s with freeCtr := s.freeCtr + 1 })

/-- Elapsed nanoseconds (11 R374). -/
def State.now (s : State) : Nat := s.tb.elapsed

/-- Fold an update over a list of numbers. -/
def foldN (s : State) (ns : List Nat) (f : State → Nat → State) : State := ns.foldl f s

/-! ### General registers and the status register -/

/-- A general register; g0 reads 0 (02 R44). -/
def Thread.get (th : Thread) (r : RegNo) : Word := if r = 0 then 0 else th.regs.get r.toFin

/-- Write a general register; a write to g0 is discarded (02 R44). -/
def Thread.set (th : Thread) (r : RegNo) (v : Word) : Thread :=
  if r = 0 then th else { th with regs := th.regs.set r.toNat v r.isLt }

/-- ST fields (02 R46). -/
def Thread.mode (th : Thread) : Bool := bitsGet th.st 0 1 == 1
def Thread.amode (th : Thread) : Bool := bitsGet th.st 1 1 == 1
def Thread.rankchk (th : Thread) : Bool := bitsGet th.st 2 1 == 1
def Thread.priv (th : Thread) : Bool := bitsGet th.st 3 1 == 1
def Thread.il (th : Thread) : Nat := bitsGet th.st 4 4
def Thread.mip (th : Thread) : Bool := bitsGet th.st 8 1 == 1
def Thread.mprog (th : Thread) : Nat := bitsGet th.st 12 12

def Thread.sp (th : Thread) : Word := th.get 30
def Thread.lk (th : Thread) : Word := th.get 31

def State.setPc (s : State) (t : Nat) (pc : Word32) : State := s.modThr t (fun th => { th with pc := pc })
def State.setG (s : State) (t : Nat) (r : RegNo) (v : Word) : State := s.modThr t (fun th => th.set r v)
def State.g (s : State) (t : Nat) (r : RegNo) : Word := (s.thr t).get r

/-! ### Memory: the bytes of every on-die memory under one number each

The global data addresses number the cluster memories, the Session Store and the frame buffer (02 R51). The SRAMs of
core n lie at 2^48 + n * 2^15 (data) and 2^49 + n * 2^15 (instructions), numbers of the model's own. -/

def dsramBase (c : Nat) : Nat := 0x1000000000000 + c * 0x8000
def isramBase (c : Nat) : Nat := 0x2000000000000 + c * 0x8000
def clusterBase (cl : Nat) : Nat := 0x1000000000 + cl / 8 * 0x2000000 + cl % 8 * 0x400000
def sessionBase : Nat := 0x2000000000
def frameBase : Nat := 0x3000000000

/-- The byte at an address; a byte never written reads 0 (13 R415). (log 3, DESIGN CHOICE) -/
def memGet : List Host.Cell → Nat → Byte
  | [], _ => 0
  | (k, v) :: r, a => if k = a then v else memGet r a

/-- Write a byte, keeping the canonical form: addresses strictly rising and no entry equal to 0. -/
def memPut : List Host.Cell → Nat → Byte → List Host.Cell
  | [], a, b => if b = 0 then [] else [(a, b)]
  | (k, v) :: r, a, b =>
    if a < k then (if b = 0 then (k, v) :: r else (a, b) :: (k, v) :: r)
    else if k = a then (if b = 0 then r else (a, b) :: r)
    else (k, v) :: memPut r a b

/-- The canonical form of memory. -/
def memWf : List Host.Cell → Bool
  | [] => true
  | [(_, v)] => v != 0
  | (k, v) :: (k', v') :: r => decide (k < k') && v != 0 && memWf ((k', v') :: r)

abbrev Memory.wf (m : List Host.Cell) : Prop := memWf m = true

/-- Log 3, DESIGN CHOICE. -/
def State.byte (s : State) (a : Nat) : Byte := memGet s.mem a

/-- `n` bytes from an address. -/
def State.bytes (s : State) (a : Nat) : Nat → List Byte
  | 0 => []
  | n + 1 => s.byte a :: s.bytes (a + 1) n

def memPutAll (m : List Host.Cell) (a : Nat) : List Byte → List Host.Cell
  | [] => m
  | b :: r => memPutAll (memPut m a b) (a + 1) r

/-- The aligned protected word that holds a byte: 4 bytes in an instruction SRAM, else 8 (05 R154). -/
def eccWord (a : Nat) : Nat := if 0x2000000000000 ≤ a then a / 4 * 4 else a / 8 * 8
def eccSize (a : Nat) : Nat := if 0x2000000000000 ≤ a then 4 else 8

/-- The protected words that `n` bytes from an address touch. -/
def wordsOf (a : Nat) : Nat → List Nat
  | 0 => []
  | n + 1 => (wordsOf a n) ++ (if (wordsOf a n).contains (eccWord (a + n)) then [] else [eccWord (a + n)])

/-- Whether `n` bytes from `a` cover the whole word at `w`. -/
def coversWord (a n w : Nat) : Bool := decide (a ≤ w) && decide (w + eccSize w ≤ a + n)

/-- The aligned 8-byte granule of an address, as the commit buffer takes it (08 R266). -/
def granule (a : Nat) : Nat := a / 8 * 8

/-- The aligned 64-byte granule of an address, as a reservation covers it (05 R170). -/
def resGranule (a : Nat) : Nat := a / 64 * 64

/-- A store to a 64-byte granule by a requester clears every other thread's reservation on it and marks the captured SC
entries of other cores (05 R171, 08 R271). `who` is the storing thread, or none for the device's own agents. -/
def State.noteStore (s : State) (who : Option Nat) (g : Nat) : State :=
  { s with
    resvs := s.resvs.filter (fun r => decide (r.2 ≠ g) || decide (some r.1 = who)),
    cores := s.cores.map (fun kc => (kc.1, { kc.2 with
      scHit := kc.2.scHit.map (fun e => (e.1, e.2.1,
        e.2.2 || (decide (e.2.1 = g) && decide (who ≠ some (kc.1 * 4))))) })) }

/-- The 8-byte granules that `n` bytes from an address touch. -/
def granulesOf (a : Nat) : Nat → List Nat
  | 0 => []
  | n + 1 => (granulesOf a n) ++
      (if (granulesOf a n).contains (granule (a + n)) then [] else [granule (a + n)])

/-- Data-cache lines that `n` bytes written from `a` by thread `who` invalidate: those of every core but its own, whose
line the store updates (05 R155). -/
def dropLines (cs : Tbl Caches) (who : Option Nat) (a n : Nat) : Tbl Caches :=
  cs.map (fun kc => if some kc.1 = who.map (· / 4) then kc
    else (kc.1, { kc.2 with dlines := kc.2.dlines.filter (fun l => decide (l.base + 64 ≤ a) || decide (a + n ≤ l.base)) }))

/-- Store bytes at a physical number: wholly written words lose any error mark (05 R160), lines that data caches hold
are invalidated (05 R155), and reservations of other requesters on the granules are cleared. (log 19, DEDUCED) -/
def State.store (s : State) (who : Option Nat) (a : Nat) (bs : List Byte) : State :=
  let s := { s with
    caches := dropLines s.caches who a bs.length,
    mem := memPutAll s.mem a bs,
    eccC := s.eccC.filter (fun w => !coversWord a bs.length w),
    eccU := s.eccU.filter (fun w => !coversWord a bs.length w) }
  ((granulesOf a bs.length).map resGranule).foldl (fun s g => s.noteStore who g) s

/-- Whether a word that `n` bytes from an address touch holds an uncorrectable error. -/
def State.badRead (s : State) (a n : Nat) : Bool :=
  !s.eccU.isEmpty && (wordsOf a n).any (fun w => s.eccU.contains w)

/-- Whether a store of `n` bytes would have to merge into an uncorrectable word (05 R160). -/
def State.badWrite (s : State) (a n : Nat) : Bool :=
  !s.eccU.isEmpty && (wordsOf a n).any (fun w => s.eccU.contains w && !coversWord a n w)

/-- The words with a correctable error that a read of `n` bytes meets (05 R158). -/
def State.corrIn (s : State) (a n : Nat) : List Nat :=
  if s.eccC.isEmpty then [] else (wordsOf a n).filter (fun w => s.eccC.contains w)

/-! ### Retirement and power states that other parts ask for -/

/-- The core is retired (01 R16, 08). -/
def State.coreRetired (s : State) (c : Nat) : Bool := bitOf (s.reg (Reg.AS_RETCORE + 4 * (c / 32))).toNat (c % 32)
/-- The cluster is retired. -/
def State.clusterRetired (s : State) (cl : Nat) : Bool := bitOf (s.reg (Reg.AS_RETCL + 4 * (cl / 32))).toNat (cl % 32)
/-- The region is retired. -/
def State.regionRetired (s : State) (r : Nat) : Bool := bitOf (s.reg Reg.AS_RETRG).toNat r
/-- The power state of a region, as RG_PSTS.STATE numbers it. -/
def State.pstate (s : State) (r : Nat) : Nat := s.get Fld.RG_PSTS_STATE (rgOff r)
/-- LL_STS.DSTATE (12 R383). -/
def State.dstate (s : State) : Nat := s.get Fld.LL_STS_DSTATE
/-- The die is supplied, out of reset and past boot step 3: its cores and blocks act (12 R383, R393; 13 R414, R415). -/
def State.dieOn (s : State) : Bool :=
  s.power.upStep == 0 && s.power.resetLow.isEmpty && s.power.dkStep != 3 && decide (3 ≤ s.dstate)
/-- Dark entry runs (12 R393). -/
def State.darkening (s : State) : Bool := s.power.dkStep != 0
/-- The Attar copy of a cluster is being written (13 R429). -/
def State.copyWriting (s : State) (cl : Nat) : Bool :=
  match s.attar.writing with
  | some w => w.1 == cl
  | none => false
/-- LG_BOOT.STATE and ERR (13 R415 to R422). -/
def State.bootState (s : State) (st err : Nat) : State := (s.put Fld.LG_BOOT_STATE st).put Fld.LG_BOOT_ERR err
/-- Regions 6 and 7 hold the Metered role (07 R239). -/
def State.meteredRole (s : State) : Bool := s.flag Fld.PS_STS_METERED
/-- The core belongs to a region in the Metered role. -/
def State.coreMetered (s : State) (c : Nat) : Bool := s.meteredRole && decide (384 ≤ c)

end Sys2Proof.Machine
end

