-- ==== Sys2Proof/Machine/Crier.lean ====
section
/-! DEFINITION. The Crier's events, moderation and choice of a thread (09_crier_interrupts.md R293 to R316). -/

namespace Sys2Proof.Machine

/-- Whether a source is level-triggered (09 R293, R294). -/
def isLevel (src : Nat) : Bool :=
  src == 5 || (decide (16 ≤ src) && decide (src ≤ 19)) || src == 24 || src == 25 ||
    (decide (128 ≤ src) && decide (src < 192)) || (decide (256 ≤ src) && decide (src < 768))

/-- Sources that are never asserted (09 R294). -/
def isReservedSrc (src : Nat) : Bool :=
  (decide (27 ≤ src) && decide (src ≤ 31)) || (decide (200 ≤ src) && decide (src ≤ 255)) || decide (1024 ≤ src)

/-- The key under which the Crier keeps thread `t`'s part of its core's message source (09 R295). -/
def msgKey (t : Nat) : Nat := 1024 + t

/-- The source number of a key. -/
def srcOf (key : Nat) : Nat := if 1024 ≤ key then 256 + (key - 1024) / 4 else key

def State.src (s : State) (key : Nat) : Src := (tblGet s.crier.srcs key).getD {}
def State.setSrc (s : State) (key : Nat) (x : Src) : State :=
  { s with crier := { s.crier with srcs := tblPut s.crier.srcs key x } }

/-- CR_SCFG and CR_SMOD fields of a key's source. -/
def State.srcLevel (s : State) (key : Nat) : Nat := s.cfg Fld.CR_SCFG_LEVEL (8 * srcOf key)
def State.srcGroup (s : State) (key : Nat) : Nat := s.cfg Fld.CR_SCFG_GROUP (8 * srcOf key)
def State.srcWake (s : State) (key : Nat) : Bool := s.on Fld.CR_SCFG_WAKE (8 * srcOf key)
def State.srcCnt (s : State) (key : Nat) : Nat := s.cfg Fld.CR_SMOD_CNT (8 * srcOf key)
def State.srcHold (s : State) (key : Nat) : Nat := s.cfg Fld.CR_SMOD_HOLD (8 * srcOf key)

/-- The link is usable (10 R322). -/
def State.linkUsable (s : State) : Bool :=
  s.get Fld.GL_LINK_STS_STATE == 2 || s.get Fld.GL_LINK_STS_STATE == 4

/-- Send on the host link; a request made in L1 starts the exit and is sent once the link is Active (10 R322). -/
def State.sendLink (s : State) (e : Emit) (thread : Option Nat := none) : State :=
  if s.get Fld.GL_LINK_STS_STATE = 4 then
    { s with link := { s.link with
        held := s.link.held ++ [{ what := e, thread := thread }], exitAt := s.link.exitAt <|> some s.tb.elapsed } }
  else s.emit e

/-- Pieces of `n` bytes from an address that cross no multiple of `size`: address and length of each. (log 67, PRESUMED) -/
def cuts (size : Nat) : Nat → Nat → Nat → List (Nat × Nat)
  | 0, _, _ => []
  | fuel + 1, a, n =>
    if n = 0 then [] else (a, min n (size - a % size)) :: cuts size fuel (a + min n (size - a % size)) (n - min n (size - a % size))

/-- Max_Payload_Size and Max_Read_Request_Size of a function, in bytes: at most 512 and 4,096 (10 R319). (log 67, PRESUMED) -/
def Func.payload (f : Func) : Nat := 128 * 2 ^ min 2 f.mps.toNat
def Func.request (f : Func) : Nat := 128 * 2 ^ min 5 f.mrrs.toNat

/-- Send bytes as posted writes of a function, none larger than its Max_Payload_Size (10 R319). -/
def State.sendWrite (s : State) (f a : Nat) (bs : List (BitVec 8)) (attr : LinkAttr := {}) (thread : Option Nat := none) : State :=
  (cuts (s.func f).payload bs.length a bs.length).foldl (fun s p =>
    s.sendLink (.hostWrite f p.1 (slice bs (p.1 - a) p.2) attr) (if p.1 = a then thread else none)) s

/-- The requests that a read of a function takes, none larger than its Max_Read_Request_Size (10 R319). -/
def State.readCuts (s : State) (f a n : Nat) : List (Nat × Nat) := cuts (s.func f).request n a n

/-- Send a read of `n` bytes. -/
def State.sendRead (s : State) (f a n : Nat) (attr : LinkAttr := {}) : State :=
  (s.readCuts f a n).foldl (fun s p => s.sendLink (.hostRead f p.1 p.2 attr)) s

/-- Send vector `q` now, or set its pending bit where it is masked or its function may not send (09 R314). (log 70, DEDUCED) -/
def State.msixSend (s : State) (q : Nat) : State :=
  let f := s.func (q / 2048)
  let v := s.vec q
  if v.ctrl.getLsbD 0 || !f.msixEn || f.msixMask || !f.bme || f.d3 || !s.linkUsable then
    s.setVec q { v with pend := true }
  else
    (s.setVec q { v with pend := false, cnt := 0, heldAt := none }).sendLink (.msix (q / 2048) (q % 2048))

/-- One event of a queue's vector, moderated by HQ_MOD (09 R315, 10 R343). -/
def State.msixEvent (s : State) (q : Nat) : State :=
  let cnt := s.cfg Fld.HQ_MOD_CNT (32 * q)
  let hold := s.cfg Fld.HQ_MOD_HOLD (32 * q)
  if cnt == 0 && hold == 0 then s.msixSend q
  else
    let v := s.vec q
    let v := { v with cnt := v.cnt + 1, heldAt := some (v.heldAt.getD s.now) }
    if cnt != 0 && decide (cnt ≤ v.cnt) then (s.setVec q { v with cnt := 0, heldAt := none }).msixSend q
    else s.setVec q v

/-- The held events of a vector are sent where a write of HQ_MOD leaves nothing to hold them (09 R315). -/
def State.msixRelease (s : State) (q : Nat) : State :=
  let cnt := s.cfg Fld.HQ_MOD_CNT (32 * q)
  let hold := s.cfg Fld.HQ_MOD_HOLD (32 * q)
  let v := s.vec q
  match v.heldAt with
  | none => s
  | some t =>
    if (cnt == 0 && hold == 0) || (cnt != 0 && decide (cnt ≤ v.cnt)) || (hold != 0 && decide (t + 64 * hold ≤ s.now)) then
      (s.setVec q { v with cnt := 0, heldAt := none }).msixSend q
    else s

/-- A notice of function `f`: a bit of CR_HNOTE_f and an unmoderated message of its vector 0 (09 R316). -/
def State.notice (s : State) (f : Nat) (bit : FieldRef) : State :=
  (s.put bit 1 (4 * f)).msixSend (2048 * f)

/-! ### The choice of a thread (09 R300 to R303) -/

/-- The region of a thread. -/
def regionOfThread (t : Nat) : Nat := t / 256

/-- The thread's core is asleep: its region is neither Active nor Quiet, an Assay test
holds the core, or the die is not running (09 R300). -/
def State.awake (s : State) (t : Nat) : Bool :=
  decide (s.pstate (regionOfThread t) ≤ 1) && !(s.core (t / 4)).tested && s.dieOn

/-- The thread's region is Gated, is entering Gated or is leaving it. -/
def State.gated (s : State) (r : Nat) : Bool :=
  decide (2 ≤ s.pstate r) && decide (s.pstate r ≤ 5)

/-- A thread may take an interrupt of level `v` (09 R298, R300). -/
def State.candidate (s : State) (v t : Nat) : Bool :=
  let th := s.thr t
  !s.coreRetired (t / 4) &&
  (th.tstate == .ready || th.tstate == .wait || (th.tstate == .farWait && s.on Fld.ANX_CTL_IWAIT)) &&
  !th.mode && decide (s.cfg Fld.CR_THR_THR (16 * t) < v) && decide (th.il < v)

/-- The set bits of a register word. -/
def wordBits (w : Word32) : List Nat := (List.range 32).filter (fun j => w.getLsbD j)

/-- The members of a routing group, in ascending order; threads of a retired core are none (01 R16). -/
def State.members (s : State) (g : Nat) : List Nat :=
  (s.regs.filter (fun kv => decide (Reg.CR_GRP + 256 * g ≤ kv.1) && decide (kv.1 < Reg.CR_GRP + 256 * g + 256))).flatMap
    (fun kv => ((wordBits kv.2).map (fun j => (kv.1 - (Reg.CR_GRP + 256 * g)) / 4 * 32 + j)).filter
      (fun t => !s.coreRetired (t / 4)))

/-- The thread of lowest IL in a list, the earliest among equals (09 R301). -/
def State.lowestIl (s : State) : List Nat → Option Nat
  | [] => none
  | t :: r =>
    match s.lowestIl r with
    | none => some t
    | some u => if (s.thr t).il ≤ (s.thr u).il then some t else some u

/-- What the Crier resolves for a source: a target thread, a region to wake, or neither; and whether the target is a
reroute. -/
structure Resolved where
  target : Option Nat := none
  wake   : Option Nat := none
  reroute : Bool := false
  deriving DecidableEq, Repr

/-- The thread that R301 chooses, awake or asleep. -/
def State.chosen (s : State) (key : Nat) : Option Nat :=
  if 1024 ≤ key then some (key - 1024)
  else s.lowestIl ((s.members (s.srcGroup key)).filter (s.candidate (s.srcLevel key)))

/-- The target of a pending source (09 R301 to R303). -/
def State.resolve (s : State) (key : Nat) : Resolved :=
  let v := s.srcLevel key
  if 1024 ≤ key then
    let t := key - 1024
    if !s.candidate v t then {}
    else if s.awake t then { target := some t }
    else if s.gated (regionOfThread t) && s.srcWake key then { wake := some (regionOfThread t) } else {}
  else
    let ms := s.members (s.srcGroup key)
    let cs := ms.filter (s.candidate v)
    match s.lowestIl cs with
    | none => {}
    | some t =>
      if s.awake t then { target := some t }
      else if s.srcWake key && s.gated (regionOfThread t) then { wake := some (regionOfThread t) }
      else match s.lowestIl (cs.filter s.awake) with
        | some u => { target := some u, reroute := true }
        | none =>
          if ms.any s.awake then {}
          else { wake := (ms.find? (fun t => s.gated (regionOfThread t))).map regionOfThread }

/-- Ask for the wake of a region that is Gated or enters it; one that leaves Gated already needs none (12 R391). -/
def State.askWake (s : State) (r : Nat) : State :=
  if 2 ≤ s.pstate r ∧ s.pstate r ≤ 4 then { s with power := { s.power with wakeReq := setIns s.power.wakeReq r } } else s

/-- The Crier asks for a region's wake; each wake asked for is counted (09 R302). -/
def State.crierWake (s : State) (r : Nat) : State :=
  if s.power.wakeReq.contains r || s.pstate r == 5 then s else (s.askWake r).bump Fld.CR_CNT_WAKE_COUNT

/-- Whether moderation lets a source's events through at once (09 R304). -/
def State.unmoderated (s : State) (key : Nat) : Bool := s.srcCnt key == 0 && s.srcHold key == 0

/-- The thread that R301 to R303 would choose now is in WAIT (09 R304, third condition). -/
def State.chosenWaits (s : State) (key : Nat) : Bool :=
  match (s.resolve key).target, s.chosen key with
  | some t, _ => (s.thr t).tstate == .wait
  | none, some t => (s.thr t).tstate == .wait
  | none, none => false

/-- Look at a pending source again: end its hold where R304 says so, count a reroute once, ask for a wake. -/
def State.rescan (s : State) (key : Nat) : State :=
  let x := s.src key
  if !x.pend then s
  else
    let out := x.offered || s.unmoderated key ||
      (s.srcCnt key != 0 && decide (s.srcCnt key ≤ x.cnt)) ||
      (s.srcHold key != 0 && decide (x.heldAt.getD s.now + s.srcHold key * 64 ≤ s.now)) || s.chosenWaits key
    let r := s.resolve key
    let s1 := s.setSrc key { x with offered := out, rerouted := x.rerouted || r.reroute }
    let s2 := if r.reroute && !x.rerouted then s1.bump Fld.CR_CNT_REROUTE_COUNT else s1
    match r.wake with
    | some rg => if out then s2.crierWake rg else s2
    | none => s2

/-- A standing offer is kept: with the THR and IL at which it was made, its thread would still be chosen. Another change of the
resolution withdraws it; and where the thread would be chosen as it now stands, it is an offer like any other (09 R306). -/
def State.stands (s : State) (o : Standing) : Bool :=
  let s0 := (s.modThr o.thread (fun th => { th with st := bitsSet th.st 4 4 o.il })).put Fld.CR_THR_THR o.thr (16 * o.thread)
  (s.src o.key).pend && (s0.resolve o.key).target == some o.thread && (s.resolve o.key).target != some o.thread

/-- Look at every pending source again (09 R306). -/
def State.crierScan (s : State) : State :=
  let s := if s.crier.offers.isEmpty then s else s.modCrier (fun c => { c with offers := c.offers.filter s.stands })
  (s.crier.srcs.filter (fun kv => kv.2.pend)).foldl (fun s kv => s.rescan kv.1) s

/-- Count one event of a pending source (09 R304). -/
def State.countEvent (s : State) (key : Nat) : State :=
  let x := s.src key
  (s.setSrc key { x with pend := true, cnt := x.cnt + 1, heldAt := some (x.heldAt.getD s.now) }).rescan key

/-- A device source's notice toward the host (09 R316). -/
def State.devNotice (s : State) (src : Nat) : State :=
  if src < 256 && s.on Fld.CR_SCFG_HNOTE (8 * src) then s.notice 0 Fld.CR_HNOTE_DEVEVT else s

/-- The bridge that a source's events cross into clockless logic, as GL_BROVR numbers it, and the ns at which two of them
never merge (12 R408). (log 89, DEDUCED) -/
def bridgeOf (src : Nat) : Option (Nat × Nat) :=
  if 8 ≤ src ∧ src ≤ 15 then some (src - 8, 10)
  else if src = 26 then some (8, 10)
  else if src = 21 ∨ src = 22 then some (9, 10)
  else if 32 ≤ src ∧ src < 128 then some (10, 10)
  else if 192 ≤ src ∧ src < 200 then some (13, 100000)
  else none

/-- Two events merged in a bridge: its flag is set while GL_CTL.QUIET is 0 and its unit is not under test (12 R409). (log 89, DEDUCED) -/
def State.mergedIn (s : State) (b : Nat) : State :=
  if s.flag Fld.GL_CTL_QUIET || (decide (b < 8) && s.assay.running.any (fun f => f.unit == 9 * 2 ^ 28 + b)) then s
  else s.put Fld.GL_BROVR_OVR (s.get Fld.GL_BROVR_OVR ||| 2 ^ b)

/-- Whether an event of a source arrives behind its bridge. Where it follows the source's last event closer than the
bridge's spacing, whether the two merge is open. (log 89, DEDUCED) -/
def State.arrives (s : State) (src : Nat) : Bool × State :=
  match bridgeOf src with
  | none => (true, s)
  | some (b, ns) =>
    let close := match tblGet s.crier.crossed src with
      | some t => decide (s.now < t + ns)
      | none => false
    let s := s.modCrier (fun c => { c with crossed := tblPut c.crossed src s.now })
    if close then
      let r := s.free
      if r.1.getLsbD 0 then (false, r.2.mergedIn b) else (true, r.2)
    else (true, s)

/-- An event of an edge source (09 R297). -/
def State.edge (s : State) (src : Nat) : State :=
  if isReservedSrc src then s
  else
    let s := s.devNotice src
    let s := if (s.src src).pend then s.bump Fld.CR_CNT_MERGE_COUNT else s
    s.countEvent src

/-- An event of an edge source of a clocked domain, which crosses a bridge (09 R297; 12 R409). -/
def State.edgeIn (s : State) (src : Nat) : State :=
  let r := s.arrives src
  if r.1 then r.2.edge src else r.2

/-- Withdraw a pending source (09 R296; a level source that is deasserted). Its events since the last delivery stay counted
(09 R304). -/
def State.withdraw (s : State) (key : Nat) : State :=
  let x := s.src key
  (s.setSrc key { x with pend := false, heldAt := none, offered := false, rerouted := false }).modCrier
    (fun c => { c with offers := c.offers.filter (fun o => o.key != key) })

/-- A source is delivered: it is no longer pending, and its events count anew (09 R304, R308). -/
def State.delivered (s : State) (key : Nat) : State :=
  let s := s.withdraw key
  s.setSrc key { (s.src key) with cnt := 0 }

/-- A level source's assertion becomes `on` (09 R304, R308, R310). -/
def State.level (s : State) (key : Nat) (on : Bool) : State :=
  let x := s.src key
  if on == x.asserted then s
  else if on then
    let s := s.setSrc key { x with asserted := true }
    let s := s.devNotice (srcOf key)
    if x.claimed.isSome then s else s.countEvent key
  else
    let s := s.setSrc key { x with asserted := false, fell := x.claimed.isSome || x.fell }
    if x.claimed.isSome then s else s.withdraw key

/-! ### Message sources (09 R295) -/

/-- MBX or QUE of a thread is 1. -/
def State.msgAsserted (s : State) (t : Nat) : Bool := !(s.thr t).mailbox.isEmpty || s.crier.que.contains t

/-- A header entered the mailbox of a thread, or its QUE bit was set: one event of its message source. -/
def State.msgEvent (s : State) (t : Nat) : State :=
  let x := s.src (msgKey t)
  let s := s.setSrc (msgKey t) { x with asserted := true }
  if x.claimed.isSome then s else s.countEvent (msgKey t)

/-- Headers left the mailbox, or QUE was cleared: bring the assertion up to date. -/
def State.msgRefresh (s : State) (t : Nat) : State :=
  if s.msgAsserted t then s else s.level (msgKey t) false

/-- Set QUE of a thread (09 R295, 10 R339). -/
def State.setQue (s : State) (t : Nat) : State :=
  ({ s with crier := { s.crier with que := setIns s.crier.que t } }).msgEvent t

/-! ### Claims (09 R308 to R312) -/

/-- End the claim of a level source that thread `t` holds: if it is still asserted it becomes pending as a new event,
and a source that fell and is still low counts as spurious where `complete` says that software wrote it (09 R310). -/
def State.endClaim (s : State) (key t : Nat) (complete : Bool) : State :=
  let x := s.src key
  if x.claimed ≠ some t then s
  else
    let s := s.setSrc key { x with
      claimed := none, fell := false, pend := false, cnt := 0, heldAt := none, offered := false, rerouted := false }
    if x.asserted then s.countEvent key
    else if complete && x.fell then s.bump Fld.CR_CNT_SPUR_COUNT else s

/-- Release every claim of a thread (09 R312). -/
def State.releaseClaims (s : State) (t : Nat) : State :=
  (s.crier.srcs.filter (fun kv => kv.2.claimed == some t)).foldl (fun s kv => s.endClaim kv.1 t false) s

/-- The key that a source number names for a thread: its own part of its core's message source, or the source. -/
def claimKey (src t : Nat) : Nat := if 256 ≤ src ∧ src < 768 then msgKey t else src

/-- The claim slot of a thread at its current IL, as CR_MYCLAIM and CR_TCLAIM read it (09 R309). -/
def State.claimWord (s : State) (t : Nat) : Word32 :=
  let th := s.thr t
  match th.claims.find? (fun c => c.level == th.il && th.il != 0) with
  | none => 0
  | some c => BitVec.ofNat 32 (c.src + c.level * 2 ^ 10 + b2n c.lt * 2 ^ 14 + b2n c.mbx * 2 ^ 16 +
      b2n c.que * 2 ^ 17 + 2 ^ 31)

/-! ### The best interrupt for a thread (09 R299) -/

/-- An interrupt that can enter at a thread: its level and its key, or the local timer. -/
structure Deliverable where
  level : Nat
  key   : Option Nat
  deriving DecidableEq, Repr

/-- The better of two: the higher level, then the first. -/
def better (a : Option Deliverable) (b : Deliverable) : Option Deliverable :=
  match a with
  | none => some b
  | some x => if x.level < b.level then some b else some x

/-- The thread that a source is offered to: the one at which its offer stands, where that still admits it, or the one that
R301 to R303 resolve. -/
def State.offeredAt (s : State) (key : Nat) : Option Nat :=
  match s.crier.offers.find? (fun o => o.key == key && s.stands o) with
  | some o => if s.candidate o.level o.thread then some o.thread else none
  | none => (s.resolve key).target

/-- Pending sources whose target is the thread. Keys of message parts lie above every source number, so the lowest
number among equals is looked for by the source number. -/
def State.offersTo (s : State) (t : Nat) : List Deliverable :=
  let ks := (s.crier.srcs.filter (fun kv => kv.2.pend && kv.2.claimed.isNone &&
    (kv.2.offered || s.unmoderated kv.1 || s.chosenWaits kv.1) && s.offeredAt kv.1 == some t)).map (·.1)
  let low := ks.filter (· < 256)
  let msg := ks.filter (1024 ≤ ·)
  let sw := ks.filter (fun k => decide (256 ≤ k) && decide (k < 1024))
  (low ++ msg ++ sw).map (fun k => ⟨s.srcLevel k, some k⟩)

/-- The local timer's offer to a thread (04 R138). -/
def State.timerOffer (s : State) (t : Nat) : Option Deliverable :=
  let c := t / 4
  let v := s.cfg Fld.CO_LTCTL_LEVEL (coOff c)
  if s.flag Fld.CO_LTCTL_PEND (coOff c) && s.cfg Fld.CO_LTCTL_THREAD (coOff c) == t % 4 && s.awake t &&
    s.candidate v t then some ⟨v, none⟩ else none

/-- The interrupt that the Crier offers to a thread, if any (09 R299). -/
def State.bestOffer (s : State) (t : Nat) : Option Deliverable :=
  let a := (s.offersTo t).foldl better none
  match s.timerOffer t with
  | some d => better a d
  | none => a

end Sys2Proof.Machine
end

