-- ==== Sys2Proof/Machine/TallyRing.lean ====
section
/-! DEFINITION. The Tally ring: how the device writes a record (11_tally_and_timebase.md R361 to R371). -/

namespace Sys2Proof.Machine

def State.ring (s : State) (p : Nat) : SubRing := (tblGet s.tally.rings p).getD {}

/-- Items a sub-ring can hold: 2^LOG2 (11 R361). -/
def State.ringSize (s : State) (p : Nat) : Nat := 2 ^ s.cfg Fld.TY_RCFG_LOG2 (4 * p)

/-- Sub-ring `p` is enabled. -/
def State.ringOn (s : State) (p : Nat) : Bool := bitOf (s.get Fld.TY_CTL_EN) p

/-- Bring TY_LVL_p and Crier source 16 + p up to date (11 R371). -/
def State.ringLevel (s : State) (p : Nat) : State :=
  let n := (s.ring p).items.length
  let thr := s.cfg Fld.TY_RCFG_THR (4 * p)
  (s.put Fld.TY_LVL_ITEMS n (4 * p)).level (16 + p) (thr != 0 && decide (thr ≤ n))

def State.setRing (s : State) (p : Nat) (r : SubRing) : State :=
  { s with tally := { s.tally with rings := tblPut s.tally.rings p r } }

/-- FIRST, LAST bits of an item's header word (11 R362). -/
def itemFirst (it : List Word32) : Bool := bitsGet (it.headD 0) 0 1 == 1
def itemLast (it : List Word32) : Bool := bitsGet (it.headD 0) 1 1 == 1

/-- Items of the oldest record from the read pointer on: up to and including its LAST item. -/
def oldestLen : List (List Word32) → Nat
  | [] => 0
  | it :: r => if itemLast it then 1 else 1 + oldestLen r

/-- Count items lost and assert source 20 (11 R364, R294). -/
def State.ringLost (s : State) (p n : Nat) : State :=
  if n = 0 then s else (s.bump Fld.TY_LOST_COUNT n (4 * p)).edge 20

/-- Discard the oldest record of a sub-ring, or the unread rest of the one the reader is inside (11 R364, R366). -/
def State.ringDiscard (s : State) (p : Nat) : State :=
  let r := s.ring p
  let n := oldestLen r.items
  let inside := s.tally.reader == some p && s.tally.broken.isNone && !(r.items.head?.map itemFirst).getD true
  let s := s.setRing p { r with items := r.items.drop n, rp := r.rp + n }
  let s := if inside then { s with tally := { s.tally with broken := some n } } else s
  s.ringLost p n

/-- Write one item: a full sub-ring first discards its oldest record. `extra` is how many items of the record in
writing stand before this one. -/
def State.ringItem (s : State) (p : Nat) (extra : List (List Word32)) (it : List Word32) :
    State × List (List Word32) :=
  let s := if s.ringSize p ≤ (s.ring p).items.length + extra.length then s.ringDiscard p else s
  (s, extra ++ [it])

/-- Write the items of one record, and commit them together (11 R363). -/
def State.ringItems (s : State) (p : Nat) (its : List (List Word32)) : State :=
  let r := its.foldl (fun (acc : State × List (List Word32)) it => acc.1.ringItem p acc.2 it) (s, [])
  let ring := r.1.ring p
  (r.1.setRing p { ring with items := ring.items ++ r.2 }).ringLevel p

/-- The header word of an item (11 R362). -/
def itemHeader (p ty n i : Nat) : Word32 :=
  BitVec.ofNat 32 (b2n (i == 0) + 2 * b2n (i + 1 == n) + 8 * p + 128 + ty * 256 + n * 65536 + i * 16777216)

/-- The `n` words that little-endian bytes spell. -/
def wordsOfBytes : Nat → List Byte → List Word32
  | 0, _ => []
  | n + 1, bs => BitVec.ofNat 32 (leNat (bs.take 4)) :: wordsOfBytes n (bs.drop 4)

/-- The items of a record: `n` items with the bytes of its body in turn (11 R362). -/
def recordItems (p ty n : Nat) (body : List Byte) : List (List Word32) :=
  (List.range n).map (fun i => itemHeader p ty n i :: wordsOfBytes 7 (body.drop (28 * i)))

/-- The routing nibble of a device record type: enable and sub-ring (11 R370, TY_TPRI0 and TY_TPRI1). -/
def State.route (s : State) (ty : Nat) : Bool × Nat :=
  let k := if ty < 0x10 then ty - 1 else ty - 0x10 + 6
  let nib := if k < 8 then bitsGet (s.reg Reg.TY_TPRI0) (4 * k) 3 else bitsGet (s.reg Reg.TY_TPRI1) (4 * (k - 8)) 3
  (bitOf nib 2, nib % 4)

/-- The device writes a record of type `ty` in `n` items, with the body that follows TS (11 R370). -/
def State.record (s : State) (ty n : Nat) (body : List Byte) : State :=
  let r := s.route ty
  if !r.1 then s
  else if !s.ringOn r.2 then s.ringLost r.2 n
  else s.ringItems r.2 (recordItems r.2 ty n (leBytes 8 s.tb.now.toNat ++ body))

/-! ### Latency histograms (11 R360) -/

/-- The live bins of a histogram. -/
def State.liveBins (s : State) (h : Nat) : List Nat := (tblGet s.tally.hists h).getD (List.replicate 32 0)

/-- log2 of the width of a bin. -/
def State.histShift (s : State) (h : Nat) : Nat := min 20 (s.get Fld.TY_HCFG_SHIFT (4 * h))

/-- Count one measurement of `ns` nanoseconds. -/
def State.histAdd (s : State) (h ns : Nat) : State :=
  if s.flag Fld.TY_HCFG_EN (4 * h) then
    let k := min 31 (ns / 2 ^ s.histShift h)
    let bins := s.liveBins h
    s.modTally (fun x => { x with hists := tblPut x.hists h (bins.set k (min 0xFFFFFFFF (bins.getD k 0 + 1))) })
  else s

end Sys2Proof.Machine
end

