-- ==== Sys2Proof/Machine/Report.lean ====
section
/-! DEFINITION. Errors reported to the Assay: the fault log, the recovery window, overlapping faults and entry to
Safe Hold (08_accord_and_assay.md R277 to R290). -/

namespace Sys2Proof.Machine

/-! ### Unit codes (08 R277) -/

def unitClass (u : Nat) : Nat := u / 2 ^ 28
def unitIndex (u : Nat) : Nat := u % 2 ^ 28
def unitCore (c : Nat) : Nat := c
def unitOf (cls i : Nat) : Nat := cls * 2 ^ 28 + i

/-- The unit code of the memory row that holds a physical number (05 R154 gives the banks and their interleave). -/
def rowUnit (a : Nat) : Nat :=
  if 0x2000000000000 ≤ a then
    unitOf 7 ((a - 0x2000000000000) / 0x8000 + (a % 0x8000 / 512) * 512)
  else if 0x1000000000000 ≤ a then
    unitOf 8 ((a - 0x1000000000000) / 0x8000 + (a % 0x8000 / 512) * 512)
  else if frameBase ≤ a then
    let o := a - frameBase
    unitOf 6 (o / 64 % 64 + (o / 4096 * 64 + o % 64) / 512 * 64)
  else if sessionBase ≤ a then
    let o := a - sessionBase
    unitOf 5 (o / 256 % 64 + (o / 16384 * 256 + o % 256) / 512 * 64)
  else
    let o := a - clusterBase 0
    let cl := o / 0x2000000 * 8 + o % 0x2000000 / 0x400000
    let w := o % 0x400000
    unitOf 4 (cl + (w / 64 % 4) * 64 + (w / 256 * 64 + w % 64) / 512 * 256)

/-- The word of its row that holds a physical number: 64-bit words, 32-bit words in an instruction SRAM. -/
def rowWord (a : Nat) : Nat :=
  if 0x2000000000000 ≤ a then a % 512 / 4
  else if 0x1000000000000 ≤ a then a % 512 / 8
  else if frameBase ≤ a then ((a - frameBase) / 4096 * 64 + (a - frameBase) % 64) % 512 / 8
  else if sessionBase ≤ a then ((a - sessionBase) / 16384 * 256 + (a - sessionBase) % 256) % 512 / 8
  else ((a - clusterBase 0) % 0x400000 / 256 * 64 + (a - clusterBase 0) % 64) % 512 / 8

/-- The die blocks that have no spare: fabric, Crier, Porter, Lamplighter, Timebase (08 R287). -/
def isSharedBlock (u : Nat) : Bool := decide (10 ≤ unitClass u) && decide (unitClass u ≤ 14)

/-- The region that a unit lies in, if it lies in one. -/
def unitRegion (u : Nat) : Option Nat :=
  match unitClass u with
  | 0 => some (unitIndex u % 512 / 64)
  | 1 => some (unitIndex u % 64 / 8)
  | 2 => some (unitIndex u % 8)
  | 3 => some (unitIndex u % 8)
  | 4 => some (unitIndex u % 64 / 8)
  | 7 => some (unitIndex u % 512 / 64)
  | 8 => some (unitIndex u % 512 / 64)
  | 15 => some 6
  | _ => none

/-- What a lasting verdict on the unit would retire holds the steward core (08 R285): core (0, 0, 0), cluster (0, 0)
or region 0. -/
def holdsSteward (u : Nat) : Bool :=
  match unitClass u with
  | 0 => unitIndex u % 512 == 0
  | 1 => unitIndex u % 64 == 0
  | 2 => unitIndex u % 8 == 0
  | 3 => unitIndex u % 8 == 0
  | 7 => unitIndex u % 512 == 0
  | 8 => unitIndex u % 512 == 0
  | _ => false

/-- The two units are the same for R287: equal, or a core and the pair that holds it. -/
def sameUnit (u v : Nat) : Bool :=
  u == v ||
  (unitClass u == 15 && unitClass v == 0 && pairOf (unitIndex v) == some (unitIndex u)) ||
  (unitClass v == 15 && unitClass u == 0 && pairOf (unitIndex u) == some (unitIndex v))

/-- The unit of the other core of a core's Twin pair. -/
def otherTwin (u : Nat) : Option Nat :=
  if unitClass u = 0 ∧ 384 ≤ unitIndex u ∧ unitIndex u < 512 then
    some (if unitIndex u < 448 then unitIndex u + 64 else unitIndex u - 64)
  else none

/-! ### The log -/

/-- Set a field of the `k`-th log entry since reset, unless a later entry has overwritten it. -/
def State.logPut (s : State) (k : Nat) (f : FieldRef) (v : Nat) : State :=
  if s.assay.count ≤ k + 32 then s.put f v (16 * (k % 32)) else s

def State.logVerdict (s : State) (k v : Nat) : State := s.logPut k Fld.AS_LOG_INFO_VERDICT v
def State.logDone (s : State) (k : Nat) : State := s.logPut k Fld.AS_LOG_INFO_DONE 1

/-- The Tally record of a log entry or of its verdict (11 R370, type 0x13). -/
def State.logRecord (s : State) (unit cause verdict : Nat) : State :=
  s.record 0x13 1 (leBytes 4 unit ++ leBytes 1 cause ++ leBytes 1 verdict)

/-- The verdict of a fault is written to its entry and recorded. (log 84, DEDUCED) -/
def State.giveVerdict (s : State) (f : FaultRec) (v : Nat) : State :=
  (s.logVerdict f.log v).logRecord f.unit f.cause v

/-- Write the next log entry; answers its number since reset (08, AS_LOGHEAD and AS_LOGn). -/
def State.logEntry (s : State) (unit cause detail : Nat) (second : Bool) : Nat × State :=
  let k := s.assay.count
  let n := k % 32
  let s := s.setReg (Reg.AS_LOG_UNIT + 16 * n) (BitVec.ofNat 32 unit)
  let s := s.setReg (Reg.AS_LOG_INFO + 16 * n)
    (BitVec.ofNat 32 (cause % 16 + b2n second * 64 + detail % 65536 * 65536))
  let s := s.setReg (Reg.AS_LOG_T_LO + 16 * n) (s.tb.now.setWidth 32)
  let s := s.setReg (Reg.AS_LOG_T_HI + 16 * n) ((s.tb.now >>> 32).setWidth 32)
  let s := (s.put Fld.AS_LOGHEAD_NEXT (n + 1)).modAssay (fun x => { x with count := k + 1 })
  let s := s.bump Fld.AS_LOGHEAD_TOTAL
  let s := s.edge 0
  (k, s.logRecord unit cause 0)

/-! ### Safe Hold (08 R290) -/

/-- A Lamplighter event (12 R402): its code, Crier source 23 while the die is Lit or Banked, and an in-band interrupt
where both sides enable it. -/
def State.lampEvent (s : State) (code : Nat) : State :=
  let s := (s.put Fld.LL_EVT_CODE code).bump Fld.LL_EVT_COUNT
  let s := if s.get Fld.LL_STS_DSTATE == 3 || s.get Fld.LL_STS_DSTATE == 4 then s.edge 23 else s
  if s.flag Fld.LL_CTL_IBIEN && s.power.ibiOn then s.emit (.ibi (BitVec.ofNat 8 code)) else s

/-- Safe Hold is in effect. -/
def State.safeHold (s : State) : Bool := s.flag Fld.AS_STS_HOLD

/-- The thread-halt source of a cluster follows its Halted threads (09 R294). -/
def State.haltRefresh (s : State) (cl : Nat) : State :=
  s.level (128 + cl) (s.threads.any (fun kv => decide (kv.1 / 32 = cl) && kv.2.tstate == .halted))

/-- Safe Hold is in effect, or its entry has begun: Porter admits nothing and nothing is dispatched (08 R290, steps 1
and 2). -/
def State.holding (s : State) : Bool := s.safeHold || s.assay.entering.isSome

/-- The threads of a pair stop, both buffers are discarded and its header is kept (08 R290 step 2). A pair that
releases its buffer goes on to the end of the release. -/
def State.holdPair (s : State) (p : Nat) : State :=
  let x := s.pair p
  match x.phase with
  | .running | .stopped | .dispatched =>
    let s := [(pairCores p).1, (pairCores p).2].foldl (fun s c =>
      let s := s.modCore c (fun k => { k with cbuf := [], scHit := [], beats := 0, late := 0, doneAt := none })
      (s.modThr (4 * c) (fun th => { th with tstate := .meteredIdle, cur := none })).haltRefresh (c / 8)) s
    let s := s.setPair p { x with phase := .idle, msg := none, second := false }
    match x.msg with
    | some m => { s with prompt := { s.prompt with waiting := m :: s.prompt.waiting } }
    | none => s
  | _ => s

/-- Steps 3 to 6 of the entry to Safe Hold (R290). The freezes, the stop of the ports and the hold levels of the escapes
are read from AS_STS.HOLD where they act. -/
def State.holdOn (s : State) (hcause : Nat) : State :=
  let s := s.modAssay (fun x => { x with entering := none })
  let s := (s.put Fld.AS_STS_HOLD 1).put Fld.AS_STS_HCAUSE hcause
  ((s.edge 1).msixSend 0).lampEvent 5

/-- The entry to Safe Hold goes on once every Accord release in progress is complete. -/
def State.holdFinish (s : State) : State :=
  match s.assay.entering with
  | some c => if s.pairs.any (fun kv => kv.2.phase == .releasing) then s else s.holdOn c
  | none => s

/-- Entry to Safe Hold for a unit, with its cause code (R290). -/
def State.enterHold (s : State) (unit hcause : Nat) : State :=
  if s.holding then s
  else
    ((foldN s (List.range 64) State.holdPair).modAssay (fun x => { x with
      holdUnit := unit, entering := some hcause })).holdFinish

/-! ### Verdicts and reports -/

/-- The cores that hold no work while a unit is tested, and that a lasting verdict on it retires (08 R279, R283). -/
def coresUnder (u : Nat) : List Nat :=
  let i := unitIndex u
  match unitClass u with
  | 0 => [i % 512]
  | 1 => (List.range 8).map (fun k => i % 64 * 8 + k)
  | 15 => [(pairCores (i % 64)).1, (pairCores (i % 64)).2]
  | _ => []

/-- The Assay's hold of a unit's cores begins or ends. -/
def State.holdCores (s : State) (u : Nat) (on : Bool) : State :=
  foldN s (coresUnder u) (fun s c => s.modCore c (fun k => { k with tested := on }))

/-- Record a unit's verdict among the faults of the open window. -/
def markFault (fs : List (Nat × Nat)) (u v : Nat) : List (Nat × Nat) :=
  if fs.any (fun f => f.1 == u) then fs.map (fun f => if f.1 = u then (u, v) else f) else fs ++ [(u, v)]

/-- Lasting verdicts of the open window. -/
def State.lastingCount (s : State) : Nat := (s.assay.faults.filter (fun f => f.2 == 2)).length

/-- A lasting verdict on a unit (08 R281, R285, R289): counted, logged, and followed by retirement, by Safe Hold, or
by both. (log 84, DEDUCED) -/
def State.lasting (s : State) (f : FaultRec) : State :=
  let s := (s.bump Fld.AS_CNT_LAST_COUNT).modAssay (fun x => { x with faults := markFault x.faults f.unit 2 })
  let two := decide (2 ≤ s.lastingCount)
  let stays := holdsSteward f.unit || isSharedBlock f.unit
  let s := s.giveVerdict f (if stays || two then 3 else 2)
  let s := if stays then s.logDone f.log
    else (s.modAssay (fun x => { x with retiring := x.retiring ++ [f] })).holdCores f.unit true
  let s := if two then s.put Fld.AS_STS_TWOLAST 1 else s
  if holdsSteward f.unit then s.enterHold f.unit 4
  else if isSharedBlock f.unit then s.enterHold f.unit 1
  else if two then s.enterHold f.unit 5
  else s

/-- AS_STS.QDEPTH and BUSY follow the queue and the running tests. -/
def State.assaySts (s : State) : State :=
  (s.put Fld.AS_STS_QDEPTH s.assay.queue.length).put Fld.AS_STS_BUSY (b2n (!s.assay.running.isEmpty))

/-- Every fault of the window has its verdict and any retirement complete. -/
def State.faultsDone (s : State) : Bool :=
  s.assay.queue.isEmpty && s.assay.running.isEmpty && s.assay.retiring.isEmpty

/-- The window's time has ended. -/
def State.windowOver (s : State) : Bool :=
  match s.assay.window with
  | some (t, ms) => decide (t + 1000000 * ms ≤ s.now)
  | none => false

/-- Close a window whose time has ended once its faults are complete (08 R286). (log 84, DEDUCED) -/
def State.closeWindow (s : State) : State :=
  if s.windowOver && s.faultsDone then
    (s.modAssay (fun x => { x with window := none, faults := [] })).put Fld.AS_STS_WOPEN 0
  else s

/-- A fault is complete: a window whose time ended before has outlasted it, and closes (08 R286). -/
def State.faultComplete (s : State) : State :=
  (if s.windowOver then s.put Fld.AS_STS_WLATE 1 else s).closeWindow

/-- Open a recovery window unless one is open; one whose time has ended and whose faults are complete is closed
(08 R286). -/
def State.openWindow (s : State) : State :=
  let s := s.closeWindow
  match s.assay.window with
  | some _ => s
  | none =>
    ({ s with assay := { s.assay with window := some (s.now, max 10 (s.cfg Fld.AS_CTL_WIN)), faults := [] } }).put
      Fld.AS_STS_WOPEN 1

/-- Queue a fault for its test; a full queue leads to Safe Hold (08 R288). -/
def State.enqueueFault (s : State) (f : FaultRec) : State :=
  if 64 ≤ s.assay.queue.length then ((s.giveVerdict f 3).logDone f.log).enterHold f.unit 3
  else ({ s with assay := { s.assay with queue := s.assay.queue ++ [f] } }).assaySts

/-- The error counters of the ECC causes and of Accord disagreements. -/
def State.countCause (s : State) (cause : Nat) : State :=
  match cause with
  | 0 => s.bump Fld.AS_CNT_CORR_COUNT
  | 1 => s.bump Fld.AS_CNT_UNC_COUNT
  | 2 => s.bump Fld.AS_CNT_DISAG_COUNT
  | _ => s

/-- Faults of a unit that still await their test or its end are settled by a verdict given meanwhile. -/
def State.supersede (s : State) (unit : Nat) : State :=
  let same (f : FaultRec) : Bool := sameUnit f.unit unit
  let gone := s.assay.queue.filter same ++ s.assay.running.filter same
  let s := s.modAssay (fun x => { x with
    queue := x.queue.filter (fun f => !same f), running := x.running.filter (fun f => !same f) })
  (gone.foldl (fun s f => ((s.holdCores f.unit false).giveVerdict f 2).logDone f.log) s).assaySts

/-- The row of a unit is served from its shadow while its march runs: no error of it is met (08 R282). -/
def State.shadowed (s : State) (unit : Nat) : Bool :=
  decide (4 ≤ unitClass unit) && decide (unitClass unit ≤ 8) && s.assay.running.any (fun f => f.unit == unit)

/-- An error reported to the Assay (08 R278, R286 to R289). -/
def State.report (s : State) (unit cause detail : Nat) : State :=
  if s.shadowed unit then s
  else
  let s := s.countCause cause
  let s := s.openWindow
  let earlier := s.assay.faults
  let second := !earlier.isEmpty
  let (n, s) := s.logEntry unit cause detail second
  let f : FaultRec := { unit := unit, cause := cause, log := n }
  let s := { s with assay := { s.assay with
    faults := if earlier.any (fun e => e.1 == unit) then earlier else earlier ++ [(unit, 0)] } }
  if second && isSharedBlock unit then ((s.giveVerdict f 3).logDone n).enterHold unit 2
  else if earlier.any (fun e => sameUnit e.1 unit && e.2 == 2) || s.assay.retiring.any (fun r => sameUnit r.unit unit) then
    ((s.logPut n Fld.AS_LOG_INFO_SECOND 0).giveVerdict f 2).logDone n
  else if s.meteredRole && (match otherTwin unit with
      | some o => earlier.any (fun e => e.1 == o)
      | none => false) then
    let u := unitOf 15 (unitIndex unit % 64)
    (s.supersede u).lasting { f with unit := u }
  else if earlier.any (fun e => sameUnit e.1 unit) then (s.supersede unit).lasting f
  else s.enqueueFault f

/-! ### Errors that an access meets (05 R158, R159) -/

/-- Report an uncorrectable word that an access of `n` bytes at `phys` met (05 R159). (log 82, DEDUCED) -/
def State.reportBad (s : State) (phys n : Nat) : State :=
  match (wordsOf phys n).find? (fun w => s.eccU.contains w) with
  | some w => s.report (rowUnit w) 1 (rowWord w)
  | none => s

/-- Correct the correctable words that a read of `n` bytes at `phys` met, and report each (05 R158). -/
def State.correct (s : State) (phys n : Nat) : State :=
  (s.corrIn phys n).foldl (fun s w =>
    ({ s with eccC := s.eccC.filter (· != w) }).report (rowUnit w) 0 (rowWord w)) s

/-- The row that holds a byte is withdrawn (05 R164). -/
def State.rowGone (s : State) (a : Nat) : Bool :=
  !s.assay.withdrawn.isEmpty && s.assay.withdrawn.contains (rowUnit a)

end Sys2Proof.Machine
end

