-- ==== Sys2Proof/Machine/Arbiters.lean ====
section
/-! DEFINITION. The Toll arbiters: who requests at which input and with which class, freeze, class credits, the next
grant, and the arbiters that an access of a core passes (05_memory_and_fabric.md R173 to R185). -/

namespace Sys2Proof.Machine

/-! ### Arbiters and their inputs (R173, R175) -/

/-- The key of an arbiter. -/
def arbKey : ArbiterId → Nat
  | .cluster c => c.toNat
  | .annex c u => 64 + 8 * c.toNat + u.toNat
  | .crossbar r => 1024 + r.toNat
  | .fabric t ch => 2048 + 4 * t.toNat + ch.toNat

/-- Inputs of an arbiter (R173); a fabric target or channel that does not exist has none. -/
def arbInputs : ArbiterId → Nat
  | .cluster _ => 9
  | .annex _ u => if u = 0 then 8 else 0
  | .crossbar _ => 9
  | .fabric t ch => if t.toNat < 12 ∧ ch.toNat < 3 then 72 else 0

/-- The cluster of a core, and its input at the die fabric (R175): the Metered regions hold the highest inputs. -/
def fabricInput (c : Nat) : Nat := if c / 64 < 6 then c / 8 else if c / 64 = 6 then 56 + c / 8 % 8 else 64 + c / 8 % 8

/-- The input at which a requester asks an arbiter (R173, R175). What does not come from within a cluster or a region
comes by the inbound path. -/
def inputOf (a : ArbiterId) (x : Requestor) : Nat :=
  match a, x with
  | .cluster cl, .core t => if t.toNat / 32 = cl.toNat then t.toNat / 4 % 8 else 8
  | .cluster _, _ => 8
  | .annex _ _, .core t => t.toNat / 4 % 8
  | .annex _ _, _ => 8
  | .crossbar r, .core t => if t.toNat / 256 = r.toNat then t.toNat / 32 % 8 else 8
  | .crossbar _, _ => 8
  | .fabric _ _, .core t => fabricInput (t.toNat / 4)
  | .fabric _ _, .tally => 48
  | .fabric _ _, .assay => 49
  | .fabric _ _, .hostIn _ => 50
  | .fabric _ _, .engine _ => 51
  | .fabric _ _, .crier _ => 52
  | .fabric _ _, .session _ => 53
  | .fabric _ _, .egress _ => 54
  | .fabric _ _, .ingress _ => 55

/-- The class of a requester's request (R180): that of the thread's current message, Bulk without one; that of the frame
or queue served; Assured of the Assay, Idle of the Tally. -/
def State.classOf (s : State) : Requestor → Nat
  | .core t => match (s.thr t.toNat).cur with
    | some h => h.cls.toNat
    | none => 2
  | .tally => 3
  | .assay => 1
  | .hostIn c | .engine c | .crier c | .session c | .egress c | .ingress c => c.toNat

/-- The fabric channel of a requester's request (R177): the escape channel for a Metered core, the frame-buffer writes of
Prompt frames, the headers of Prompt messages and the reads of the Prompt egress queue; else the request channel. -/
def State.channelOf (s : State) : Requestor → Nat
  | .core t => if (s.thr t.toNat).mode then 2 else 0
  | .ingress c | .crier c | .egress c => if c = 0 then 2 else 0
  | _ => 0

/-! ### Credits and freeze (R179, R182) -/

/-- Fabric target `k` makes no grants: frozen by software, by Safe Hold, or, but for the escape channel, by its path test
(05 R182, R183; 08 R279, R290). (log 30, DESIGN CHOICE; log 111, DEDUCED) -/
def State.targetFrozen (s : State) (k : Nat) (metered : Bool) : Bool :=
  (if metered then s.flag Fld.TL_FFRZ_ESC
   else bitOf (s.get Fld.TL_FFRZ_FRZ) k || s.assay.running.any (fun f => f.unit == unitOf 10 k)) ||
    (s.safeHold && decide (k ≤ 10))

/-- The arbiter of a cluster's memory makes no grants; that of a retired cluster stays frozen (08 R283). -/
def State.clusterFrozen (s : State) (cl : Nat) : Bool :=
  bitOf (s.reg (Reg.TL_CFRZ + 4 * (cl / 32))).toNat (cl % 32) || s.clusterRetired cl

/-- Entries of a fabric target's request-channel buffer (R179). -/
def fabricEntries (t : Nat) : Nat := if t < 8 then 64 else if t < 11 then 256 else 32

/-- Entries reserved for a class; class 0 uses those of Assured (R180). -/
def State.credit (s : State) (t c : Nat) : Nat :=
  match c with
  | 2 => s.cfg Fld.TL_CRED_BRES (4 * t)
  | 3 => s.cfg Fld.TL_CRED_IRES (4 * t)
  | _ => s.cfg Fld.TL_CRED_ARES (4 * t)

/-- Entries of the shared pool. -/
def State.creditPool (s : State) (t : Nat) : Nat :=
  fabricEntries t - (s.credit t 1 + s.credit t 2 + s.credit t 3)

/-- Classes 0 and 1 share a reservation. -/
def creditClass (c : Nat) : Nat := max 1 c

/-- The entry that a request of class `c` takes at target `t`: of its reservation (false), of the pool (true), or
none (R179). -/
def State.entryFor (s : State) (t c : Nat) (out : List ArbOut) : Option Bool :=
  let mine := (out.filter (fun o => !o.pool && creditClass o.cls == creditClass c)).length
  let pool := (out.filter (·.pool)).length
  if mine < s.credit t (creditClass c) then some false
  else if pool < s.creditPool t then some true
  else none

/-- The arbiter is frozen (R182; 08 R279, R283, R290). (log 30, DESIGN CHOICE) -/
def State.arbFrozen (s : State) : ArbiterId → Bool
  | .cluster c => s.clusterFrozen c.toNat
  | .annex _ _ => false
  | .crossbar r => bitOf (s.get Fld.TL_RFRZ_FRZ) r.toNat
  | .fabric t ch => s.targetFrozen t.toNat (ch == 2)

/-- The arbiter grants nothing: it is frozen, or its region enters Gated, is Gated or leaves it (12 R390). -/
def State.arbStopped (s : State) (a : ArbiterId) : Bool :=
  s.arbFrozen a || (match a with
    | .cluster c => s.gated (c.toNat / 8)
    | .annex c _ => s.gated (c.toNat / 8)
    | .crossbar r => s.gated r.toNat
    | .fabric _ _ => false)

/-! ### Slots (R118, R178, R185) -/

/-- Requests of a core that wait at an arbiter or are outstanding there, and host-window stores of it that wait for the
link: each holds a core slot (R118). (log 146, DESIGN CHOICE) -/
def State.slotsHeld (s : State) (c : Nat) : Nat :=
  (s.arbs.map (fun kx => (kx.2.waiting.filter (fun w => (w.thread.map (· / 4)) == some c)).length +
    (kx.2.out.filter (fun o => (o.thread.map (· / 4)) == some c)).length)).sum +
  (s.link.held.filter (fun w => w.thread.map (· / 4) == some c)).length

/-- A core slot is free for thread `t` (R118, R185). -/
def State.slotFree (s : State) (t : Nat) : Bool := decide (s.slotsHeld (t / 4) < 8)

/-! ### Requests and grants (R174 to R179) -/

/-- The thread that makes a request. -/
def requestThread : Requestor → Option Nat
  | .core t => some t.toNat
  | _ => none

/-- Whether an arrival takes place: its input exists and presents no other request, it comes by the channel of its
requester, its core has a slot for the response, and a Metered core has one escape request at a time (R174, R177, R178,
R185). (log 146, DESIGN CHOICE) -/
def State.admits (s : State) (a : ArbiterId) (x : Arb) (r : ArbRequest) : Bool :=
  decide (inputOf a r.sender < arbInputs a) && !x.waiting.any (fun w => w.input == inputOf a r.sender) &&
  (match a with
    | .fabric _ ch => ch == 1 || ch.toNat == s.channelOf r.sender
    | .annex c _ => (match r.sender with
      | .core t => t.toNat / 32 == c.toNat
      | _ => false)
    | _ => true) &&
  (match r.sender with
    | .core t => s.slotFree t.toNat &&
        !((s.thr t.toNat).mode && (match a with
          | .fabric _ ch => ch == 2 && (x.waiting.any (fun w => w.thread.map (· / 4) == some (t.toNat / 4)) ||
              x.out.any (fun o => o.thread.map (· / 4) == some (t.toNat / 4)))
          | _ => false))
    | _ => true)

/-- A requester's request at an arbiter, arriving now. -/
def State.arrival (s : State) (a : ArbiterId) (r : ArbRequest) : ArbWait :=
  { input := inputOf a r.sender, cls := s.classOf r.sender, at_ := s.now, thread := requestThread r.sender,
    unit := r.unit.toNat, steps := max 1 r.steps }

/-- Requests arrive: one at an input at a time. -/
def State.arrive (s : State) (a : ArbiterId) (x : Arb) (rs : List ArbRequest) : Arb :=
  rs.foldl (fun x r => if s.admits a x r then { x with waiting := x.waiting ++ [s.arrival a r] } else x) x

/-- Responses of granted requests are delivered: the oldest of each input. -/
def Arb.answer (x : Arb) (is : List (BitVec 7)) : Arb :=
  is.foldl (fun x i =>
    match x.out.find? (fun o => o.input == i.toNat) with
    | some o => { x with out := x.out.erase o }
    | none => x) x

/-- The waiting request of the highest input number among those that hold an entry (R175, R179). (log 88, DEDUCED) -/
def topInput (ok : ArbWait → Bool) : List ArbWait → Option ArbWait
  | [] => none
  | w :: r =>
    match topInput ok r with
    | none => if ok w then some w else none
    | some v => if ok w && decide (v.input < w.input) then some w else some v

/-- An escape request is ready at the target: the request channel yields to it (R177). (log 88, DEDUCED) -/
def State.escapeReady (s : State) (t : Nat) : Bool :=
  !(s.arb (2048 + 4 * t + 2)).waiting.isEmpty && !s.targetFrozen t true

/-- The request that the arbiter grants next (R174, R175, R177, R179). At a near-Annex arbiter a request waits while its
opcode unit is at work (R185). (log 88, DEDUCED) -/
def State.nextGrant (s : State) (a : ArbiterId) (x : Arb) : Option ArbWait :=
  if s.arbStopped a then none
  else
    match a with
    | .cluster _ => x.waiting.head?
    | .annex _ _ => x.waiting.find? (fun w => !x.out.any (fun o => o.unit == w.unit))
    | .crossbar _ => x.waiting.head?
    | .fabric t ch =>
      if ch.toNat = 0 then
        (if s.escapeReady t.toNat then none
         else topInput (fun w => (s.entryFor t.toNat w.cls x.out).isSome) x.waiting)
      else topInput (fun _ => true) x.waiting

/-! ### The arbiters that an access of a core passes (R173, R175, R177) -/

/-- The arbiter of a fabric target for a thread's requests. -/
def State.fabricFor (s : State) (t k : Nat) : ArbiterId :=
  .fabric (BitVec.ofNat 4 k) (BitVec.ofNat 2 (s.channelOf (.core (BitVec.ofNat 11 t))))

/-- The arbiters between a core and a cluster memory, in order: its own cluster's arbiter; or the region's crossbar and the
target's arbiter; or, in another region, the fabric target of that region, its crossbar and the target's arbiter. (log 130, DEDUCED) -/
def State.clusterPath (s : State) (t cl : Nat) : List ArbiterId :=
  if cl = t / 32 then [.cluster (BitVec.ofNat 6 cl)]
  else if cl / 8 = t / 256 then [.crossbar (BitVec.ofNat 3 (cl / 8)), .cluster (BitVec.ofNat 6 cl)]
  else [s.fabricFor t (cl / 8), .crossbar (BitVec.ofNat 3 (cl / 8)), .cluster (BitVec.ofNat 6 cl)]

/-- The arbiter lets a request of thread `t` through now: it has granted it, or would grant it next. An access of a thread
arrives, is granted and answered within its command unless the arbiter makes it wait (R174, R175, R182). (log 17, DESIGN CHOICE) -/
def State.passes (s : State) (t : Nat) (a : ArbiterId) (unit : Nat := 0) : Bool :=
  let x := s.arb (arbKey a)
  let r : ArbRequest := { sender := .core (BitVec.ofNat 11 t), unit := BitVec.ofNat 3 unit }
  x.out.any (fun o => o.thread == some t) ||
    (let x := if x.waiting.any (fun w => w.thread == some t) then x else s.arrive a x [r]
     match s.nextGrant a x with
     | some w => w.thread == some t
     | none => false)

/-- The first arbiter of a path that makes thread `t`'s access wait. -/
def State.stopsAt (s : State) (t : Nat) (path : List ArbiterId) : Option ArbiterId := path.find? (fun a => !s.passes t a)

/-- The request of thread `t` takes its place at an arbiter (R182); at a near-Annex arbiter, for a unit. -/
def State.enrol (s : State) (t : Nat) (a : ArbiterId) (unit : Nat := 0) : State :=
  let x := s.arb (arbKey a)
  if x.waiting.any (fun w => w.thread == some t) then s
  else s.setArb (arbKey a) (s.arrive a x [{ sender := .core (BitVec.ofNat 11 t), unit := BitVec.ofNat 3 unit }])

/-- Requests of threads that satisfy `f` are withdrawn where they wait (R183). -/
def State.withdrawWaits (s : State) (f : Nat → Bool) : State :=
  if s.arbs.any (fun kx => kx.2.waiting.any (fun w => w.thread.any f)) then
    { s with arbs := s.arbs.map (fun kx => (kx.1, { kx.2 with
        waiting := kx.2.waiting.filter (fun w => !w.thread.any f) })) }
  else s

/-- Granted requests of threads that satisfy `f` are answered. -/
def State.answerAll (s : State) (f : Nat → Bool) : State :=
  if s.arbs.any (fun kx => kx.2.out.any (fun o => o.thread.any f)) then
    { s with arbs := s.arbs.map (fun kx => (kx.1, { kx.2 with out := kx.2.out.filter (fun o => !o.thread.any f) })) }
  else s

/-- The word of thread `t` that waited is done with its accesses. -/
def State.leaveArbs (s : State) (t : Nat) : State := (s.withdrawWaits (· == t)).answerAll (· == t)

end Sys2Proof.Machine
end

