-- ==== Sys2Proof/Machine/Access.lean ====
section
/-! DEFINITION. Data-space and instruction-space accesses of a thread: the maps, the checks, split accesses, captured
writes and the host window (02 R51 to R56, 03 R75 to R97, 04 R126 to R128, 05 R158 to R171, 08 R266 and R267,
10 R322 and R327). -/

namespace Sys2Proof.Machine

/-- What an access waits for. (log 17, DESIGN CHOICE) -/
inductive WaitFor where
  | region (r : Nat)
  | grant (a : ArbiterId) (unit : Nat)
  | turn
  | read (fn pa va len : Nat)
  deriving DecidableEq, Repr

/-- Why an instruction does not complete: it raises an exception, or it waits. -/
inductive Stop where
  | raise (x : Raise)
  | wait (w : WaitFor)
  deriving DecidableEq, Repr

/-- A computation over the state that may stop. The state of a raise keeps what was done before it. -/
abbrev M := EStateM Stop State

/-- Exception vectors (04 R129). -/
abbrev xIllegal : BitVec 6 := 1
abbrev xIllegalPair : BitVec 6 := 2
abbrev xPrivilege : BitVec 6 := 3
abbrev xDataProt : BitVec 6 := 4
abbrev xSplit : BitVec 6 := 5
abbrev xAlign : BitVec 6 := 6
abbrev xIoFault : BitVec 6 := 7
abbrev xAnnexUnav : BitVec 6 := 8
abbrev xAnnexTmo : BitVec 6 := 9
abbrev xMetered : BitVec 6 := 10
abbrev xWaitTmo : BitVec 6 := 11
abbrev xRank : BitVec 6 := 12
abbrev xOverflow : BitVec 6 := 13
abbrev xEcc : BitVec 6 := 14
abbrev xTrap : BitVec 6 := 15

/-- Raise an exception that carries no address. -/
def raiseV {α : Type} (v : BitVec 6) : M α := throw (.raise { vector := v })
/-- Raise an exception with the address that caused it. -/
def raiseA {α : Type} (v : BitVec 6) (a : Nat) : M α :=
  throw (.raise { vector := v, addr0 := some (BitVec.ofNat 64 a) })
/-- Wait. (log 17, DESIGN CHOICE) -/
def waitFor {α : Type} (w : WaitFor) : M α := throw (.wait w)

/-- Read the state through a function. -/
def look {α : Type} (f : State → α) : M α := fun s => .ok (f s) s
/-- Change the state. -/
def change (f : State → State) : M Unit := fun s => .ok () (f s)

/-! ### The data-space map (02 R51) -/

inductive DRegion where
  | dsram | ownCl | glob (cl : Nat) | session | frame | host | unmapped
  deriving DecidableEq, Repr

def dRegion (a : Nat) : DRegion :=
  if a < 0x8000 then .dsram
  else if 0x10000000 ≤ a ∧ a < 0x10040000 then .ownCl
  else if 0x1000000000 ≤ a ∧ a < 0x1010000000 then
    (if (a - 0x1000000000) % 0x400000 < 0x40000 then
      .glob ((a - 0x1000000000) / 0x2000000 * 8 + (a - 0x1000000000) % 0x2000000 / 0x400000)
     else .unmapped)
  else if 0x2000000000 ≤ a ∧ a < 0x2001000000 then .session
  else if 0x3000000000 ≤ a ∧ a < 0x3002000000 then .frame
  else if 0x800000000000 ≤ a ∧ a < 0x1000000000000 then .host
  else .unmapped

/-- The cluster memory that a data address of a core reaches. -/
def clusterOf (c a : Nat) : Option Nat :=
  match dRegion a with
  | .ownCl => some (c / 8)
  | .glob cl => some cl
  | _ => none

/-- The physical number of a byte of a data address of core `c` in an on-die memory. -/
def physOf (c a : Nat) : Nat :=
  match dRegion a with
  | .dsram => dsramBase c + a
  | .ownCl => clusterBase (c / 8) + (a - 0x10000000)
  | _ => a

/-! ### The host window (10 R327) -/

/-- Whether window descriptor `n` covers an address, and where it leads. -/
def State.winCovers (s : State) (n a : Nat) : Bool :=
  let o := 32 * n
  let base := 0x800000000000 + (s.cfg Fld.GL_WIN_SRC_HI_SRC o * 2 ^ 20 + s.cfg Fld.GL_WIN_SRC_LO_SRC o) * 4096
  s.on Fld.GL_WIN_CTL_EN o && (s.func (s.cfg Fld.GL_WIN_CTL_FN o)).bme &&
    decide (base ≤ a) && decide (a < base + 2 ^ s.cfg Fld.GL_WIN_CTL_SIZE o)

/-- The lowest-numbered descriptor that covers an address. -/
def State.window (s : State) (a : Nat) : Option Nat := (List.range 64).find? (fun n => s.winCovers n a)

/-- The partner-die address of a data address under descriptor `n`. -/
def State.winAddr (s : State) (n a : Nat) : Nat :=
  let o := 32 * n
  let base := 0x800000000000 + (s.cfg Fld.GL_WIN_SRC_HI_SRC o * 2 ^ 20 + s.cfg Fld.GL_WIN_SRC_LO_SRC o) * 4096
  s.cfg Fld.GL_WIN_DST_HI_DST o * 2 ^ 32 + s.cfg Fld.GL_WIN_DST_LO_DST o * 4096 + (a - base)

/-- A byte of the host window is covered by a descriptor that permits the access (10 R327). -/
def State.winPermits (s : State) (a : Nat) (write code : Bool) : Bool :=
  match s.window a with
  | some w => (!write || s.on Fld.GL_WIN_CTL_WR (32 * w)) && (!code || s.on Fld.GL_WIN_CTL_CODE (32 * w))
  | none => false

/-- How many of `n` bytes from `a` one descriptor covers. -/
def State.winRun (s : State) (a : Nat) : Nat → Nat
  | 0 => 0
  | n + 1 => if (List.range (n + 1)).all (fun i => s.window (a + i) == s.window a) then n + 1 else s.winRun a n

/-- The attributes of a request through a descriptor (10 R328): No Snoop where NS is 1, Relaxed Ordering where RO is 1 and
the function has enabled it. -/
def State.winAttr (s : State) (n : Nat) : LinkAttr :=
  { noSnoop := s.on Fld.GL_WIN_CTL_NS (32 * n),
    relaxed := s.on Fld.GL_WIN_CTL_RO (32 * n) && (s.func (s.cfg Fld.GL_WIN_CTL_FN (32 * n))).relaxed }

/-- The posted writes of a host-window store by thread `t`: one for each descriptor that its bytes meet (10 R328). -/
def State.hostStore (s : State) (t : Nat) : Nat → Nat → List Byte → State
  | 0, _, _ => s
  | fuel + 1, a, bs =>
    match bs, s.window a with
    | [], _ => s
    | _, none => s
    | _, some w =>
      let k := max 1 (s.winRun a bs.length)
      (s.sendWrite (s.cfg Fld.GL_WIN_CTL_FN (32 * w)) (s.winAddr w a) (bs.take k) (s.winAttr w) (some t)).hostStore t fuel (a + k) (bs.drop k)

/-! ### One half of an access: every byte in one region -/

/-- Where an access goes: an on-die memory, or a window descriptor. -/
inductive Place where
  | die (phys : Nat)
  | host (win : Nat)
  deriving DecidableEq, Repr

/-- An access waits for a core slot, or at the first arbiter of its path that makes it wait (05 R178, R182, R185). A load
through the host window takes a host read tag and no slot (04 R118). -/
def grantAll {α : Type} (t : Nat) (path : List ArbiterId) (slot : Bool) (x : α) : M α := fun s =>
  if slot && !s.slotFree t && !(s.thr t).waiting.isSome then .error (.wait .turn) s
  else match s.stopsAt t path with
    | some a => .error (.wait (.grant a 0)) s
    | none => .ok x s

/-- Bytes that host reads of the command in progress brought. -/
def gotBytes (got : List (Nat × Option Byte)) (a : Nat) : Nat → Option (List Byte)
  | 0 => some []
  | n + 1 =>
    match got.lookup a, gotBytes got (a + 1) n with
    | some (some b), some r => some (b :: r)
    | _, _ => none

/-- Check `n` bytes at `a`, all in one region of the map, for a thread of core `c` (02 R51 to R54, 05 R164, R165). An
access to the host window whose bytes have come was translated before, and completes so (10 R327). -/
def place (t a n : Nat) (write code : Bool) : M Place := fun s =>
  let c := t / 4
  let metered := (s.thr t).mode
  let prot : EStateM.Result Stop State Place :=
    .error (.raise { vector := xDataProt, addr0 := some (BitVec.ofNat 64 a) }) s
  match dRegion a with
  | .unmapped => prot
  | .dsram => .ok (.die (physOf c a)) s
  | .host =>
    if metered then .error (.raise { vector := xMetered, addr0 := some (BitVec.ofNat 64 a) }) s
    else if !write && (gotBytes (s.thr t).hostGot a n).isSome then .ok (.host 0) s
    else match s.window a with
      | none => prot
      | some w =>
        if (List.range n).all (fun i => s.winPermits (a + i) write code) then
          grantAll t [s.fabricFor t 10] write (.host w) s
        else prot
  | .session | .frame =>
    let k := if a < frameBase then 8 else 9
    if (List.range n).any (fun i => s.assay.withdrawn.contains (rowUnit (a + i))) then prot
    else grantAll t [s.fabricFor t k] true (.die a) s
  | _ =>
    match clusterOf c a with
    | none => prot
    | some cl =>
      if s.clusterRetired cl || s.pstate (cl / 8) == 4 || s.pstate (cl / 8) == 6 then prot
      else if s.gated (cl / 8) then .error (.wait (.region (cl / 8))) s
      else grantAll t (s.clusterPath t cl) true (.die (physOf c a)) s

/-- The captured byte that a Metered core's load finds at a physical number: the newest data write or RELS write that
covers it (03 R97). -/
def capturedByte (c : Nat) (buf : List CbEntry) (phys : Nat) : Option Byte :=
  (buf.reverse.find? (fun e => (e.kind == 0 || e.kind == 2) && physOf c e.addr.toNat == granule phys &&
    bitOf e.mask.toNat (phys % 8))).map (fun e => BitVec.ofNat 8 (e.data.toNat / 256 ^ (phys % 8)))

/-- A host read of one of `n` bytes from `a` failed (10 R327). -/
def gotFailed (got : List (Nat × Option Byte)) (a n : Nat) : Bool :=
  got.any (fun e => e.2.isNone && decide (a ≤ e.1) && decide (e.1 < a + n))

/-- Read `n` bytes at `a` from their place. (log 19, DEDUCED; log 133, DEDUCED) -/
def readAt (t a n : Nat) (p : Place) : M (List Byte) :=
  match p with
  | .die phys => fun s =>
    if s.badRead phys n then
      .error (.raise { vector := xEcc, addr0 := some (BitVec.ofNat 64 a) }) (s.reportBad phys n)
    else
      let s := s.correct phys n
      if (s.thr t).mode then
        let buf := (s.core (t / 4)).cbuf
        .ok ((List.range n).map (fun i => (capturedByte (t / 4) buf (phys + i)).getD (s.byte (phys + i)))) s
      else .ok (s.bytes phys n) s
  | .host w => fun s =>
    match gotBytes (s.thr t).hostGot a n with
    | some bs => .ok bs s
    | none =>
      if s.linkUsable && !gotFailed (s.thr t).hostGot a n then
        -- the first byte not yet brought, and as many after it as one descriptor covers
        let i := ((List.range n).find? (fun i => ((s.thr t).hostGot.lookup (a + i)).isNone)).getD 0
        let v := (s.window (a + i)).getD w
        .error (.wait (.read (s.cfg Fld.GL_WIN_CTL_FN (32 * v)) (s.winAddr v (a + i)) (a + i)
          (max 1 (s.winRun (a + i) (n - i))))) s
      else .error (.raise { vector := xDataProt, addr0 := some (BitVec.ofNat 64 a) }) s

/-! ### The data cache (05 R155, R157, R159) -/

/-- The 64-byte lines that `n` bytes from an address touch. -/
def linesOf (a n : Nat) : List Nat := (List.range ((a % 64 + n + 63) / 64)).map (fun i => a / 64 * 64 + 64 * i)

/-- A line list with `x` used last: in its set, at most `ways` lines stay, the least recently used goes (05 R156). The set
of a line is its number modulo 64: 8 KB in 2 ways and 16 KB in 4 (05 R154). (log 129, DESIGN CHOICE) -/
def useLine {α : Type} (base : α → Nat) (ways : Nat) (l : List α) (x : α) : List α :=
  let set (y : α) : Nat := base y / 64 % 64
  let others := l.filter (fun y => base y != base x)
  x :: (others.filter (fun y => set y != set x) ++ (others.filter (fun y => set y == set x)).take (ways - 1))

/-- The data cache of a core holds the line with no parity error. -/
def State.dHit (s : State) (c line : Nat) : Bool := (s.cacheOf c).dlines.any (fun l => l.base == line && !l.bad)

/-- A line that a read finds with a parity error is invalidated, and the core reports it (05 R157; 08 R278). -/
def State.dParity (s : State) (c line : Nat) : State :=
  if (s.cacheOf c).dlines.any (fun l => l.base == line && l.bad) then
    (s.setCaches c { s.cacheOf c with dlines := (s.cacheOf c).dlines.filter (fun l => l.base != line) }).report
      (unitOf 0 c) 8 0
  else s

/-- A line becomes the last used of its set; a fill that meets an uncorrectable word fills no line (05 R159). -/
def State.dFill (s : State) (c line : Nat) : State :=
  if s.dHit c line || !s.badRead line 64 then
    s.setCaches c { s.cacheOf c with dlines := useLine DLine.base 4 (s.cacheOf c).dlines { base := line } }
  else s

/-- A load of an Elastic core from its own cluster's memory goes through its data cache (05 R155). -/
def State.dCached (s : State) (t a : Nat) : Bool :=
  !(s.thr t).mode && clusterOf (t / 4) a == some (t / 32)

/-- A load of `n` bytes through the data cache: only what no held line gives is read from memory. (log 129, DESIGN CHOICE) -/
def cachedRead (t a n phys : Nat) : M (List Byte) := fun s =>
  let c := t / 4
  let s := (linesOf phys n).foldl (fun s l => s.dParity c l) s
  let missed := (linesOf phys n).filter (fun l => !s.dHit c l)
  let part (l : Nat) : Nat × Nat := (max phys l, min (phys + n) (l + 64) - max phys l)
  match missed.find? (fun l => s.badRead (part l).1 (part l).2) with
  | some l => .error (.raise { vector := xEcc, addr0 := some (BitVec.ofNat 64 a) }) (s.reportBad (part l).1 (part l).2)
  | none =>
    let s := missed.foldl (fun s l => s.correct (part l).1 (part l).2) s
    .ok (s.bytes phys n) ((linesOf phys n).foldl (fun s l => s.dFill c l) s)

/-- The bytes of a load from their place. -/
def loadAt (t a n : Nat) (p : Place) : M (List Byte) :=
  match p with
  | .die phys => fun s => if s.dCached t a then cachedRead t a n phys s else readAt t a n p s
  | .host _ => readAt t a n p

/-- Read `n` bytes at `a`, all in one region. -/
def readHalf (t a n : Nat) : M (List Byte) := do
  let p ← place t a n false false
  readAt t a n p

/-! ### Captured writes (08 R266, R267) -/

/-- The most entries a commit buffer holds. -/
def cbufSize : Nat := 128

/-- The data-write entries that bytes at a data address make, granule by granule. -/
def writeEntries (a : Nat) (bs : List Byte) : List CbEntry :=
  (granulesOf a bs.length).map (fun g =>
    let at_ (i : Nat) : Option Byte := if g + i < a then none else bs[g + i - a]?
    { kind := 0, addr := BitVec.ofNat 48 g, aux := 0,
      mask := BitVec.ofNat 8 (((List.range 8).map (fun i => if (at_ i).isSome then 2 ^ i else 0)).sum),
      data := BitVec.ofNat 64 (((List.range 8).map (fun i => ((at_ i).getD 0).toNat * 256 ^ i)).sum) })

/-- Bits of a data word that a byte mask names. -/
def maskBits (m : BitVec 8) : Nat := ((List.range 8).map (fun i => if m.getLsbD i then 255 * 256 ^ i else 0)).sum

/-- Add one captured entry: a data write merges into the newest entry where that is a data write to the same
granule. -/
def cbAdd (buf : List CbEntry) (e : CbEntry) : List CbEntry :=
  match buf.getLast? with
  | some l =>
    if e.kind == 0 && l.kind == 0 && l.addr == e.addr then
      buf.dropLast ++ [{ l with
        mask := l.mask ||| e.mask,
        data := (l.data &&& ~~~ BitVec.ofNat 64 (maskBits e.mask)) ||| e.data }]
    else buf ++ [e]
  | none => [e]

/-- Capture entries of one word, or of one step of MOVB or FILLB: all of them, or none and Prompt-overflow. -/
def capture (c : Nat) (es : List CbEntry) : M Unit := fun s =>
  let buf := es.foldl cbAdd (s.core c).cbuf
  if cbufSize < buf.length then .error (.raise { vector := xOverflow }) s
  else .ok () (s.modCore c (fun k => { k with cbuf := buf }))

/-- A Metered core's write to a data address is captured: any region but the own data SRAM (03 R96). -/
def isCaptured (s : State) (t a : Nat) : Bool := (s.thr t).mode && dRegion a != .dsram

/-- Write bytes at `a` to their place: performed, captured, or sent on the link. (log 19, DEDUCED; log 139, DEDUCED) -/
def writeAt (t a : Nat) (bs : List Byte) (p : Place) : M Unit :=
  match p with
  | .die phys => fun s =>
    if isCaptured s t a then capture (t / 4) (writeEntries a bs) s
    else if s.badWrite phys bs.length then
      .error (.raise { vector := xEcc, addr0 := some (BitVec.ofNat 64 a) }) (s.reportBad phys bs.length)
    else
      let part := (wordsOf phys bs.length).filter (fun w => s.eccC.contains w && !coversWord phys bs.length w)
      let s := part.foldl (fun s w => s.correct w 1) s
      .ok () (s.store (some t) phys bs)
  | .host _ => fun s =>
    if s.linkUsable then .ok () (s.hostStore t bs.length a bs)
    else .ok () (s.bump Fld.GL_HL_WRDISC_COUNT)

/-- Write bytes at `a`, all in one region. -/
def writeHalf (t a : Nat) (bs : List Byte) : M Unit := do
  let p ← place t a bs.length true false
  writeAt t a bs p

/-! ### Whole accesses: split where a region ends (03 R76) -/

/-- How many of `n` bytes from `a` lie in the region of the first. -/
def firstHalf (a : Nat) : Nat → Nat
  | 0 => 0
  | n + 1 => if dRegion (a + n) = dRegion a then n + 1 else firstHalf a n

/-- Mark an exception as one of a split access. -/
def asSplit {α : Type} (m : M α) : M α := fun s =>
  match m s with
  | .error (.raise x) s' => .error (.raise { x with split := true }) s'
  | r => r

/-- Load `n` bytes: the checks of both halves of a split load come before its reads (02 R43; 04 R126). -/
def loadBytes (t a n : Nat) : M (List Byte) :=
  let k := firstHalf a n
  if k = n then do
    let p ← place t a n false false
    loadAt t a n p
  else asSplit (do
    let b := (a + k) % 2 ^ 64
    let p ← place t a k false false
    let q ← place t b (n - k) false false
    let lo ← loadAt t a k p
    let hi ← loadAt t b (n - k) q
    pure (lo ++ hi))

/-- The checks of an access of `n` bytes at `a`, all in one region, without its waits. -/
def permitted (t a n : Nat) (write : Bool) : M Unit := fun s =>
  match place t a n write false s with
  | .error (.raise x) s' => .error (.raise x) s'
  | _ => .ok () s

/-- A store of `n` bytes at `a` raises nothing and waits for nothing before its effect. -/
def placed (t a n : Nat) (s : State) : Bool :=
  match place t a n true false s with
  | .ok _ _ => true
  | .error _ _ => false

/-- The first half of a store, unless it was performed before the second had to wait (04 R127). -/
def firstWrite (t a : Nat) (bs : List Byte) : M Unit := fun s =>
  if (s.thr t).halfDone then .ok () s else asSplit (writeHalf t a bs) s

/-- Store bytes: a split store keeps its first half where the second faults, and raises Split-fault (04 R127); `own` for
one whose group lists no Split-fault, which raises what the second half raised (03 R111). Where the second half waits, the
first stays performed. (log 131, DEDUCED) -/
def storeSplit (t a : Nat) (bs : List Byte) (own : Bool) : M Unit :=
  let k := firstHalf a bs.length
  if k = bs.length then writeHalf t a bs
  else
    let b := (a + k) % 2 ^ 64
    fun s =>
      let cap := (if isCaptured s t a then writeEntries a (bs.take k) else []) ++
        (if isCaptured s t b then writeEntries b (bs.drop k) else [])
      if (s.thr t).mode && placed t a k s && placed t b (bs.length - k) s &&
          decide (cbufSize < (cap.foldl cbAdd (s.core (t / 4)).cbuf).length) then
        .error (.raise { vector := xOverflow }) s
      else
        match firstWrite t a (bs.take k) s with
        | .ok _ s1 =>
          match writeHalf t b (bs.drop k) s1 with
          | .error (.raise x) s2 =>
            if own then .error (.raise { x with split := true }) s2
            else .error (.raise { vector := xSplit, split := true, addr0 := some (BitVec.ofNat 64 a),
                                  addr1 := some (BitVec.ofNat 64 b) }) s2
          | .error (.wait w) s2 => .error (.wait w) (s2.modThr t (fun th => { th with halfDone := true }))
          | .ok _ s2 => .ok () (if (s.thr t).halfDone then s2.modThr t (fun th => { th with halfDone := false }) else s2)
        | r => r

/-- Store bytes (03 R75). (log 121, DESIGN CHOICE) -/
def storeBytes (t a : Nat) (bs : List Byte) : M Unit := storeSplit t a bs false

/-- Load a little-endian number of `n` bytes. -/
def loadNat (t a n : Nat) : M Nat := do
  let bs ← loadBytes t a n
  pure (leNat bs)

/-- Store the `n` low bytes of a number. -/
def storeNat (t a n v : Nat) : M Unit := storeBytes t a (leBytes n v)

/-! ### The instruction space (02 R55, R56) -/

inductive IRegion where
  | isram | cluster | host | rom | unmapped
  deriving DecidableEq, Repr

def iRegion (a : Nat) : IRegion :=
  if a < 0x8000 then .isram
  else if 0x40000000 ≤ a ∧ a < 0x40040000 then .cluster
  else if 0x80000000 ≤ a ∧ a < 0xC0000000 then .host
  else if 0xFFFF0000 ≤ a ∧ a < 0xFFFF8000 then .rom
  else .unmapped

/-- The data address that an instruction address of a code window names. -/
def codeData (a : Nat) : Nat :=
  if a < 0x80000000 then 0x10000000 + (a - 0x40000000) else 0x800000000000 + (a - 0x80000000)

/-! ### The instruction cache (05 R156, R157) -/

/-- The word that a core's instruction cache holds for an instruction address, and whether it has a parity error. -/
def State.iHeld (s : State) (c a : Nat) : Option (Word32 × Bool) :=
  match (s.cacheOf c).ilines.find? (fun l => l.base == a / 64 * 64) with
  | some l => (tblGet l.words (a % 64 / 4)).map (fun w => (w, l.bad.contains (a % 64 / 4)))
  | none => none

/-- A word that a fetch finds with a parity error: its line is invalidated and the core reports it. -/
def State.iParity (s : State) (c a : Nat) : State :=
  match s.iHeld c a with
  | some (_, true) =>
    (s.setCaches c { s.cacheOf c with ilines := (s.cacheOf c).ilines.filter (fun l => l.base != a / 64 * 64) }).report
      (unitOf 0 c) 8 0
  | _ => s

/-- The line of an instruction address is used: what it held, with the words `ws`. -/
def State.iUse (s : State) (c a : Nat) (ws : Tbl Word32) : State :=
  let old := ((s.cacheOf c).ilines.find? (fun l => l.base == a / 64 * 64)).getD { base := a / 64 * 64 }
  let l : ILine := { old with words := ws.foldl (fun t e => tblPut t e.1 e.2) old.words }
  s.setCaches c { s.cacheOf c with ilines := useLine ILine.base 2 (s.cacheOf c).ilines l }

/-- A fetch has read the word `w` at `a` through a code window. A line of cluster memory is filled whole, unless it holds an
uncorrectable word; a line of the host window holds the words that fetches have brought. (log 129, DESIGN CHOICE) -/
def State.iFill (s : State) (c a : Nat) (w : Word32) : State :=
  let base := clusterBase (c / 8) + (a / 64 * 64 - 0x40000000)
  if 0x80000000 ≤ a then s.iUse c a [(a % 64 / 4, w)]
  else if s.badRead base 64 then s
  else s.iUse c a ((List.range 16).map (fun i => (i, BitVec.ofNat 32 (leNat (s.bytes (base + 4 * i) 4)))))

/-- An ISTORE updates the word that its core's instruction cache holds (04 R123). -/
def State.iUpdate (s : State) (c a : Nat) (w : Word32) : State :=
  if (s.iHeld c a).isSome then
    s.setCaches c { s.cacheOf c with ilines := (s.cacheOf c).ilines.map (fun l =>
      if l.base = a / 64 * 64 then
        { l with words := tblPut l.words (a % 64 / 4) w, bad := l.bad.filter (· != a % 64 / 4) }
      else l) }
  else s

/-- A fetch through a code window: the word that the cache holds, or what `m` reads, which then fills a line. -/
def throughCache (t a : Nat) (m : M Word32) : M Word32 := fun s =>
  let c := t / 4
  let s := s.iParity c a
  match s.iHeld c a with
  | some (w, _) => .ok w (s.iUse c a [])
  | none =>
    match m s with
    | .ok w s' => .ok w (s'.iFill c a w)
    | r => r

/-- The word that lies at an instruction address, as a fetch would find it, without an access; none in the host window
where no cache holds it. -/
def State.peekInstr (s : State) (t a : Nat) : Option Word32 :=
  match iRegion a with
  | .unmapped => none
  | .rom => some (Config.romWord ((a - 0xFFFF0000) / 4))
  | .isram => some (BitVec.ofNat 32 (leNat (s.bytes (isramBase (t / 4) + a) 4)))
  | .cluster => some (((s.iHeld (t / 4) a).map (·.1)).getD
      (BitVec.ofNat 32 (leNat (s.bytes (clusterBase (t / 32) + (a - 0x40000000)) 4))))
  | .host => (s.iHeld (t / 4) a).map (·.1)

/-- Read the instruction word at an aligned address from its place; `fetch` for a fetch, which in Metered mode leaves the own
instruction SRAM only with Metered-violation. -/
def readInstr1 (t a : Nat) (fetch : Bool) : M Word32 := fun s =>
  let th := s.thr t
  let err (v : BitVec 6) : EStateM.Result Stop State Word32 :=
    .error (.raise { vector := v, addr0 := some (BitVec.ofNat 64 a) }) s
  match iRegion a with
  | .unmapped => err xDataProt
  | .rom =>
    if !th.priv then .error (.raise { vector := xPrivilege }) s
    else if fetch && th.mode then err xMetered
    else .ok (Config.romWord ((a - 0xFFFF0000) / 4)) s
  | .isram =>
    let phys := isramBase (t / 4) + a
    if s.badRead phys 4 then
      .error (.raise { vector := xEcc, addr0 := some (BitVec.ofNat 64 a) }) (s.reportBad phys 4)
    else
      let s := s.correct phys 4
      .ok (BitVec.ofNat 32 (leNat (s.bytes phys 4))) s
  | .cluster =>
    if fetch && th.mode then err xMetered
    else
      match readHalf t (codeData a) 4 s with
      | .ok bs s' => .ok (BitVec.ofNat 32 (leNat bs)) s'
      | .error (.raise x) s' => .error (.raise { x with addr0 := some (BitVec.ofNat 64 a) }) s'
      | .error e s' => .error e s'
  | .host =>
    if th.mode then err xMetered
    else
      match (place t (codeData a) 4 false true) s with
      | .ok _ s1 =>
        match readHalf t (codeData a) 4 s1 with
        | .ok bs s' => .ok (BitVec.ofNat 32 (leNat bs)) s'
        | .error e s' => .error e s'
      | .error (.raise x) s' => .error (.raise { x with addr0 := some (BitVec.ofNat 64 a) }) s'
      | .error e s' => .error e s'

/-- Read the instruction word at an aligned address; a fetch of an Elastic core through a code window goes through its
instruction cache (05 R156). (log 8, DESIGN CHOICE) -/
def readInstr (t a : Nat) (fetch : Bool) : M Word32 := fun s =>
  if fetch && !(s.thr t).mode && (iRegion a == .cluster || iRegion a == .host) then
    throughCache t a (readInstr1 t a fetch) s
  else readInstr1 t a fetch s

/-- Write the instruction word at an aligned address (03 R92). In Metered mode the write is captured. -/
def writeInstr (t a : Nat) (w : Word32) : M Unit := fun s =>
  let th := s.thr t
  let err (v : BitVec 6) : EStateM.Result Stop State Unit :=
    .error (.raise { vector := v, addr0 := some (BitVec.ofNat 64 a) }) s
  let cap : CbEntry :=
    { kind := 5, mask := 0x0F, addr := BitVec.ofNat 48 a, data := w.setWidth 64, aux := 0 }
  match iRegion a with
  | .unmapped => err xDataProt
  | .rom => if !th.priv then .error (.raise { vector := xPrivilege }) s else err xDataProt
  | .isram =>
    if th.mode then capture (t / 4) [cap] s
    else .ok () (s.store (some t) (isramBase (t / 4) + a) (leBytes 4 w.toNat))
  | .cluster =>
    match place t (codeData a) 4 true false s with
    | .ok _ s' =>
      if th.mode then capture (t / 4) [cap] s'
      else
        match writeHalf t (codeData a) (leBytes 4 w.toNat) s' with
        | .error (.raise x) s'' => .error (.raise { x with addr0 := some (BitVec.ofNat 64 a) }) s''
        | r => r
    | .error (.raise x) s' => .error (.raise { x with addr0 := some (BitVec.ofNat 64 a) }) s'
    | .error e s' => .error e s'
  | .host =>
    if th.mode then err xMetered
    else
      match place t (codeData a) 4 true true s with
      | .ok _ s' => writeHalf t (codeData a) (leBytes 4 w.toNat) s'
      | .error (.raise x) s' => .error (.raise { x with addr0 := some (BitVec.ofNat 64 a) }) s'
      | .error e s' => .error e s'

end Sys2Proof.Machine
end

