-- ==== Sys2Proof/Machine/Operands.lean ====
section
/-! DEFINITION. Operand forms: addressing modes, immediates, and the short operations of a paired word
(02 R38 to R42, R61 to R67). -/

namespace Sys2Proof.Machine

/-- The effective address of a load or store and the base write-back (02 R63), or none where the form is Illegal
(02 R37, R64). `load` names the destination register of a load. -/
def memOperand (th : Thread) (load : Option RegNo) (ra : RegNo) (mode : BitVec 2) (disp : BitVec 12) :
    Option (Word × Option Word) :=
  let b := th.get ra
  let zd : Word := disp.setWidth 64
  let bad : Bool := ra == 0 || load == some ra
  if th.amode then
    let rx : RegNo := disp.extractLsb' 7 5
    let d7 : Word := (disp.setWidth 7).signExtend 64
    match mode.toNat with
    | 0 => some (b + disp.signExtend 64, none)
    | 1 => some (b + th.get rx + d7, none)
    | 2 => some (b + th.get rx * 4 + d7, none)
    | _ => some (b + th.get rx * 8 + d7, none)
  else
    match mode.toNat with
    | 0 => some (b + disp.signExtend 64, none)
    | 1 => if bad then none else some (b, some (b + zd))
    | 2 => if bad then none else some (b - zd, some (b - zd))
    | _ => if disp = 0 then some (b, none) else none

/-- A branch target: the address of the branch word plus the offset × 4, modulo 2^32 (02 R62). -/
def branchTarget {n : Nat} (pc : Word32) (off : BitVec n) : Word32 := pc + off.signExtend 32 * 4

/-- The registers named by a CALLM or RETM mask, ascending: bit i names g(14 + i) (02 R65). -/
def maskRegs (mask : BitVec 16) : List RegNo :=
  ((List.range 16).filter (fun i => mask.getLsbD i)).map (fun i => BitVec.ofNat 5 (14 + i))

/-! ### Short operations (02 R67) -/

/-- The registers a short operation reads; a NOP reads none. -/
def shortReads (x : ShortSlot) : List RegNo :=
  match x.op.toNat with
  | 0 | 17 => []
  | 1 | 11 | 12 | 23 | 24 | 27 => [x.rs]
  | 13 | 14 | 15 | 16 => [x.rd]
  | _ => [x.rd, x.rs]

/-- The register a short operation writes; a write to g0 is not a write (02 R40). -/
def shortWrites (x : ShortSlot) : Option RegNo :=
  match x.op.toNat with
  | 0 | 28 => none
  | _ => if x.rd = 0 then none else some x.rd

/-- A short operation that R37 and R67 make Illegal. -/
def shortIllegal (x : ShortSlot) : Bool := slotReserved x

/-- The pairing rules of R40 broken: both slots write one register, or slot B reads a register that slot A writes. -/
def pairIllegal (a b : ShortSlot) : Bool :=
  match shortWrites a with
  | none => false
  | some r => shortWrites b == some r || (shortReads b).contains r

/-! ### Integer results (03 R72 to R74) -/

def boolWord (b : Bool) : Word := if b then 1 else 0

/-- A 32-bit result, sign-extended. -/
def sextW (v : Word32) : Word := v.signExtend 64

/-- High 64 bits of the signed product. -/
def mulhS (a b : Word) : Word := BitVec.ofInt 64 (a.toInt * b.toInt / 2 ^ 64)
/-- High 64 bits of the unsigned product. -/
def mulhU (a b : Word) : Word := BitVec.ofNat 64 (a.toNat * b.toNat / 2 ^ 64)

/-- The most negative 64-bit number. -/
abbrev minWord : Word := 0x8000000000000000

/-- Division with the fixed results of its edge cases (03 R73). -/
def divS (a b : Word) : Word :=
  if b = 0 then -1 else if a = minWord ∧ b = -1 then minWord else BitVec.ofInt 64 (a.toInt.tdiv b.toInt)
def divU (a b : Word) : Word := if b = 0 then -1 else BitVec.ofNat 64 (a.toNat / b.toNat)
def remS (a b : Word) : Word :=
  if b = 0 then a else if a = minWord ∧ b = -1 then 0 else BitVec.ofInt 64 (a.toInt.tmod b.toInt)
def remU (a b : Word) : Word := if b = 0 then a else BitVec.ofNat 64 (a.toNat % b.toNat)

def minS (a b : Word) : Word := if a.slt b then a else b
def maxS (a b : Word) : Word := if a.slt b then b else a
def minU (a b : Word) : Word := if a.ult b then a else b
def maxU (a b : Word) : Word := if a.ult b then b else a

/-- Number of leading zero bits; 64 of 0 (03, BITOP). -/
def clzNat (a : Word) : Nat := ((List.range 64).find? (fun i => a.getLsbD (63 - i))).getD 64
/-- Number of trailing zero bits; 64 of 0. -/
def ctzNat (a : Word) : Nat := ((List.range 64).find? (fun i => a.getLsbD i)).getD 64
/-- Number of one bits. -/
def popNat (a : Word) : Nat := ((List.range 64).filter (fun i => a.getLsbD i)).length
/-- The eight bytes in reverse order. -/
def bswapW (a : Word) : Word := BitVec.ofNat 64 (leNat (beBytes 8 a.toNat))

/-- The result of a short operation that writes a register without a memory access. -/
def shortResult (x : ShortSlot) (d r : Word) : Word :=
  let imm := x.rs
  match x.op.toNat with
  | 1 => r
  | 2 => d + r
  | 3 => d - r
  | 4 => d &&& r
  | 5 => d ||| r
  | 6 => d ^^^ r
  | 7 => d &&& ~~~ r
  | 8 => d <<< (r.toNat % 64)
  | 9 => d >>> (r.toNat % 64)
  | 10 => d.sshiftRight (r.toNat % 64)
  | 11 => - r
  | 12 => ~~~ r
  | 13 => d + imm.signExtend 64
  | 14 => d <<< imm.toNat
  | 15 => d >>> imm.toNat
  | 16 => d.sshiftRight imm.toNat
  | 17 => imm.signExtend 64
  | 18 => boolWord (d.slt r)
  | 19 => boolWord (d.ult r)
  | 20 => minS d r
  | 21 => maxS d r
  | 22 => d * r
  | 23 => (r.setWidth 32).setWidth 64
  | 24 => sextW (r.setWidth 32)
  | 25 => sextW ((d + r).setWidth 32)
  | 26 => sextW ((d - r).setWidth 32)
  | _ => 0

end Sys2Proof.Machine
end

