-- ==== Sys2Proof/Machine/Beats.lean ====
section
/-! DEFINITION. The Metered beat table (04 R151, R152). -/

namespace Sys2Proof.Machine

/-- The load count Ls of the region that an address of core `c` lies in; an address in no mapped region counts as the
slowest region (04 R144, R151). -/
def loadBeats (c a : Nat) : Nat :=
  match dRegion a with
  | .dsram => 2
  | .ownCl => 8
  | .glob cl => if cl = c / 8 then 8 else 16
  | _ => 18

/-- A load of `n` bytes: a split load takes the counts of both halves, plus 1. -/
def loadWordBeats (c a n : Nat) : Nat :=
  let k := firstHalf a n
  if k = n then loadBeats c a else loadBeats c a + loadBeats c (a + k) + 1

/-- A store of `n` bytes. -/
def storeWordBeats (a n : Nat) : Nat := if firstHalf a n = n then 2 else 5

/-- Blocks of 64 bytes, or part of 64 bytes. -/
def blocks64 (n : Nat) : Nat := (n + 63) / 64

/-- What a near-Annex operand block of `n` bytes at `a` adds (04 R152, R144). -/
def annexBlock (c a n : Nat) : Nat :=
  match dRegion a with
  | .dsram => 0
  | .ownCl => 0
  | .glob cl => if cl = c / 8 then 0 else 16 * blocks64 n
  | _ => 16 * blocks64 n

/-- The slowest region that `n` bytes from `a` lie in. Two regions that the map lays side by side have an unmapped byte
between them or are host or unmapped themselves, so bytes of more than one region meet the slowest. -/
def slowestLoad (c a n : Nat) : Nat :=
  if dRegion a = dRegion (a + (n - 1)) ∧ n ≤ 0x2000000 then loadBeats c a else 18

/-- The beats of one slot of a paired word. -/
def slotBeats (th : Thread) (c : Nat) (x : ShortSlot) : Nat :=
  match x.op.toNat with
  | 22 => 3
  | 27 => loadWordBeats c (th.get x.rs).toNat 8
  | 28 => storeWordBeats (th.get x.rd).toNat 8
  | _ => 1

/-- The load beats of a MEM-format load. -/
def memLoadBeats (th : Thread) (c : Nat) (rd ra : RegNo) (mode : BitVec 2) (disp : BitVec 12) (n : Nat) : Nat :=
  match memOperand th (some rd) ra mode disp with
  | some (a, _) => loadWordBeats c a.toNat n
  | none => 1

/-- The store beats of a MEM-format store. -/
def memStoreBeats (th : Thread) (ra : RegNo) (mode : BitVec 2) (disp : BitVec 12) (n : Nat) : Nat :=
  match memOperand th none ra mode disp with
  | some (a, _) => storeWordBeats a.toNat n
  | none => 1

/-- The I/O page of an IN or IND address is the own-core window. -/
def ownPage (a : Word) : Bool := a.toNat / 2 ^ 16 == 0xFF

/-- The beats that a word occupies in Metered mode (04 R151). A word not listed raises Metered-violation: 1. (log 124, DESIGN CHOICE) -/
def beatsOf (th : Thread) (c : Nat) : Instr → Nat
  | .nop _ | .add _ _ _ _ | .sub _ _ _ _ | .and _ _ _ _ | .or _ _ _ _ | .xor _ _ _ _ | .andn _ _ _ _
  | .shl _ _ _ _ | .shr _ _ _ _ | .sar _ _ _ _ | .ror _ _ _ _ | .slt _ _ _ _ | .sltu _ _ _ _ | .min _ _ _ _
  | .max _ _ _ _ | .minu _ _ _ _ | .maxu _ _ _ _ | .addw _ _ _ _ | .subw _ _ _ _ | .shlw _ _ _ _
  | .shrw _ _ _ _ | .sarw _ _ _ _ => 1
  | .mul _ _ _ _ | .mulw _ _ _ _ | .muli _ _ _ _ => 3
  | .mulh _ _ _ _ | .mulhu _ _ _ _ => 4
  | .div _ _ _ _ | .divu _ _ _ _ | .rem _ _ _ _ | .remu _ _ _ _ => 34
  | .b _ _ | .bl _ _ | .br _ _ | .blr _ _ | .beq _ _ _ _ | .bne _ _ _ _ | .blt _ _ _ _ | .bge _ _ _ _
  | .bltu _ _ _ _ | .bgeu _ _ _ _ => 2
  | .ldb _ rd ra m d | .ldbs _ rd ra m d => memLoadBeats th c rd ra m d 1
  | .ldh _ rd ra m d | .ldhs _ rd ra m d => memLoadBeats th c rd ra m d 2
  | .ldw _ rd ra m d | .ldws _ rd ra m d => memLoadBeats th c rd ra m d 4
  | .ldd _ rd ra m d => memLoadBeats th c rd ra m d 8
  | .stb _ _ ra m d => memStoreBeats th ra m d 1
  | .sth _ _ ra m d => memStoreBeats th ra m d 2
  | .stw _ _ ra m d => memStoreBeats th ra m d 4
  | .std _ _ ra m d => memStoreBeats th ra m d 8
  | .lr _ _ ra _ | .lrw _ _ ra _ => loadBeats c (th.get ra).toNat
  | .tas _ _ ra _ => loadBeats c (th.get ra).toNat + 2
  | .rels _ _ _ => 2
  | .sc _ _ _ _ | .scw _ _ _ _ => 3
  | .ioIn _ _ ra imm => if ownPage (th.get ra + imm.signExtend 64) then 6 else 40
  | .ind _ _ ra imm => if ownPage (th.get ra + imm.signExtend 64) then 8 else 44
  | .out _ _ _ _ | .outd _ _ _ _ | .istore _ _ _ _ => 2
  | .iload _ _ ra imm => if (th.get ra + imm.signExtend 64).toNat % 2 ^ 32 < 0x8000 then 2 else 8
  | .mfsr _ _ n => if n = 5 then 4 else 1
  | .mtsr _ _ _ => 1
  | .fence _ => 2
  | .ifence _ => 4
  | .trap _ _ => 1
  | .eret _ => 6
  | .mbrd _ _ _ => 6
  | .send _ _ _ _ _ _ => 2
  | .done _ => 1
  | .callm _ _ mask _ => 4 + 2 * ((maskRegs mask).length + 2)
  | .retm _ mask _ => 4 + ((maskRegs mask).length + 1) * loadBeats c th.sp.toNat
  | .movb _ _ ra rb _ =>
    4 + blocks64 (th.get rb).toNat * (slowestLoad c (th.get ra).toNat (th.get rb).toNat + 8)
  | .fillb _ _ _ rb _ => 4 + blocks64 (th.get rb).toNat * 8
  | .pairedWord _ a b => slotBeats th c a + slotBeats th c b
  | .akey128 _ _ ra rb => 48 + annexBlock c (th.get ra).toNat 512 + annexBlock c (th.get rb).toNat 16
  | .akey256 _ _ ra rb => 64 + annexBlock c (th.get ra).toNat 512 + annexBlock c (th.get rb).toNat 32
  | .gcmenc _ _ ra rb | .gcmdec _ _ ra rb | .cmac _ _ ra rb =>
    14 + annexBlock c (th.get ra).toNat 512 + annexBlock c (th.get rb).toNat 16
  | .ghash _ _ ra rb => 12 + annexBlock c (th.get ra).toNat 512 + annexBlock c (th.get rb).toNat 16
  | .gcmtag _ _ ra rb | .cmacend _ _ ra rb =>
    20 + annexBlock c (th.get ra).toNat 512 + annexBlock c (th.get rb).toNat 16
  | .s256init _ _ ra => 6 + annexBlock c (th.get ra).toNat 64
  | .s256blk _ _ ra rb => 90 + annexBlock c (th.get ra).toNat 64 + annexBlock c (th.get rb).toNat 64
  | .s256end _ _ ra rb => 10 + annexBlock c (th.get ra).toNat 64 + annexBlock c (th.get rb).toNat 32
  | .s384init _ _ ra => 6 + annexBlock c (th.get ra).toNat 96
  | .s384blk _ _ ra rb => 110 + annexBlock c (th.get ra).toNat 96 + annexBlock c (th.get rb).toNat 128
  | .s384end _ _ ra rb => 12 + annexBlock c (th.get ra).toNat 96 + annexBlock c (th.get rb).toNat 48
  | .crc32c _ _ ra rb | .csum _ _ ra rb =>
    8 + 8 * blocks64 (th.get rb).toNat + annexBlock c (th.get ra).toNat (th.get rb).toNat
  | .csfold _ _ _ => 2
  | .slook _ _ ra rb => 40 + annexBlock c (th.get ra).toNat (th.get rb).toNat
  | .sins _ _ ra rb | .sdel _ _ ra rb => 48 + annexBlock c (th.get ra).toNat (th.get rb).toNat
  | .dadd _ _ _ _ | .dsub _ _ _ _ => 4
  | .dmul _ _ _ _ => 20
  | .dcmp _ _ _ _ => 3
  | .dchk _ _ _ => 2
  | .a2p _ _ ra rb | .e2p _ _ ra rb =>
    6 + (th.get rb).toNat + annexBlock c (th.get ra).toNat (th.get rb).toNat
  | .p2a _ _ _ rb => 24 + annexBlock c (th.get rb).toNat 16
  | .p2e _ _ _ rb => 24 + annexBlock c (th.get rb).toNat 15
  | .p2b _ _ _ => 12
  | .b2p _ _ _ => 28
  | _ => 1

/-- Exception entry in Metered mode takes exactly 8 beats (04 R144). -/
def entryBeats : Nat := 8

end Sys2Proof.Machine
end

