-- ==== Sys2Proof/Machine/Session.lean ====
section
/-! DEFINITION. The CRCs, and the session index that Porter, SLOOK, SINS and SDEL share (06 R203 to R205, R208;
03 R105, R107). -/

namespace Sys2Proof.Machine

/-! ### CRC-32C and CRC-16 -/

/-- One bit of the reflected CRC-32C. -/
def crcStep (c : Word32) : Word32 := if c.getLsbD 0 then (c >>> 1) ^^^ 0x82F63B78#32 else c >>> 1

/-- One byte. -/
def crcByte (c : Word32) (b : Byte) : Word32 :=
  crcStep (crcStep (crcStep (crcStep (crcStep (crcStep (crcStep (crcStep (c ^^^ b.setWidth 32))))))))

/-- The finished CRC-32C of earlier bytes, whose finished CRC is `c`, followed by `bs` (03 R105). -/
def crc32c (c : Word32) (bs : List Byte) : Word32 := ~~~ (bs.foldl crcByte (~~~ c))

/-- One bit of the CRC-16 with polynomial 0x1021 (06 R208). -/
def crc16Step (c : BitVec 16) : BitVec 16 := if c.getLsbD 15 then (c <<< 1) ^^^ 0x1021#16 else c <<< 1

def crc16Byte (c : BitVec 16) (b : Byte) : BitVec 16 :=
  crc16Step (crc16Step (crc16Step (crc16Step (crc16Step (crc16Step (crc16Step (crc16Step
    (c ^^^ (b.setWidth 16 <<< 8)))))))))

/-- TAGCHK of fourteen tag bytes (06 R208). -/
def crc16 (bs : List Byte) : BitVec 16 := bs.foldl crc16Byte 0xFFFF#16

/-! ### Session contexts -/

/-- Address of the Porter area of context `i`. -/
def sessionArea (i : Nat) : Nat := sessionBase + 256 * i + 0xD0

/-- The entry's words hold an uncorrectable error, or its row is withdrawn: it counts as absent, and an insert skips it
(05 R161, R164; 06 R205). (log 34, DEDUCED) -/
def State.sessionBad (s : State) (i : Nat) : Bool := s.badRead (sessionArea i) 48 || s.rowGone (sessionArea i)

/-- Entry `i` holds the key (06 R204). (log 34, DEDUCED) -/
def State.sessionHolds (s : State) (i : Nat) (key : List Byte) : Bool :=
  !s.sessionBad i && (s.byte (sessionArea i)).getLsbD 0 &&
    (s.byte (sessionArea i + 1)).toNat == key.length && s.bytes (sessionArea i + 16) key.length == key

/-- Indices of the key's bucket, by way. -/
def sessionBucket (key : List Byte) : List Nat :=
  (List.range 8).map (fun w => (crc32c 0 key).toNat % 8192 * 8 + w)

/-- A lookup reads every entry of the key's bucket: correctable words are corrected, and every error is reported
(05 R158, R159). -/
def State.sessionRead (s : State) (key : List Byte) : State :=
  (sessionBucket key).foldl (fun s i => (s.reportBad (sessionArea i) 48).correct (sessionArea i) 48) s

/-- The index of the entry that holds the key. -/
def State.sessionFind (s : State) (key : List Byte) : Option Nat :=
  (sessionBucket key).find? (fun i => s.sessionHolds i key)

/-- Insert a key into the lowest way that is not VALID, with HOLDCLS and HOLDDST at 0. -/
def State.sessionInsert (s : State) (who : Option Nat) (key : List Byte) : Option Nat × State :=
  match (sessionBucket key).find? (fun i => !s.sessionBad i && !(s.byte (sessionArea i)).getLsbD 0) with
  | none => (none, s)
  | some i =>
    let s := s.store who (sessionArea i) [1, BitVec.ofNat 8 key.length]
    let s := s.store who (sessionArea i + 16) (key ++ List.replicate (32 - key.length) 0)
    (some i, s)

/-- Remove an entry: VALID becomes 0. -/
def State.sessionRemove (s : State) (who : Option Nat) (i : Nat) : State :=
  s.store who (sessionArea i) [(s.byte (sessionArea i)) &&& 0xFE]

end Sys2Proof.Machine
end

