-- ==== Sys2Proof/Machine/Flow.lean ====
section
/-! DEFINITION. The shared operations of the message path: Prompt buckets and conditions, cells of the frame buffer,
priority flow control, egress queues, and the delivery of headers (06 R193, R202, R213 to R225; 07 R233 to R238;
10 R334). -/

namespace Sys2Proof.Machine

/-! ### Conditions of the Prompt bound (07 R233, R234) -/

/-- A condition bit rises or clears; a rise is logged, raises Crier source 2, and both are recorded. -/
def State.setCond (s : State) (n : Nat) (on : Bool) : State :=
  let w := s.get Fld.PS_COND_COND
  if bitOf w n == on then s
  else
    let w' := if on then w + 2 ^ n else w - 2 ^ n
    let s := s.put Fld.PS_COND_COND w'
    let s := if on then
        let l := s.get Fld.PS_CONDLOG_COND
        (s.put Fld.PS_CONDLOG_COND (if bitOf l n then l else l + 2 ^ n)).edge 2
      else s
    s.record 0x10 1 ([BitVec.ofNat 8 n, BitVec.ofNat 8 (b2n on)] ++ leBytes 2 w')

/-- An event behind condition `n` occurred now: while service is enabled its bit rises. -/
def State.condEvent (s : State) (n : Nat) : State :=
  let s := s.modPrompt (fun x => { x with lastBad := tblPut x.lastBad n s.now })
  if s.flag Fld.PS_CTL_EN then s.setCond n true else s

/-! ### Token buckets (07 R236 to R238), in 1/16000 token -/

/-- One token. -/
def oneToken : Nat := 16000

/-- Log 50, DESIGN CHOICE. -/
def bucketFull (burst : Nat) : Nat := max 1 burst * oneToken

def State.dieFull (s : State) : Nat := bucketFull (s.cfg Fld.PS_DIEBUD_BURST)
def State.groupFull (s : State) (g : Nat) : Nat := bucketFull (s.cfg Fld.PS_GBUD_BURST (16 * g))
def State.portFull (s : State) (p : Nat) : Nat := bucketFull (s.cfg Fld.PS_PORT_BURST (4 * p))
def State.groupLevel (s : State) (g : Nat) : Nat := (tblGet s.prompt.groups g).getD (s.groupFull g)
def State.portLevel (s : State) (p : Nat) : Nat := (tblGet s.prompt.portsB p).getD (s.portFull p)

/-- A bucket listed as having run empty is full again. (log 53, DEDUCED) -/
def State.bucketIsFull (s : State) (b : Nat) : Bool :=
  if b = 0 then decide (s.dieFull ≤ s.prompt.die)
  else if b < 17 then decide (s.groupFull (b - 1) ≤ s.groupLevel (b - 1))
  else decide (s.portFull (b - 17) ≤ s.portLevel (b - 17))

/-- Bring every bucket up to the present. -/
def State.fillPrompt (s : State) : State :=
  let dt := s.now - s.prompt.tokAt
  if dt = 0 then s
  else
    let s := s.modPrompt (fun x => { x with
      tokAt := s.now,
      die := min s.dieFull (x.die + min 256 (s.cfg Fld.PS_DIEBUD_RATE) * dt),
      groups := x.groups.map (fun kv => (kv.1, min (s.groupFull kv.1)
        (kv.2 + s.cfg Fld.PS_GBUD_RATE (16 * kv.1) * dt))),
      portsB := x.portsB.map (fun kv => (kv.1, min (s.portFull kv.1)
        (kv.2 + s.cfg Fld.PS_PORT_RATE (4 * kv.1) * dt))) })
    s.modPrompt (fun x => { x with empty := x.empty.filter (fun b => !s.bucketIsFull b) })

/-- A frame found the bucket at this level: list it as run empty where it holds less than one token. (log 53, DEDUCED) -/
def State.noteEmpty (s : State) (b level : Nat) : State :=
  if level < oneToken then s.modPrompt (fun x => { x with empty := setIns x.empty b }) else s

/-- One token from the die bucket and one from the group's, or none from either (R236, R237). -/
def State.takeIngress (s : State) (g : Nat) : Bool × State :=
  let s := s.fillPrompt
  let d := s.prompt.die
  let l := s.groupLevel g
  if oneToken ≤ d ∧ oneToken ≤ l then
    (true, s.modPrompt (fun x => { x with
      die := d - oneToken, groups := tblPut x.groups g (l - oneToken) }))
  else (false, (s.noteEmpty 0 d).noteEmpty (1 + g) l)

/-- Length limit of port `p`'s Prompt frames: RSPMAX × 64 bytes, 0 acting as 32. -/
def State.rspMax (s : State) (p : Nat) : Nat :=
  let v := s.cfg Fld.PS_PORT_RSPMAX (4 * p)
  (if v = 0 then 32 else v) * 64

/-- A frame enters port `p`'s Prompt egress queue (R238). One that finds the bucket empty fails BUDGET until the bucket is full
again (R233). -/
def State.promptEgress (s : State) (p len : Nat) : State :=
  let s := s.fillPrompt
  let l := s.portLevel p
  let s :=
    if oneToken ≤ l then
      s.modPrompt (fun x => { x with portsB := tblPut x.portsB p (l - oneToken) })
    else (s.noteEmpty (17 + p) l).bump Fld.PS_OVEROUT_COUNT
  if s.rspMax p < len then s.condEvent 0 else s

/-! ### Ports in service (06 R186) -/

/-- The committed lane configuration makes the port and the Assay has not taken it out of service. -/
def State.portInService (s : State) (p : Nat) : Bool :=
  (match s.cfg Fld.PT_LANECFG_CFG with
    | 0 => true
    | 1 => p % 2 == 0
    | 2 => p % 4 == 0
    | _ => p == 0) && !bitOf (s.get Fld.AS_PORTOOS_MAP) p && decide (p < 8)

/-- Rate of a port in bits per ns. -/
def State.portRate (s : State) : Nat := 100 * 2 ^ s.cfg Fld.PT_LANECFG_CFG

/-! ### Cells and shares (06 R213 to R218) -/

/-- Cells of the managed area, less the 512 bytes of each withdrawn row (05 R164). -/
def State.managedCells (s : State) : Nat :=
  131072 - 16 * s.cfg Fld.PO_FBSW_UNITS - 2 * (s.assay.withdrawn.filter (fun u => unitClass u == 6)).length

def State.classUsed (s : State) (c : Nat) : Nat :=
  ((s.porter.held.filter (fun h => h.cls == c)).map (·.cells)).sum

def State.shareRes (s : State) (c : Nat) : Nat := 16 * s.cfg Fld.PO_SHARE_RES (4 * c)
def State.shareMax (s : State) (c : Nat) : Nat := 16 * s.cfg Fld.PO_SHARE_MAX (4 * c)

/-- Free cells of the shared pool (R214). -/
def State.freePool (s : State) : Nat :=
  (s.managedCells - ((List.range 4).map s.shareRes).sum) -
    ((List.range 4).map (fun c => s.classUsed c - s.shareRes c)).sum

/-- The class uses only its reservation (R215). -/
def State.sheds (s : State) (c : Nat) : Bool :=
  (c == 3 && decide (s.freePool < 16 * s.cfg Fld.PO_SHED_IDLE)) ||
    (c == 2 && decide (s.freePool < 16 * s.cfg Fld.PO_SHED_BULK))

/-- `n` cells of class `c` fit under the shares (R214, R215). -/
def State.fits (s : State) (c n : Nat) : Bool :=
  let u := s.classUsed c
  decide (u + n ≤ s.shareMax c) &&
    decide (n ≤ (s.shareRes c - u) + (if s.sheds c then 0 else s.freePool))

/-- `n` cells from `cell` on are managed and free, and no byte of them lies in a withdrawn row. (log 42, DESIGN CHOICE; log 71, DEDUCED) -/
def State.cellsFree (s : State) (cell n : Nat) : Bool :=
  decide (cell + n ≤ 131072 - 16 * s.cfg Fld.PO_FBSW_UNITS) &&
    (s.assay.withdrawn.isEmpty ||
      (List.range (4 * n)).all (fun i => !s.rowGone (frameBase + 256 * cell + 64 * i))) &&
    s.porter.held.all (fun h => decide (cell + n ≤ h.cell) || decide (h.cell + h.cells ≤ cell))

/-- The cells after those that a withdrawn row of the frame buffer touches (05 R154). -/
def afterRow (u : Nat) : List Nat :=
  let i := unitIndex u
  if unitClass u = 6 then (List.range 8).map (fun k => (i / 64 * 8 + k) * 16 + i % 64 / 4 + 1) else []

/-- Where a frame of `n` cells goes: the cell that the command offers where it is free, else the first place after a
held frame or a withdrawn row. (log 42, DESIGN CHOICE) -/
def State.findCells (s : State) (offer n : Nat) : Option Nat :=
  (offer :: 0 :: (s.porter.held.map (fun h => h.cell + h.cells) ++ s.assay.withdrawn.flatMap afterRow)).find?
    (fun c => s.cellsFree c n)

/-- Cells of a frame of `len` bytes. -/
def cellsOf (len : Nat) : Nat := max 1 ((len + 255) / 256)

/-- The Assured space, in cells (R216). -/
def State.assuredSpace (s : State) : Nat :=
  let u := s.classUsed 1
  (s.shareRes 1 - u) + min s.freePool (s.shareMax 1 - max u (s.shareRes 1))

/-! ### Sending pause (06 R193, R216) -/

/-- Send one PFC frame on a port: one in LPI wakes for it (R190). -/
def State.sendPfc (s : State) (p quanta : Nat) : State :=
  let s := if s.flag Fld.PT_STS_LPI (ptOff p) then s.put Fld.PT_STS_LPI 0 (ptOff p) else s
  (s.bump Fld.PT_PFCTX_COUNT 1 (ptOff p)).emit
    (.pfc p (BitVec.ofNat 8 (s.get Fld.PT_PFC_AEN (ptOff p))) (BitVec.ofNat 16 quanta))

/-- Bring one port's sending of pause up to date. -/
def State.pfcPort (s : State) (p : Nat) : State :=
  let x := s.port p
  let o := ptOff p
  let able := s.portInService p && s.flag Fld.PT_STS_LINK o && s.get Fld.PT_PFC_AEN o != 0
  let low := s.assuredSpace < 16 * s.cfg Fld.PO_AXOFF_XOFF
  let high := 16 * s.cfg Fld.PO_AXOFF_XON < s.assuredSpace
  let stopped := !s.flag Fld.PO_CTL_EN || s.holding || s.darkening
  if x.pausing then
    if !able then (s.setPort p { x with pausing := false }).put Fld.PT_STS_XOFF 0 o
    else if high && !stopped then ((s.setPort p { x with pausing := false }).put Fld.PT_STS_XOFF 0 o).sendPfc p 0
    else s
  else if able && (low || stopped) then
    ((s.setPort p { x with pausing := true, pauseAt := s.now }).put Fld.PT_STS_XOFF (s.get Fld.PT_PFC_AEN o) o).sendPfc p
      (s.get Fld.PT_PFC_QUANTA o)
  else s

def State.pfcUpdate (s : State) : State := foldN s (List.range 8) State.pfcPort

/-! ### Holding and freeing frames -/

/-- Put a frame's bytes into its cells and hold them; `rx` is the elapsed ns of its last bit, where it has one. -/
def State.holdFrame (s : State) (c cell : Nat) (bs : List Byte) (rx : Option Nat) : State :=
  let s := s.modPorter (fun x => { x with
    held := x.held ++ [{ cell := cell, cells := cellsOf bs.length, cls := c, rxAt := rx }] })
  (s.store none (frameBase + 256 * cell) bs).pfcUpdate

/-- Cells of `n` bytes of class `c` are allotted to a descriptor before its data has come (10 R338 step 2). -/
def State.allotCells (s : State) (c cell n : Nat) : State :=
  (s.modPorter (fun x => { x with held := x.held ++ [{ cell := cell, cells := cellsOf n, cls := c }] })).pfcUpdate

/-- The elapsed ns of the last bit of the frame whose first byte lies at offset `fboff`, or now for one not received. -/
def State.frameRx (s : State) (fboff : Nat) : Nat :=
  ((s.porter.held.find? (fun h => 256 * h.cell == fboff)).bind (·.rxAt)).getD s.now

def State.egressQ (s : State) (p c : Nat) : List TxFrame :=
  let x := s.port p
  match c with
  | 0 => x.q0
  | 1 => x.q1
  | 2 => x.q2
  | _ => x.q3

def State.setEgressQ (s : State) (p c : Nat) (q : List TxFrame) : State :=
  s.modPort p (fun x => match c with
    | 0 => { x with q0 := q }
    | 1 => { x with q1 := q }
    | 2 => { x with q2 := q }
    | _ => { x with q3 := q })

/-- Frames that an egress queue holds, and places of it that descriptors have taken (06 R225; 10 R338 step 2). -/
def State.egressUsed (s : State) (p c : Nat) : Nat :=
  (s.egressQ p c).length + (s.hqs.filter (fun kx => (kx.2.got.bind (·.tx)) == some (p, c))).length

/-- Every queued frame. -/
def State.queued (s : State) : List TxFrame :=
  s.ports.flatMap (fun kx => kx.2.q0 ++ kx.2.q1 ++ kx.2.q2 ++ kx.2.q3)

/-- An egress queue holds a frame to be read from a held frame's cells. -/
def State.heldInUse (s : State) (h : Held) : Bool :=
  s.queued.any (fun f => decide (f.addr < frameBase + 256 * (h.cell + h.cells)) &&
    decide (frameBase + 256 * h.cell < f.addr + f.len))

/-- Return the cells of freed frames that no egress queue needs; each return is measured (11 R360). -/
def State.purgeCells (s : State) : State :=
  let gone := s.porter.held.filter (fun h => h.freed && !s.heldInUse h)
  if gone.isEmpty then s
  else
    let s := s.modPorter (fun x => { x with held := x.held.filter (fun h => !gone.contains h) })
    (gone.foldl (fun s h => match h.rxAt with
      | some t => s.histAdd (1 + h.cls) (s.now - t)
      | none => s) s).pfcUpdate

/-- Free the frame whose first byte lies at offset `fboff` of the frame buffer (R218). -/
def State.freeFrame (s : State) (fboff : Nat) : State :=
  (s.modPorter (fun x => { x with
    held := x.held.map (fun h => if 256 * h.cell = fboff then { h with freed := true } else h) })).purgeCells

/-- A SEND of the thread has not been read yet (03 R94). -/
def State.sendsPending (s : State) (t : Nat) : Bool := s.queued.any (fun f => f.src == .thread t)

/-- Queue a frame for a port and class (06 R225); a Prompt frame that must wait for a frame over 2,048 bytes fails SIZE
(06 R227, 07 R233). -/
def State.enqueueTx (s : State) (p c : Nat) (f : TxFrame) : State :=
  let s := s.setEgressQ p c (s.egressQ p c ++ [f])
  if c = 0 then
    (let s := s.promptEgress p f.len
     if s.now < (s.port p).longUntil then s.condEvent 1 else s)
  else s

/-! ### Headers (06 R219) -/

/-- The 32 bytes of a header. -/
def Header.bytes (h : Header) : List Byte :=
  leBytes 4 h.fboff.toNat ++ leBytes 2 h.len.toNat ++
  [BitVec.ofNat 8 (h.port.toNat + 8 * h.cls.toNat + 32 * b2n h.late + 64 * b2n h.tagged + 128 * b2n h.foreign),
   BitVec.ofNat 8 (b2n h.noSess + 2 * b2n h.inserted + 4 * b2n h.vlan + 8 * b2n h.perr)] ++
  leBytes 4 h.session.toNat ++ leBytes 2 h.tagoff.toNat ++ leBytes 2 h.payoff.toNat ++ leBytes 8 h.rxts.toNat ++
  leBytes 4 h.expiry.toNat ++ leBytes 2 h.tci.toNat ++ [h.node, 0]

/-! ### Destinations (06 R202) -/

inductive Dest where
  | thread (t : Nat) | group (g : Nat) | prompt (g : Nat) | queue (q : Nat) | drop
  deriving DecidableEq, Repr

/-- A destination code; a reserved kind or a value out of range counts as drop. (log 39, DEDUCED) -/
def destOf (code : Nat) : Dest :=
  let v := code % 65536
  match code / 2 ^ 28 with
  | 0 => if v < 2048 then .thread v else .drop
  | 1 => if v < 64 then .group v else .drop
  | 2 => if v < 16 then .prompt v else .drop
  | 3 => if v < 16384 then .queue v else .drop
  | _ => .drop

/-- A thread that can take headers: neither Disabled nor on a retired core (06 R221, R223). -/
def State.takesHeaders (s : State) (t : Nat) : Bool :=
  (s.thr t).tstate != .disabled && !s.coreRetired (t / 4)

/-- Members of a dispatch group in service, in table order (06 R221). -/
def State.groupMembers (s : State) (g : Nat) : List Nat :=
  ((List.range 16).flatMap (fun i =>
    (if s.on Fld.PO_DG_V0 (64 * g + 4 * i) then [s.cfg Fld.PO_DG_T0 (64 * g + 4 * i)] else []) ++
    (if s.on Fld.PO_DG_V1 (64 * g + 4 * i) then [s.cfg Fld.PO_DG_T1 (64 * g + 4 * i)] else []))).filter s.takesHeaders

/-- The thread whose mailbox holds the fewest headers; among equals the lowest number. -/
def State.fewest (s : State) : List Nat → Option Nat
  | [] => none
  | t :: r =>
    match s.fewest r with
    | none => some t
    | some u =>
      let a := (s.thr t).mailbox.length
      let b := (s.thr u).mailbox.length
      if a < b ∨ (a = b ∧ t ≤ u) then some t else some u

/-- The member of a group that a header goes to. -/
def State.pickMember (s : State) (g : Nat) (h : Header) : Option Nat :=
  let ms := s.groupMembers g
  if bitOf (s.cfg Fld.PO_GMODE_HASH (4 * (g / 32))) (g % 32) && !h.noSess then
    ms[h.session.toNat % ms.length]?
  else s.fewest ms

/-! ### Completion-ring entries (10 R331, R333) -/

/-- The queue runs and is not stopping (10 R344). -/
def State.hqRun (s : State) (q : Nat) : Bool := s.flag Fld.HQ_STS_RUN (32 * q) && !s.link.stopping.contains q
def State.cqSize (s : State) (q : Nat) : Nat := 2 ^ s.cfg Fld.HQ_CFG_CQSZ (32 * q)
def State.slotSize (s : State) (q : Nat) : Nat := 256 * 2 ^ s.cfg Fld.HQ_CFG_SLOT (32 * q)
def State.sqSize (s : State) (q : Nat) : Nat := 2 ^ s.cfg Fld.HQ_CFG_SQSZ (32 * q)

/-- Entries that a completion with `len` bytes occupies. -/
def State.nslot (s : State) (q len : Nat) : Nat := max 1 ((len + s.slotSize q - 1) / s.slotSize q)

/-- Free entries of the CQ: one less than its size at most. -/
def State.cqRoom (s : State) (q : Nat) : Nat :=
  let n := s.cqSize q
  (n - 1) - (s.get Fld.HQ_CQPOS_TAIL (32 * q) + n - s.get Fld.HQ_CQPOS_HEAD (32 * q)) % n

/-- Allot `k` entries from CQTAIL: the first index and the phase in which it is written. (log 66, DEDUCED) -/
def State.cqAllot (s : State) (q k : Nat) : (Nat × Bool) × State :=
  let n := s.cqSize q
  let i := s.get Fld.HQ_CQPOS_TAIL (32 * q)
  let ph := (s.hq q).phase
  let s := s.put Fld.HQ_CQPOS_TAIL ((i + k) % n) (32 * q)
  ((i, ph), if n ≤ i + k then s.modHq q (fun x => { x with phase := !ph }) else s)

/-- The function that owns a queue may move data: its Bus Master Enable is 1 and the link is usable (10 R328, R344). -/
def State.hqMoves (s : State) (q : Nat) : Bool := s.linkUsable && (s.func (q / 2048)).bme && !(s.func (q / 2048)).d3

/-- A Prompt frame of `len` bytes for queue `q` can be admitted (10 R334). -/
def State.promptQueueOk (s : State) (q len : Nat) : Bool :=
  s.hqRun q && s.on Fld.HQ_CFG_PQ (32 * q) && decide (s.nslot q len ≤ s.cqRoom q) && s.hqMoves q

/-! ### Delivery (06 R220 to R223, 10 R334) -/

/-- The most headers in a mailbox, and places in Porter's held store. -/
def mailboxSize : Nat := 8
/-- Log 38, DESIGN CHOICE. -/
def storeSize : Nat := 256

/-- Places of Porter's held store in use: by headers, and by descriptors (06 R220; 10 R338 step 2). -/
def State.storeUsed (s : State) : Nat :=
  s.porter.store.length + (s.hqs.filter (fun kx => kx.2.got.any (·.place))).length

/-- Write a header to a mailbox; the Crier raises the mailbox event. -/
def State.postHeader (s : State) (t : Nat) (h : Header) : State :=
  (s.modThr t (fun th => { th with mailbox := th.mailbox ++ [h] })).msgEvent t

/-- The frame at an offset is dropped: the histograms do not measure it (11 R360). -/
def State.unmeasure (s : State) (fboff : Nat) : State :=
  s.modPorter (fun x => { x with
    held := x.held.map (fun h => if 256 * h.cell = fboff then { h with rxAt := none } else h) })

/-- Drop a header and its frame. -/
def State.dropHeader (s : State) (h : Header) (cnt : FieldRef) : State :=
  ((s.bump cnt).unmeasure h.fboff.toNat).freeFrame h.fboff.toNat

/-- Keep a header in Porter's held store. (log 38, DESIGN CHOICE) -/
def State.storeHeader (s : State) (t : Nat) (h : Header) : State :=
  s.modPorter (fun x => { x with store := x.store ++ [{ hdr := h, thread := t }] })

/-- An earlier held header of the same port and session is bound for the same thread (06 R222). -/
def State.heldBefore (s : State) (t : Nat) (h : Header) : Bool :=
  s.porter.store.any (fun x => x.thread == t && x.hdr.port == h.port && x.hdr.session == h.session)

/-- A header of class 2 or 3 finds no room at its thread: the mailbox is full, or the held store in which it would wait (R220). -/
def State.mailDrops (s : State) (t : Nat) (h : Header) : Bool :=
  decide (2 ≤ h.cls.toNat) &&
    (if s.gated (regionOfThread t) then decide (storeSize ≤ s.storeUsed)
     else decide (mailboxSize ≤ (s.thr t).mailbox.length) || (s.heldBefore t h && decide (storeSize ≤ s.storeUsed)))

/-- A header bound for a thread that takes headers. -/
def State.toThread (s : State) (t : Nat) (h : Header) : State :=
  let asleep := s.gated (regionOfThread t)
  let s1 := if asleep then s.askWake (regionOfThread t) else s
  if s.mailDrops t h then s1.dropHeader h Fld.PO_DROP_MBF_COUNT
  else if asleep || decide (mailboxSize ≤ (s.thr t).mailbox.length) || s.heldBefore t h then s1.storeHeader t h
  else s1.postHeader t h

/-- The thread to which a header of a destination goes finds no room for it. -/
def State.destDrops (s : State) (code : Nat) (h : Header) : Bool :=
  match destOf code with
  | .thread t => s.mailDrops t h
  | .group g => (s.pickMember g h).any (fun t => s.mailDrops t h)
  | _ => false

/-- The scheduler's places for waiting headers (07 R245). -/
def promptPlaces : Nat := 512

/-- The destination that a code comes to for a frame of class `c`: PO_DFLT replaces a thread that takes no headers and, but for
a Prompt frame, a queue that does not run; a group with no member in service counts as kind 4 (R221, R223; 10 R344). `fuel`
bounds the replacements. -/
def State.resolveDest (s : State) (c : Nat) : Nat → Nat → Nat
  | 0, _ => 0x40000000
  | fuel + 1, code =>
    match destOf code with
    | .thread t => if s.takesHeaders t then code else s.resolveDest c fuel (s.cfg Fld.PO_DFLT_DEST)
    | .group g => if (s.groupMembers g).isEmpty then 0x40000000 else code
    | .queue q => if c = 0 || s.hqRun q then code else s.resolveDest c fuel (s.cfg Fld.PO_DFLT_DEST)
    | .prompt _ => code
    | .drop => 0x40000000

/-- A held frame becomes one of class 0, as a destination of kind Prompt input group makes it (R201 rule 1). -/
def State.toClass0 (s : State) (fboff : Nat) : State :=
  s.modPorter (fun x => { x with
    held := x.held.map (fun h => if 256 * h.cell = fboff then { h with cls := 0 } else h) })

/-- Deliver an admitted frame's header to a destination; `fuel` bounds the replacements by PO_DFLT. (log 39, DEDUCED) -/
def State.deliver : Nat → State → Nat → Header → State
  | 0, s, _, h => s.dropHeader h Fld.PO_DROP_DEST_COUNT
  | fuel + 1, s, code, h =>
    match destOf code with
    | .drop => s.dropHeader h Fld.PO_DROP_DEST_COUNT
    | .thread t =>
      if s.takesHeaders t then s.toThread t h else s.deliver fuel (s.cfg Fld.PO_DFLT_DEST) h
    | .group g =>
      match s.pickMember g h with
      | some t => s.toThread t h
      | none => s.dropHeader h Fld.PO_DROP_DEST_COUNT
    | .prompt g =>
      if promptPlaces ≤ s.prompt.waiting.length then (s.dropHeader h Fld.PO_DROP_P_COUNT).condEvent 0
      else (s.toClass0 h.fboff.toNat).modPrompt (fun x => { x with
        waiting := x.waiting ++ [{ hdr := { h with cls := 0 }, group := g, since := s.now, rxAt := s.frameRx h.fboff.toNat }] })
    | .queue q =>
      if h.cls = 0 then
        if s.promptQueueOk q h.len.toNat then
          let r := s.cqAllot q (s.nslot q h.len.toNat)
          r.2.modHq q (fun x => { x with rx := x.rx ++ [{ hdr := h, slot := some r.1 }] })
        else (s.dropHeader h Fld.PO_DROP_P_COUNT).condEvent 0
      else if s.hqRun q then s.modHq q (fun x => { x with rx := x.rx ++ [{ hdr := h }] })
      else s.deliver fuel (s.cfg Fld.PO_DFLT_DEST) h

/-- Send held headers whose thread no longer takes headers to PO_DFLT (06 R223). -/
def State.redirectHeld (s : State) : State :=
  let out := s.porter.store.filter (fun x => !s.takesHeaders x.thread)
  if out.isEmpty then s
  else
    let s := s.modPorter (fun x => { x with store := x.store.filter (fun y => s.takesHeaders y.thread) })
    out.foldl (fun s x => s.deliver 3 (s.cfg Fld.PO_DFLT_DEST) x.hdr) s

end Sys2Proof.Machine
end

