-- ==== Sys2Proof/Machine/Pairs.lean ====
section
/-! DEFINITION. Twin pairs: when they can serve, substitution, the Accord's checks, and what ends a run
(07 R243, R248, R252; 08 R266 to R275, R468; 04 R147 to R149). -/

namespace Sys2Proof.Machine

/-! ### Serviceable pairs and substitution -/

/-- The Attar copy of a cluster is loaded (13 R428). -/
def State.copyLoaded (s : State) (cl : Nat) : Bool := bitOf (s.get Fld.AT_LOADED_MAP (4 * (cl / 32))) (cl % 32)

/-- A core can serve in a pair. -/
def State.twinOk (s : State) (c : Nat) : Bool :=
  !s.coreRetired c && !(s.core c).tested && s.copyLoaded (c / 8) && decide (s.pstate (c / 64) ≤ 1)

/-- A serviceable pair (01 R25). -/
def State.pairServiceable (s : State) (p : Nat) : Bool :=
  s.meteredRole && s.twinOk (pairCores p).1 && s.twinOk (pairCores p).2

/-- Entry `i` of a slot bank: its pair and its group, where it is valid (07 R243). -/
def State.slotEntry (s : State) (bank i : Nat) : Option (Nat × Nat) :=
  let w := bitsGet (s.reg ((if bank = 0 then Reg.PS_BA else Reg.PS_BB) + 4 * (i / 2))) (16 * (i % 2)) 16
  if bitOf w 15 then some (w % 64, w / 64 % 16) else none

/-- A bank names the pair. -/
def State.pairNamed (s : State) (p : Nat) : Bool :=
  (List.range 256).any (fun i => (s.slotEntry 0 i).any (fun e => e.1 == p) || (s.slotEntry 1 i).any (fun e => e.1 == p))

/-- The pair that serves the slots naming `p`: its substitute, or itself (R252). -/
def State.serving (s : State) (p : Nat) : Nat :=
  let w := s.reg (Reg.PS_SUB + 4 * (p / 4))
  if w.getLsbD (8 * (p % 4) + 7) then bitsGet w (8 * (p % 4)) 6 else p

/-- The pair is in the spare set in effect. (log 44, DEDUCED) -/
def State.isSpare (s : State) (p : Nat) : Bool := bitOf (s.cfg Fld.PS_SPARE_SPARE (4 * (p / 32))) (p % 32)

/-- The scheduler sets or clears a pair's spare bit, in effect and in the shadow (R252). -/
def State.setSpare (s : State) (p : Nat) (on : Bool) : State :=
  let a := Reg.PS_SPARE + 4 * (p / 32)
  (s.setReg a (bitsSet (s.reg a) (p % 32) 1 (b2n on))).setEff a (bitsSet (s.effReg a) (p % 32) 1 (b2n on))

/-- PS_SUB records the substitute of a pair. -/
def State.setSub (s : State) (p q : Nat) : State :=
  let a := Reg.PS_SUB + 4 * (p / 4)
  s.setReg a (bitsSet (s.reg a) (8 * (p % 4)) 8 (q + 128))

/-- Substitute one named pair by the lowest serviceable spare, if there is one. -/
def State.substituteOne (s : State) (p : Nat) : State :=
  match (List.range 64).find? (fun q => s.isSpare q && q != s.serving p && s.pairServiceable q) with
  | some q => (s.setSpare q false).setSub p q
  | none => s

/-- A pair can no longer serve: substitute every named pair whose slots it serves (R252). -/
def State.substitute (s : State) (x : Nat) : State :=
  foldN s ((List.range 64).filter (fun p => s.serving p == x && s.pairNamed p)) State.substituteOne

/-- A pair freed by a transient verdict becomes a spare, unless it still serves its own slots (R252). (log 44, DEDUCED) -/
def State.freePair (s : State) (x : Nat) : State :=
  if (List.range 64).any (fun p => s.serving p == x && s.pairNamed p) then s else s.setSpare x true

/-! ### Beats -/

/-- The period, in ps, that a value of PS_BEAT.PS gives (04 R146). -/
def beatOf (ps : Nat) : Nat := min 1600 (max 800 ps)

/-- The beat period in effect, in ps (04 R146). (log 37, DEDUCED) -/
def State.beatPs (s : State) : Nat := beatOf (s.cfg Fld.PS_BEAT_PS)

/-- Elapsed ps of the next boundary of the beat series of period `p`. -/
def State.nextBeat (s : State) (p : Nat) : Nat :=
  let n := s.now * 1000
  if n ≤ s.prompt.seriesAt then s.prompt.seriesAt else s.prompt.seriesAt + (n - s.prompt.seriesAt + p - 1) / p * p

/-- Count the beats of a word of a Metered run (04 R147). (log 46, DEDUCED) -/
def State.addBeats (s : State) (t n : Nat) : State :=
  if (s.thr t).mode then s.modCore (t / 4) (fun c => { c with beats := c.beats + n, overrun := false }) else s

/-- Beats that a core has waited beyond those counted: a word that overran its beats ends at the first boundary after its
completion (04 R148). (log 37, DEDUCED; log 46, DEDUCED) -/
def State.lateBeats (s : State) (c : Nat) : Nat :=
  let k := s.core c
  let done := k.runAt * 1000 + (k.beats + k.late) * s.beatPs
  k.late + (if done < s.now * 1000 then (s.now * 1000 - done + s.beatPs - 1) / s.beatPs else 0)

/-- A word of `n` beats ends: its beats are counted, and those that it waited for after an overrun. -/
def State.endWord (s : State) (t n : Nat) : State :=
  let late := (s.thr t).mode && (s.core (t / 4)).overrun
  let s := s.addBeats t n
  if late then s.modCore (t / 4) (fun c => { c with late := s.lateBeats (t / 4) }) else s

/-- A Metered word waits for a wake or a frozen arbiter: a held access and a beat overrun, counted once for the word;
HANDLER fails (04 R148, 07 R233). (log 46, DEDUCED) -/
def State.heldAccess (s : State) (t : Nat) : State :=
  let c := t / 4
  if (s.thr t).mode && !(s.core c).overrun then
    let s := s.modCore c (fun k => { k with overrun := true })
    let s := (s.put Fld.CO_SLACK_MINPS 0 (coOff c)).put Fld.CO_STS_BOVR 1 (coOff c)
    let s := s.bump Fld.CO_STS_BOVRCNT 1 (coOff c)
    s.condEvent 2
  else s

/-! ### What ends a run -/

/-- Empty one core's commit buffer and beat counter. -/
def State.clearRun (s : State) (c : Nat) : State :=
  s.modCore c (fun k => { k with cbuf := [], scHit := [], beats := 0, late := 0, doneAt := none, overrun := false })

/-- Both buffers of a pair are discarded. -/
def State.discardBuffers (s : State) (p : Nat) : State := (s.clearRun (pairCores p).1).clearRun (pairCores p).2

/-- Thread 0 of a core returns to Metered idle. -/
def State.idleTwin (s : State) (c : Nat) : State :=
  (s.modThr (4 * c) (fun th => { th with tstate := .meteredIdle, cur := none, resume := none })).haltRefresh (c / 8)

/-- The pair returns to Metered idle. -/
def State.pairIdle (s : State) (p : Nat) : State :=
  ((s.idleTwin (pairCores p).1).idleTwin (pairCores p).2).modPair p
    (fun x => { x with phase := .idle, msg := none, second := false })

/-- A waiting header goes to its group's fallback as a class-0 header (07 R248). -/
def State.toFallback (s : State) (m : PromptMsg) : State :=
  let s := s.bump Fld.PS_FALLBK_COUNT
  let code := s.cfg Fld.PS_GFB_DEST (16 * m.group)
  s.deliver 3 (if code / 2 ^ 28 = 2 then 0x40000000 else code) { m.hdr with cls := 0 }

/-- The final discard of a run: the buffers are discarded, the header goes to the fallback, the pair is idle
(08 R273, R274). -/
def State.finalDiscard (s : State) (p : Nat) : State :=
  let m := (s.pair p).msg
  let s := (s.discardBuffers p).pairIdle p
  match m with
  | some m => s.toFallback m
  | none => s

/-- A disagreement of the pair: recorded and reported; the first stops the run, the second discards it (08 R272,
R273). (log 46, DEDUCED) -/
def State.disagree (s : State) (p kind entry beats : Nat) : State :=
  let x := s.pair p
  let g := (x.msg.map (·.group)).getD 0
  let s := s.setReg Reg.AS_ACCLOG0
    (BitVec.ofNat 32 (p + g * 64 + b2n x.second * 1024 + kind * 2048 + entry * 8192))
  let s := if x.second then s else s.setReg Reg.AS_ACCLOG1 (BitVec.ofNat 32 (beats % 8192))
  let s := s.setReg Reg.AS_ACCT_LO (s.tb.now.setWidth 32)
  let s := s.setReg Reg.AS_ACCT_HI ((s.tb.now >>> 32).setWidth 32)
  let s :=
    if x.second then s.finalDiscard p
    else (s.discardBuffers p).modPair p (fun x => { x with phase := .stopped, endAt := s.now })
  s.report (unitOf 15 p) 2 0

/-! ### The Accord's checks (08 R268) -/

/-- The index of the first entry in which two buffers differ, among those that both hold. (log 28, DEDUCED) -/
def firstDiff : List CbEntry → List CbEntry → Nat → Option Nat
  | a :: x, b :: y, i => if a = b then firstDiff x y (i + 1) else some i
  | _, _, _ => none

/-- One bit of the CRC-64 with polynomial 0x42F0E1EBA9EA3693. -/
def crc64Step (c : Word) : Word := if c.getLsbD 63 then (c <<< 1) ^^^ 0x42F0E1EBA9EA3693#64 else c <<< 1

def crc64Byte (c : Word) (b : Byte) : Word :=
  crc64Step (crc64Step (crc64Step (crc64Step (crc64Step (crc64Step (crc64Step (crc64Step
    (c ^^^ (b.setWidth 64 <<< 56)))))))))

/-- Log 36, DEDUCED. -/
def crc64 (bs : List Byte) : Word := bs.foldl crc64Byte 0

/-- The signature of a run: over g1 to g31, HELD and the beat count. (log 36, DEDUCED) -/
def signature (th : Thread) (beats : Nat) : Word :=
  crc64 ((List.range 31).flatMap (fun i => leBytes 8 (th.get (BitVec.ofNat 5 (i + 1))).toNat) ++
    leBytes 2 th.held.toNat ++ leBytes 4 beats)

/-- The entries of a running core that stand: a newest entry that is a data write may still merge (R267). (log 28, DEDUCED) -/
def settled (buf : List CbEntry) : List CbEntry :=
  match buf.getLast? with
  | some e => if e.kind = 0 then buf.dropLast else buf
  | none => buf

/-- The checks that the present buffers and DONEs of a running pair allow. A newest entry that may still merge is taken by
the entry check only once both have issued DONE. (log 28, DEDUCED) -/
def State.accordCheck (s : State) (p c : Nat) : State :=
  let a := s.core (pairCores p).1
  let b := s.core (pairCores p).2
  if (s.pair p).phase != .running then s
  else
    let beats := (s.core c).beats
    match a.doneAt, b.doneAt with
    | some x, some y =>
      if x.1 + 8 < y.1 ∨ y.1 + 8 < x.1 then s.disagree p 1 0 beats
      else match firstDiff a.cbuf b.cbuf 0 with
      | some i => s.disagree p 0 i beats
      | none =>
        if a.cbuf.length ≠ b.cbuf.length then s.disagree p 2 0 beats
        else if x.2 ≠ y.2 then s.disagree p 3 0 beats
        else s.modPair p (fun r => { r with phase := .releasing, endAt := s.now, sent := false })
    | _, _ =>
      match firstDiff (settled a.cbuf) (settled b.cbuf) 0 with
      | some i => s.disagree p 0 i beats
      | none => s

/-- The Accord looks at the pair of a Metered thread after a word. -/
def State.accordScan (s : State) (t : Nat) : State :=
  if (s.thr t).mode then
    match pairOf (t / 4) with
    | some p => s.accordCheck p (t / 4)
    | none => s
  else s

end Sys2Proof.Machine
end

