-- ==== Sys2Proof/Machine/Threads.lean ====
section
/-! DEFINITION. Thread states, the loop buffer, exception and interrupt entry, thread reset, and how a command runs
one instruction word (04 R116 to R144, 09 R308 to R312). -/

namespace Sys2Proof.Machine

/-! ### The loop buffer (04 R120, R121) -/

/-- The loop buffer of thread `t`'s core disengages if `t` owns it. -/
def State.lbDrop (s : State) (t : Nat) : State :=
  match (s.core (t / 4)).lb with
  | some l => if l.owner = t % 4 then s.modCore (t / 4) (fun c => { c with lb := none }) else s
  | none => s

/-- The loop buffer of a core disengages. -/
def State.lbClear (s : State) (c : Nat) : State :=
  match (s.core c).lb with
  | some _ => s.modCore c (fun k => { k with lb := none })
  | none => s

/-- The words of the loop from `lo` to `hi` that the buffer captures, by address (R120). -/
def State.loopWords (s : State) (t : Nat) (lo hi : Word32) : Tbl Word32 :=
  (List.range ((hi.toNat - lo.toNat) / 4 + 1)).filterMap (fun i =>
    (s.peekInstr t (lo.toNat + 4 * i)).map (fun w => (lo.toNat + 4 * i, w)))

/-- Whether a word lies in a loop from `lo` to `hi`. -/
def inLoop (lo hi a : Word32) : Bool := decide (lo.toNat ≤ a.toNat) && decide (a.toNat ≤ hi.toNat)

/-- A control transfer of thread `t` to `tgt`: candidates whose loop it leaves are forgotten, and the owner that leaves
the loop gives up the buffer. -/
def State.lbTransfer (s : State) (t : Nat) (tgt : Word32) : State :=
  let s := if (s.thr t).lbCand.isEmpty then s
    else s.modThr t (fun th => { th with lbCand := th.lbCand.filter (fun c => inLoop c.2 c.1 tgt) })
  match (s.core (t / 4)).lb with
  | some l => if l.owner == t % 4 && !inLoop l.first l.last tgt then s.lbDrop t else s
  | none => s

/-- A thread must take a loop branch twice again to engage the buffer (R122). -/
def State.dropCand (s : State) (t : Nat) : State :=
  if (s.thr t).lbCand.isEmpty then s else s.modThr t (fun th => { th with lbCand := [] })

/-- Thread `t` takes the B or conditional branch at `pc` to `tgt`. -/
def State.lbTaken (s : State) (t : Nat) (pc tgt : Word32) : State :=
  let s := s.lbTransfer t tgt
  let c := t / 4
  if tgt.toNat ≤ pc.toNat ∧ pc.toNat ≤ tgt.toNat + 252 then
    match (s.core c).lb with
    | some l =>
      if l.owner = t % 4 ∧ l.last = pc ∧ l.ending then s.lbDrop t else s
    | none =>
      if (s.thr t).lbCand.contains (pc, tgt) then
        (if s.on Fld.CO_CTL_LBEN (coOff c) then
          (foldN s [4 * c, 4 * c + 1, 4 * c + 2, 4 * c + 3] State.dropCand).modCore c
            (fun k => { k with lb := some ⟨t % 4, tgt, pc, false, s.loopWords t tgt pc⟩ })
        else s)
      else s.modThr t (fun th => { th with lbCand := (pc, tgt) :: th.lbCand })
  else s

/-- Thread `t` does not take the conditional branch at `pc`. -/
def State.lbNotTaken (s : State) (t : Nat) (pc : Word32) : State :=
  let s := if (s.thr t).lbCand.isEmpty then s
    else s.modThr t (fun th => { th with lbCand := th.lbCand.filter (fun c => c.1 != pc) })
  match (s.core (t / 4)).lb with
  | some l => if l.owner = t % 4 ∧ l.last = pc then s.lbDrop t else s
  | none => s

/-- An ISTORE of a thread of the core to an address inside the loop ends it at the next loop branch. -/
def State.lbStore (s : State) (c : Nat) (a : Word32) : State :=
  match (s.core c).lb with
  | some l => if inLoop l.first l.last a then s.modCore c (fun k => { k with lb := some { l with ending := true } }) else s
  | none => s

/-! ### Fetched words (04 R123, R124) -/

/-- An ISTORE of thread `t` to `a` leaves the words that fetch queues of its core hold: the four words from PC on of another
thread, the four after the ISTORE of its own; `old` is what they held. (log 20, DESIGN CHOICE) -/
def State.queueKeep (s : State) (t a : Nat) (old : Option Word32) : State :=
  match old with
  | none => s
  | some w => foldN s ((List.range 4).map (fun i => t / 4 * 4 + i)) (fun s u =>
      let th := s.thr u
      let first := th.pc.toNat + (if u = t then 4 else 0)
      if th.tstate != .disabled && decide (first ≤ a) && decide (a < first + 16) && (tblGet th.fetchQ a).isNone then
        s.modThr u (fun h => { h with fetchQ := tblPut h.fetchQ a w })
      else s)

/-- The word that the engaged loop buffer of thread `t` holds at an address. -/
def State.loopWord (s : State) (t a : Nat) : Option Word32 :=
  match (s.core (t / 4)).lb with
  | some l => if l.owner = t % 4 then tblGet l.words a else none
  | none => none

/-- The word at PC as the thread fetches it: from the loop buffer that it owns, from its fetch queue, or from the
instruction space (04 R120, R123). (log 20, DESIGN CHOICE) -/
def fetchWord (t a : Nat) : M Word32 := fun s =>
  match s.loopWord t a <|> tblGet (s.thr t).fetchQ a with
  | some w => .ok w s
  | none => readInstr t a true s

/-! ### Thread states -/

/-- What a word in progress holds is given up: its host read, its place at an arbiter, its first half. -/
def Thread.drop (th : Thread) : Thread :=
  { th with hostRd := none, hostGot := [], waiting := none, halfDone := false, fetchQ := [] }

/-- Clear the thread's reservation. -/
def State.dropResv (s : State) (t : Nat) : State := { s with resvs := s.resvs.filter (fun r => decide (r.1 ≠ t)) }

/-- Words of CO_XCAUSE and the fault-address pairs (04, core registers). -/
def State.setCause (s : State) (t : Nat) (x : Raise) (failed : Bool) : State :=
  let o := thOff t
  let s := s.setReg (Reg.CO_XCAUSE + o)
    (BitVec.ofNat 32 (x.vector.toNat + b2n x.slotB * 64 + b2n failed * 128 + b2n x.split * 256))
  let s := match x.addr0 with
    | some a => (s.setReg (Reg.CO_XADDR0_LO + o) (a.setWidth 32)).setReg (Reg.CO_XADDR0_HI + o) ((a >>> 32).setWidth 32)
    | none => s
  match x.addr1 with
  | some a => (s.setReg (Reg.CO_XADDR1_LO + o) (a.setWidth 32)).setReg (Reg.CO_XADDR1_HI + o) ((a >>> 32).setWidth 32)
  | none => s

/-- A failed entry: the thread halts, no register changes (04 R134). -/
def State.haltThread (s : State) (t : Nat) (x : Raise) : State :=
  let s := s.setCause t x true
  let s := s.lbDrop t
  let s := s.modThr t (fun th => { th.drop with tstate := .halted, waitAt := none, far := none, resume := none })
  (s.leaveArbs t).haltRefresh (t / 32)

/-! ### Entry (04 R129 to R135) -/

/-- Run `m`; a raise inside it is renamed to carry the address `a`. -/
def atAddr {α : Type} (a : Nat) (m : M α) : M α := fun s =>
  match m s with
  | .error (.raise x) s' => .error (.raise { x with addr0 := some (BitVec.ofNat 64 a) }) s'
  | r => r

/-- Store the frame's words in ascending order. (log 25, DEDUCED) -/
def storeFrame (t : Nat) : Nat → List Nat → M Unit
  | _, [] => pure ()
  | a, v :: r => do
    atAddr a (storeNat t a 8 v)
    storeFrame t (a + 8) r

/-- In Metered mode the frame must lie in the own data SRAM (04 R144). -/
def frameAllowed (t f : Nat) : M Unit := fun s =>
  if (s.thr t).mode && !(dRegion f == .dsram && dRegion (f + 63) == .dsram) then
    .error (.raise { vector := xDataProt, addr0 := some (BitVec.ofNat 64 f) }) s
  else .ok () s

/-- Read entry `v` of the vector table: the handler's address. Entries of the boot ROM count as aligned. -/
def readVector (t v : Nat) : M Word32 := do
  let th ← look (fun s => s.thr t)
  let a := (th.vbase.toNat + 4 * v) % 2 ^ 32
  let w ← atAddr a (readInstr t a true)
  if iRegion a == .rom then pure (w &&& 0xFFFFFFFC#32)
  else if w.toNat % 4 = 0 then pure w
  else raiseA xAlign a

/-- Steps 2 of R132: store the 64-byte frame at sp − 64 and read the vector; answers the handler's address. (log 25, DEDUCED) -/
def entryFrame (t : Nat) (v : Nat) (pc st : Word32) : M Word32 := do
  let th ← look (fun s => s.thr t)
  let f := (th.sp - 64).toNat
  frameAllowed t f
  storeFrame t f [pc.toNat, st.toNat + v * 2 ^ 32, th.lk.toNat, (th.get 1).toNat, (th.get 2).toNat,
    (th.get 3).toNat, (th.get 4).toNat, (th.get 5).toNat]
  readVector t v

/-- ST as the frame holds it: with MIP and MPROG as the micro-routine recorded them. -/
def frameSt (th : Thread) (mprog : Option Nat) : Word32 :=
  match mprog with
  | some k => bitsSet (bitsSet th.st 8 1 1) 12 12 k
  | none => bitsSet (bitsSet th.st 8 1 0) 12 12 0

/-- The ROM routine behind entries 1 to 63 of the ROM's vector table: LG_BOOT.STATE 3 with ERR 8, and the steward in
WAIT (13 R422). -/
def State.romRoutine (s : State) (t v : Nat) : State :=
  if t = steward ∧ v ≠ 0 ∧ (s.thr t).vbase = 0xFFFF0000#32 then
    (s.bootState 3 8).modThr t (fun th => { th with tstate := .wait, waitAt := some (s.now, false) })
  else s

/-- Steps 3 to 5 of R132: sp, ST, the reservation, CO_XCAUSE and the handler's first word. -/
def State.enterHandler (s : State) (t : Nat) (x : Raise) (il : Option Nat) (handler : Word32) : State :=
  let s := s.modThr t (fun th =>
    let st := bitsSet (bitsSet th.st 8 1 0) 12 12 0
    let st := match il with
      | some v => bitsSet st 4 4 v
      | none => st
    { (th.set 30 (th.sp - 64)).drop with
      st := st, pc := handler, waitAt := none, far := none, resume := none,
      tstate := if th.tstate == .meteredRun then .meteredRun else .ready })
  ((((s.leaveArbs t).dropResv t).lbDrop t).setCause t x false).romRoutine t x.vector.toNat

/-- Taking an exception: the frame names `pc`; a failed entry halts the thread. -/
def takeException (t : Nat) (x : Raise) (pc : Word32) (mprog : Option Nat) : M Unit := fun s =>
  match entryFrame t x.vector.toNat pc (frameSt (s.thr t) mprog) s with
  | .ok h s' => .ok () (s'.enterHandler t x none h)
  | .error (.raise y) s' => .ok () (s'.haltThread t { vector := x.vector, addr0 := y.addr0 })
  | .error (.wait w) s' => .error (.wait w) s'

/-! ### Thread reset (04 R136) -/

/-- The register part of a thread reset, with MODE as given. -/
def State.resetRegs (s : State) (t : Nat) (mode : Bool) : State :=
  let s := s.releaseClaims t
  let s := ((s.leaveArbs t).dropResv t).lbDrop t
  s.modThr t (fun th => { th.drop with
    regs := Vector.replicate 32 0, held := 0, wtmo := 0, spin := none, waitAt := none, far := none,
    resume := none, lbCand := [], claims := [],
    st := BitVec.ofNat 32 (b2n mode + 8 * b2n (t == steward)) })

/-- A thread reset: registers, then vector table entry 0; a failed fetch halts the thread. (log 45, DESIGN CHOICE) -/
def threadReset (t : Nat) : M Unit := fun s =>
  let metered := s.coreMetered (t / 4) && t % 4 == 0
  let s := s.resetRegs t metered
  match readVector t 0 s with
  | .ok h s' =>
    .ok () ((s'.modThr t (fun th => { th with pc := h, tstate := .ready })).haltRefresh (t / 32))
  | .error (.raise y) s' => .ok () (s'.haltThread t { vector := 0, addr0 := y.addr0 })
  | .error (.wait w) s' => .error (.wait w) s'

/-- The reset of thread 0 in the Metered role, which returns it to Metered idle (04 R136). -/
def State.meteredReset (s : State) (t : Nat) : State :=
  ((s.resetRegs t true).modThr t (fun th => { th with tstate := .meteredIdle })).haltRefresh (t / 32)

/-- A thread becomes Disabled (04 R116, 09 R312). -/
def State.disableThread (s : State) (t : Nat) : State :=
  let s := ((s.leaveArbs t).releaseClaims t).lbDrop t
  (s.modThr t (fun th => { th.drop with tstate := .disabled, waitAt := none, far := none })).haltRefresh (t / 32)

/-! ### Running one word -/

/-- Host read tags that cores hold (05 R185, TL_HOSTRD.CORE). -/
def State.coreTags (s : State) : Nat := (s.threads.filter (fun kv => kv.2.hostRd.isSome)).length

/-- Tags that a function's enabled tag width gives it: 14, 10, or else 8 bits (10 R319, R347). (log 67, PRESUMED) -/
def State.tagLimit (s : State) (fn : Nat) : Nat :=
  match (s.func fn).tags.toNat with
  | 14 => 16384
  | 10 => 1024
  | _ => 256

/-- Tags that the engines' read for a queue holds. -/
def HQ.readTags (x : HQ) : Nat := (x.reading.map (·.2)).getD 0

/-- Host read tags that the engines hold (05 R185, TL_HOSTRD.ENGINE). (log 114, DEDUCED) -/
def State.engineTags (s : State) : Nat := (s.hqs.map (fun kx => kx.2.readTags)).sum

/-- Tags of a function in use: by reads of threads, and by reads of the engines for its queues (10 R319, R347). -/
def State.tagsOf (s : State) (fn : Nat) : Nat :=
  (s.threads.filter (fun kv => (kv.2.hostRd.map (·.fn)) == some fn)).length +
    ((s.hqs.filter (fun kx => decide (kx.1 / 2048 = fn))).map (fun kx => kx.2.readTags)).sum

/-- The word of thread `t` has issued and waits (04 R131). -/
def State.setWaiting (s : State) (t : Nat) (i : Instr) : State := s.modThr t (fun th => { th with waiting := some i })

/-- A word that must wait: ask for the region's wake, take its place at the arbiter, send the host read, or only be given
again. What it had done is undone, but for its spin timer (03 R83) and the first half of a split store (04 R127), which
stand. (log 17, DESIGN CHOICE) -/
def State.park (s : State) (t : Nat) (i : Instr) (w : WaitFor) : State :=
  match w with
  | .region r => ((s.heldAccess t).askWake r).setWaiting t i
  | .grant a u => ((if s.arbFrozen a then s.heldAccess t else s).enrol t a u).setWaiting t i
  | .turn => s
  | .read fn pa va len =>
    let cl := t / 32
    let mine := (s.threads.filter (fun kv => decide (kv.1 / 32 = cl) && kv.2.hostRd.isSome)).length
    if 56 ≤ mine ∨ 3584 ≤ s.coreTags ∨ s.tagLimit fn ≤ s.tagsOf fn then
      -- a word that has already read a part has issued
      (if (s.thr t).hostGot.isEmpty then s else s.setWaiting t i)
    else
      let s := s.modThr t (fun th => { th with
        hostRd := some { instr := i, va := va, fn := fn, pa := pa, len := len, sentAt := s.now } })
      s.sendRead fn pa len (match s.window va with
        | some n => s.winAttr n
        | none => {})

/-- What a word that waits keeps of what it did. (log 17, DESIGN CHOICE) -/
def State.keptBy (s' s : State) (t : Nat) (w : WaitFor) : State :=
  if w = .turn then s
  else if (s'.thr t).halfDone then s'
  else if (s'.thr t).spin = (s.thr t).spin then s
  else s.modThr t (fun th => { th with spin := (s'.thr t).spin })

/-- The thread may issue a word: its state issues words, its region is awake and its core neither under test nor
retired, its Attar copy is not being written, and no host read of it is outstanding (04 R116; 08 R279, R283; 13 R429). A Metered thread issues while its pair
runs. (log 4, DESIGN CHOICE; log 16, DESIGN CHOICE; log 142, DESIGN CHOICE) -/
def State.canIssue (s : State) (t : Nat) : Bool :=
  let th := s.thr t
  th.hostRd.isNone && s.awake t && !s.coreRetired (t / 4) && !s.copyWriting (t / 32) &&
  (th.tstate == .ready ||
    (th.tstate == .meteredRun && (match pairOf (t / 4) with
      | some p => (s.pair p).phase == .running
      | none => false)))

/-- What a word's meaning answers: the next word, or a jump; and, for a micro-routine, the step at which it stops. (log 26, DEDUCED) -/
inductive Next where
  | seq
  | jump (pc : Word32)
  | stay (step : Nat)
  | resumeAt (pc : Word32) (step : Nat)
  deriving DecidableEq, Repr

/-- The operands of MOVB and FILLB that 03 R95 makes Illegal. -/
def blockIllegal : Instr → Bool
  | .movb _ rd ra rb _ => rb != 0 && (rb == rd || rb == ra)
  | .fillb _ rd _ rb _ => rb != 0 && rb == rd
  | _ => false

/-- The beats of a word that raised an exception: 1 where decode raised it, else its full count (04 R144, R151). ERET and a
micro-routine raise Illegal as they execute. -/
def raiseBeats (full : Nat) (i : Instr) (x : Raise) : Nat :=
  if x.vector == 2 then 1
  else if x.vector == 1 then (match i with
    | .eret _ => full
    | .callm _ _ _ _ | .retm _ _ _ | .tas _ _ _ _ => full
    | .movb _ _ _ _ _ | .fillb _ _ _ _ _ => if blockIllegal i then 1 else full
    | _ => 1)
  else full

/-- The word that an exception frame names: the word itself, or the following one for TRAP (03 R71). (log 24, DEDUCED) -/
def framePc (th : Thread) (x : Raise) : Word32 := if x.vector == 15 then th.pc + 4 else th.pc

/-- A micro-routine that goes on clears MIP and MPROG, which ERET set (04 R140). -/
def Thread.unMip (th : Thread) : Thread :=
  if th.mip then { th with st := bitsSet (bitsSet th.st 8 1 0) 12 12 0 } else th

/-- Finish a word that completed. -/
def State.finish (s : State) (t : Nat) (n : Next) : State :=
  s.modThr t (fun th => match n with
    | .seq => { th.unMip with pc := th.pc + 4, hostGot := [], resume := none, waiting := none, halfDone := false }
    | .jump pc => { th.unMip.drop with pc := pc, resume := none }
    | .stay k => { th.unMip with hostGot := [], resume := some k, waiting := none, halfDone := false }
    | .resumeAt pc k => { th.drop with pc := pc, resume := some k, micro := { th.micro with live := false } })

/-- The word that a thread's command runs is the one that has issued and waits, where one does: an instruction word by its
bits, another command by itself. -/
def sameWord (i j : Instr) : Bool := i == j || ((encodeWord i).isSome && encodeWord i == encodeWord j)

/-- An interrupt is deliverable at the boundary before the word: it is taken before the word may raise an exception
(04 R131). -/
def State.interruptFirst (s : State) (t : Nat) : Bool :=
  let th := s.thr t
  !th.mode && th.resume.isNone && th.waiting.isNone && th.hostGot.isEmpty && (s.bestOffer t).isSome

/-- Run one word of thread `t`. A thread that cannot issue leaves the state as it is, as does a word other than the one
that has issued and waits. `forbidden` marks an opcode that Metered mode forbids (02 R66). A raised exception is taken; a
wait keeps the state but for what it asks for. A micro-routine counts its beats when it begins or is resumed after ERET. -/
def runWord (t : Tid) (i : Instr) (forbidden : Bool) (body : M Next) (s : State) : State :=
  let n := t.toNat
  if !s.canIssue n || (s.thr n).waiting.any (fun j => !sameWord i j) then s
  else
    let th := s.thr n
    let full := if (th.resume).isSome && !th.mip then 0 else beatsOf th (n / 4) i
    let run : EStateM.Result Stop State Next :=
      if forbidden && th.mode then .error (.raise { vector := xMetered }) s else body s
    match run with
    | .ok r s' => (((s'.endWord n full).finish n r).leaveArbs n).accordScan n
    | .error (.wait w) s' => (s'.keptBy s n w).park n i w
    | .error (.raise x) s' =>
      if s.interruptFirst n then s
      -- the run has stopped: Safe Hold, entered on the word's own error (08 R290)
      else if th.tstate == .meteredRun && (s'.thr n).tstate != .meteredRun then s'
      else
      let th' := s'.thr n
      match takeException n x (framePc th' x) th'.resume s' with
      | .ok _ s'' => ((s''.endWord n ((if forbidden then 1 else raiseBeats full i x) + entryBeats)).modThr n
          (fun h => { h.drop with resume := none })).accordScan n
      | .error (.wait w) _ => s.park n i w
      | .error (.raise _) s'' => s''

/-- The outcome of a word: always a next state. (log 16, DESIGN CHOICE; log 24, DEDUCED) -/
def word (t : Tid) (i : Instr) (body : M Next) (s : State) : Host.Outcome State Fault Refusal :=
  .next (runWord t i false body s)

/-- The outcome of a word whose opcode Metered mode forbids. -/
def wordElastic (t : Tid) (i : Instr) (body : M Next) (s : State) : Host.Outcome State Fault Refusal :=
  .next (runWord t i true body s)

end Sys2Proof.Machine
end

