-- ==== Sys2Proof/Machine/Message.lean ====
section
/-! DEFINITION. Waiting, fences, special registers, ERET, TRAP, MBRD, SEND and DONE (02 R47, R48; 03 R85 to R90, R93,
R94; 04 R133, R138, R140). -/

namespace Sys2Proof.Machine

/-- Wait for another command of the device: nothing changes. -/
def stall {α : Type} : M α := waitFor .turn

/-! ### WAIT, WAITE, FENCE, IFENCE -/

/-- WAIT and WAITE (03 R85, R86): an interrupt that is deliverable keeps the thread out of WAIT. -/
def waitBody (t : Tid) (timed : Bool) : M Next := fun s =>
  let n := t.toNat
  let s := s.modThr n (fun th => { th with spin := none })
  if (s.bestOffer n).isSome then .ok .seq s
  else .ok .seq (((s.modThr n (fun th => { th with tstate := .wait, waitAt := some (s.now, timed) })).lbDrop n).crierScan)

/-- FENCE (03; 05 R167): earlier accesses are performed at once in this model; earlier SENDs must have been read. (log 35, DEDUCED) -/
def fenceBody (t : Tid) : M Next := fun s =>
  if s.sendsPending t.toNat then stall s else .ok .seq s

/-- IFENCE (03 R87; 04 R121, R124): the core's instruction cache is invalidated, its loop buffer disengages, and the
thread's fetch queue is filled anew. (log 20, DESIGN CHOICE) -/
def ifenceBody (t : Tid) : M Next := fun s =>
  let n := t.toNat
  let c := n / 4
  let s := if (s.cacheOf c).ilines.isEmpty then s else s.setCaches c { s.cacheOf c with ilines := [] }
  let s := if (s.thr n).fetchQ.isEmpty then s else s.modThr n (fun th => { th with fetchQ := [] })
  .ok .seq (s.lbClear c)

/-- WAIT (03 R85). -/
def execWait (t : Tid) (s : State) : Host.Outcome State Fault Refusal := wordElastic t (.wait t) (waitBody t false) s

/-- WAITE (03 R86). -/
def execWaite (t : Tid) (s : State) : Host.Outcome State Fault Refusal := wordElastic t (.waite t) (waitBody t true) s

/-- FENCE (05 R167). -/
def execFence (t : Tid) (s : State) : Host.Outcome State Fault Refusal := word t (.fence t) (fenceBody t) s

/-- IFENCE (03 R87). -/
def execIfence (t : Tid) (s : State) : Host.Outcome State Fault Refusal := word t (.ifence t) (ifenceBody t) s

/-- TRAP (03 R71): raises Trap; the frame names the following word. -/
def execTrap (t : Tid) (code : BitVec 14) (s : State) : Host.Outcome State Fault Refusal :=
  word t (.trap t code) (raiseV xTrap) s

/-! ### Special registers (02 R46 to R48) -/

/-- TIME: in Metered mode the Timebase value at the beat boundary on which the word issued (08 R269): the value at the
run's first boundary, with what steps, sets and the slew have since added (R374), the beats gone, and the beats that
overruns have waited (04 R148). (log 37, DEDUCED) -/
def State.timeOf (s : State) (t : Nat) : Word :=
  if (s.thr t).mode then
    let c := s.core (t / 4)
    c.runT0 + BitVec.ofNat 64 ((c.beats + c.late) * s.beatPs / 1000)
  else s.tb.now

/-- What MFSR reads; none for a number that the table does not list (R48). -/
def State.special (s : State) (t n : Nat) : Option Word :=
  let th := s.thr t
  match n with
  | 0 => some (BitVec.ofNat 64 t)
  | 1 => some (th.st.setWidth 64)
  | 2 => some (th.held.setWidth 64)
  | 3 => some (th.vbase.setWidth 64)
  | 4 => some (th.wtmo.setWidth 64)
  | 5 => some (s.timeOf t)
  | 6 => some (BitVec.ofNat 64 (s.cfg Fld.PO_DEVNUM_DEV + s.get Fld.PO_DEVNUM_DIE * 65536))
  | 7 => some (BitVec.ofNat 64 (match (s.core (t / 4)).ltimer with
      | some d => d - s.now
      | none => 0))
  | _ => none

/-- MFSR (R48, 03 R88). -/
def mfsrBody (t : Tid) (rd : RegNo) (n : BitVec 5) : M Next := fun s =>
  match s.special t.toNat n.toNat with
  | some v => .ok .seq (s.setG t.toNat rd v)
  | none => raiseV xIllegal s

/-- An offer at the thread is kept to its next boundary, where a change of its own threshold or IL from state `s` to state
`s'` would have the Crier choose otherwise (09 R306). -/
def standOffer (t : Nat) (s s' : State) : State :=
  match s.bestOffer t with
  | some d =>
    match d.key with
    | some k =>
      if (s'.resolve k).target == some t || s'.crier.offers.any (fun o => o.key == k) then s'
      else s'.modCrier (fun c => { c with offers := c.offers ++
        [⟨t, k, d.level, s.cfg Fld.CR_THR_THR (16 * t), (s.thr t).il⟩] })
    | none => s'
  | none => s'

/-- MTSR to ST (R47). -/
def mtsrSt (t : Nat) (v : Word32) : M Unit := fun s =>
  let th := s.thr t
  if !th.priv && (bitsGet v 4 4 != th.il || bitsGet v 3 1 != b2n th.priv) then raiseV xPrivilege s
  else
    let st := bitsSet (bitsSet th.st 1 3 (bitsGet v 1 3)) 4 4 (bitsGet v 4 4)
    let s' := s.modThr t (fun h => { h with st := st })
    .ok () (if th.il == bitsGet v 4 4 then s' else (standOffer t s s').crierScan)

/-- MTSR to LTIMER (04 R138). -/
def State.armTimer (s : State) (c : Nat) (v : Word) : State :=
  let n := v.toNat % 2 ^ 48
  s.modCore c (fun k => { k with ltimer := if n = 0 then none else some (s.now + n) })

/-- MTSR (R47, R48). -/
def mtsrBody (t : Tid) (n : BitVec 5) (ra : RegNo) : M Next := do
  let th ← look (fun s => s.thr t.toNat)
  let v := th.get ra
  match n.toNat with
  | 1 => do
    mtsrSt t.toNat (v.setWidth 32)
    pure .seq
  | 2 =>
    if !th.priv then raiseV xPrivilege
    else do
      change (fun s => s.modThr t.toNat (fun h => { h with held := v.setWidth 16 }))
      pure .seq
  | 3 =>
    if !th.priv then raiseV xPrivilege
    else do
      change (fun s => s.modThr t.toNat (fun h => { h with vbase := v.setWidth 32 &&& 0xFFFFFF00#32 }))
      pure .seq
  | 4 => do
    change (fun s => s.modThr t.toNat (fun h => { h with wtmo := v.setWidth 32 }))
    pure .seq
  | 7 => do
    change (fun s => s.armTimer (t.toNat / 4) v)
    pure .seq
  | _ => raiseV xIllegal

/-- MFSR (R48). -/
def execMfsr (t : Tid) (rd : RegNo) (n : BitVec 5) (s : State) : Host.Outcome State Fault Refusal :=
  word t (.mfsr t rd n) (mfsrBody t rd n) s

/-- MTSR (R47, R48). -/
def execMtsr (t : Tid) (n : BitVec 5) (ra : RegNo) (s : State) : Host.Outcome State Fault Refusal :=
  word t (.mtsr t n ra) (mtsrBody t n ra) s

/-! ### ERET (03 R89; 04 R133, R140) -/

/-- The step names a resume point of the word's micro-routine (04 R139). (log 26, DEDUCED) -/
def resumePoint (w : Word32) (k : Nat) : Bool :=
  match decodeWord 0 w with
  | some (.callm _ _ mask _) => decide (1 ≤ k) && decide (k ≤ (maskRegs mask).length + 3)
  | some (.retm _ mask _) => decide (1 ≤ k) && decide (k ≤ (maskRegs mask).length)
  | some (.movb _ _ _ _ _) => k == 1
  | some (.fillb _ _ _ _ _) => k == 1
  | _ => false

/-- ST as ERET leaves it, from the frame's ST (R89). -/
def eretSt (th : Thread) (f : Word32) : Word32 :=
  let st := bitsSet (f &&& 0x00FFF1FF#32) 0 1 (b2n th.mode)
  if th.priv then st else bitsSet st 3 1 0

/-- A frame read of ERET: a frame that the thread may not reach raises Data-protection, in Metered mode too (03 R111). -/
def eretRead {α : Type} (m : M α) : M α := fun s =>
  match m s with
  | .error (.raise x) s' => .error (.raise { x with vector := if x.vector = xMetered then xDataProt else x.vector }) s'
  | r => r

/-- The resume word, as a fetch after the jump finds it: from a loop buffer that the thread owns, or from its place. -/
def resumeWord (t a : Nat) : M Word32 := fun s =>
  match s.loopWord t a with
  | some w => .ok w s
  | none => readInstr t a true s

/-- ERET. A PC outside the loop of an engaged buffer ends it, as another transfer of control does (04 R121). (log 137, DEDUCED) -/
def eretBody (t : Tid) : M Next := do
  let n := t.toNat
  let th ← look (fun s => s.thr n)
  let f := th.sp.toNat
  let bs ← eretRead (loadBytes n f 8)
  let bs1 ← eretRead (loadBytes n ((f + 8) % 2 ^ 64) 56)
  let pc : Word32 := BitVec.ofNat 32 (leNat (bs.take 4))
  let st : Word32 := BitVec.ofNat 32 (leNat (bs1.take 4))
  let g (i : Nat) : Word := BitVec.ofNat 64 (leNat (slice bs1 i 8))
  if !th.priv && decide (th.il < bitsGet st 4 4) then raiseV xPrivilege
  else do
    let mip := bitsGet st 8 1 == 1
    if mip then do
      let w ← atAddr pc.toNat (resumeWord n (pc.toNat / 4 * 4))
      if !resumePoint w (bitsGet st 12 12) then raiseV xIllegal
    let s ← look (fun s => s)
    change (fun s =>
      let s := s.modThr n (fun h =>
        let h := (((((h.set 31 (g 8)).set 1 (g 16)).set 2 (g 24)).set 3 (g 32)).set 4 (g 40)).set 5 (g 48)
        { h.set 30 (th.sp + 64) with st := eretSt th st })
      s.lbTransfer n pc)
    if bitsGet st 4 4 = th.il then pure () else change (fun s' => (standOffer n s s').crierScan)
    pure (if mip then .resumeAt pc (bitsGet st 12 12) else .jump pc)

/-- ERET (R89). -/
def execEret (t : Tid) (s : State) : Host.Outcome State Fault Refusal := word t (.eret t) (eretBody t) s

/-! ### MBRD, SEND, DONE -/

/-- The 32 bytes at `a` lie in the own data SRAM or in one cluster memory (03, MBRD). -/
def mbrdPlace (a : Nat) : Bool :=
  dRegion a == dRegion (a + 31) && (match dRegion a with
    | .dsram => true
    | .ownCl => true
    | .glob _ => true
    | _ => false)

/-- MBRD (03 R93). -/
def mbrdBody (t : Tid) (rd ra : RegNo) : M Next := do
  let n := t.toNat
  let th ← look (fun s => s.thr n)
  let a := (th.get ra).toNat
  if a % 8 ≠ 0 then raiseA xAlign a
  else if !mbrdPlace a then raiseA xDataProt a
  else if th.mode then do
    writeHalf n a ((th.cur.map Header.bytes).getD (List.replicate 32 0))
    change (fun s => s.setG n rd 0)
    pure .seq
  else if th.cur.isSome then do
    change (fun s => s.setG n rd 2)
    pure .seq
  else match th.mailbox with
    | [] => do
      change (fun s => s.setG n rd 1)
      pure .seq
    | h :: r => do
      writeHalf n a h.bytes
      change (fun s => ((s.modThr n (fun x => { x with mailbox := r, cur := some h })).msgRefresh n).setG n rd 0)
      pure .seq

/-- The source of a SEND lies wholly in the frame buffer or in one cluster memory (03, SEND). -/
def sendPlace (a n : Nat) : Bool :=
  dRegion a == dRegion (a + (n - 1)) && decide (n ≤ 0x2000000) && (match dRegion a with
    | .frame => true
    | .ownCl => true
    | .glob _ => true
    | _ => false)

/-- The data address by which a port reads a core's source: the own-cluster window through the global window. -/
def globalAddr (c a : Nat) : Nat :=
  match dRegion a with
  | .ownCl => clusterBase (c / 8) + (a - 0x10000000)
  | _ => a

/-- The most frames in an egress queue (06 R225). -/
def egressSize : Nat := 256

/-- SEND (03 R94). The port reads the source later: a SEND itself reads nothing, so it waits for nothing (03 R96). -/
def sendBody (t : Tid) (rd ra rb : RegNo) (port : PortId) (cls : BitVec 2) : M Next := do
  let n := t.toNat
  let th ← look (fun s => s.thr n)
  let a := (th.get ra).toNat
  let len := (th.get rb).toNat
  let k := max len 1
  if !sendPlace a k then raiseA xDataProt a
  else do
    permitted n a (min k 9216) false
    let p := port.toNat
    let limit := if cls = 0 ∨ th.mode then 2048 else 9216
    if len < 14 ∨ limit < len then do
      change (fun s => s.setG n rd 3)
      pure .seq
    else if th.mode then do
      capture (n / 4) [⟨6, 0, BitVec.ofNat 48 a, BitVec.ofNat 64 (len + p * 65536), 0⟩]
      change (fun s => s.setG n rd 0)
      pure .seq
    else do
      let s ← look (fun s => s)
      if !s.portInService p then change (fun s => s.setG n rd 2)
      else if egressSize ≤ s.egressUsed p cls.toNat then change (fun s => s.setG n rd 1)
      else change (fun s => (s.enqueueTx p cls.toNat
        { addr := globalAddr (n / 4) a, len := len, src := .thread n, at_ := s.now }).setG n rd 0)
      pure .seq

/-- DONE (03 R90). (log 35, DEDUCED) -/
def doneBody (t : Tid) : M Next := fun s =>
  let n := t.toNat
  let th := s.thr n
  if s.sendsPending n then stall s
  else if th.mode then
    let b := (s.core (n / 4)).beats + 1
    let s := if (s.core (n / 4)).budget < b then (s.put Fld.CO_STS_BUDGET 1 (coOff (n / 4))).condEvent 2 else s
    let s := s.modCore (n / 4) (fun c => { c with doneAt := some (b, signature th b) })
    let s := s.put Fld.CO_MBEATS_LAST (min b 65535) (coOff (n / 4))
    let s := s.put Fld.CO_MBEATS_MAX (min 65535 (max b (s.get Fld.CO_MBEATS_MAX (coOff (n / 4))))) (coOff (n / 4))
    let s := match pairOf (n / 4) with
      | some p => s.modPair p (fun x => { x with endAt := s.now })
      | none => s
    .ok .seq (s.modThr n (fun h => { h with tstate := .meteredIdle }))
  else
    match th.cur with
    | some h => .ok .seq ((s.modThr n (fun x => { x with cur := none })).freeFrame h.fboff.toNat)
    | none => .ok .seq s

/-- MBRD (03 R93). -/
def execMbrd (t : Tid) (rd ra : RegNo) (s : State) : Host.Outcome State Fault Refusal :=
  word t (.mbrd t rd ra) (mbrdBody t rd ra) s

/-- SEND (03 R94). -/
def execSend (t : Tid) (rd ra rb : RegNo) (port : PortId) (cls : BitVec 2)
    (s : State) : Host.Outcome State Fault Refusal :=
  word t (.send t rd ra rb port cls) (sendBody t rd ra rb port cls) s

/-- DONE (03 R90). -/
def execDone (t : Tid) (s : State) : Host.Outcome State Fault Refusal := word t (.done t) (doneBody t) s

end Sys2Proof.Machine
end

