-- ==== Sys2Proof/Machine/Quiet.lean ====
section
/-! DEFINITION. Quiet regions, the Banked state and the PMBus rails (12_power_clocks_lamplighter.md R384 to R388, R410,
R411). -/

namespace Sys2Proof.Machine

/-! ### Quiet (R387) -/

/-- The region of an arbiter's key, for the crossbar and cluster arbiters of a region. -/
def arbRegion (k : Nat) : Option Nat :=
  if k < 64 then some (k / 8) else if k < 576 then some ((k - 64) / 64)
  else if 1024 ≤ k ∧ k < 1032 then some (k - 1024) else none

/-- A thread keeps its region from being Quiet: it runs, waits for the far Annex or a host read, holds a header, or has
an interrupt on offer. -/
def State.threadBusy (s : State) (t : Nat) : Bool :=
  let th := s.thr t
  th.tstate == .ready || th.tstate == .farWait || th.tstate == .meteredRun || !th.mailbox.isEmpty ||
    th.hostRd.isSome || s.crier.offers.any (fun o => o.thread == t) ||
    (th.tstate == .wait && (s.bestOffer t).isSome)

/-- The region is Quiet: an Elastic region that is powered and has nothing to do (R387). (log 31, DESIGN CHOICE) -/
def State.regionQuiet (s : State) (r : Nat) : Bool :=
  !(s.meteredRole && decide (6 ≤ r)) && decide (s.pstate r ≤ 1) &&
  !((s.threads.map (·.1)).any (fun t => t / 256 == r && s.threadBusy t)) &&
  !(r == 0 && (tblGet s.threads steward).isNone) &&
  !(s.arbs.any (fun kx => arbRegion kx.1 == some r && !(kx.2.waiting.isEmpty && kx.2.out.isEmpty))) &&
  !(s.cores.any (fun kx => kx.1 / 64 == r && kx.2.tested)) &&
  !(s.assay.running.any (fun f => unitRegion f.unit == some r))

/-- RG_PSTS.STATE as a read finds it: Active and Quiet are told apart as R387 gives. (log 31, DESIGN CHOICE) -/
def State.pstateRead (s : State) (r : Nat) : Nat := if s.regionQuiet r then 1 else s.pstate r

/-- Note since when each region has been Quiet (R389). -/
def State.noteQuiet (s : State) : State :=
  foldN s (List.range 8) (fun s r =>
    let since := tblGet s.power.quietAt r
    if s.regionQuiet r then
      (if since.isSome then s else s.modPower (fun x => { x with quietAt := tblPut x.quietAt r s.now }))
    else if since.isSome then s.modPower (fun x => { x with quietAt := tblDel x.quietAt r })
    else s)

/-! ### Demand (07 R259) -/

/-- The threads that are Ready. -/
def State.readyThreads (s : State) : List Nat :=
  (if (tblGet s.threads steward).isNone && (s.thr steward).tstate == .ready then [steward] else []) ++
    (s.threads.filter (fun kv => kv.2.tstate == .ready)).map (·.1)

/-- The busy cores of a region: those with a thread that is Ready. -/
def State.busyCores (s : State) (r : Nat) : Nat :=
  (((s.readyThreads.filter (fun t => t / 256 == r)).map (· / 4)).eraseDups).length

/-- Count a ns of the cores that are busy. -/
def State.noteBusy (s : State) : State :=
  s.modBellows (fun b => { b with busyNs := (List.range 8).foldl (fun (m : Tbl Nat) r =>
    let n := s.busyCores r
    if n = 0 then m else tblPut m r ((tblGet m r).getD 0 + n)) b.busyNs })

/-! ### PMBus (R410, R411) -/

/-- LL_PMSTS.BUSY: a transaction is in progress or the host's waits. (log 96, DEDUCED) -/
def State.pmBusy (s : State) : State :=
  s.put Fld.LL_PMSTS_BUSY (b2n (s.power.pmCur.isSome || s.power.hostTxn.isSome))

/-- The die strapped as master drives the bus. -/
def State.pmEmit (s : State) (x : PmTxn) : State := if s.flag Fld.LL_STRAP_PMMST then s.emit (.pmbus x) else s

/-- Start the next transaction where none is in progress and no rail's DELAY runs: rail sequences come first. (log 122, DESIGN CHOICE) -/
def State.pmNext (s : State) : State :=
  if s.power.pmCur.isSome || s.power.delayAt.isSome then s.pmBusy
  else
    match s.power.rails, s.power.hostTxn with
    | x :: rest, _ =>
      ((s.modPower (fun p => { p with rails := rest, pmCur := some x, tries := 0 })).pmEmit x).pmBusy
    | [], some x => ((s.modPower (fun p => { p with hostTxn := none, pmCur := some x, tries := 0 })).pmEmit x).pmBusy
    | [], none => s.pmBusy

/-- A transaction of rail `n`. -/
def State.railTxn (s : State) (n cmd len data delay : Nat) : PmTxn :=
  let o := 8 * n
  ⟨false, n, s.get Fld.LL_RAIL_CFG_ADDR o, s.get Fld.LL_RAIL_CFG_PAGE o, false, cmd, len, data,
    s.flag Fld.LL_RAIL_CFG_PEC o, delay⟩

/-- The enabled rails that a field marks, in ascending order. -/
def State.railsWith (s : State) (f : FieldRef) : List Nat :=
  (List.range 16).filter (fun n => s.flag Fld.LL_RAIL_CFG_EN (8 * n) && s.flag f (8 * n))

/-- Queue a rail sequence, on the master only, and start it. -/
def State.railSeq (s : State) (xs : List PmTxn) : State :=
  if s.flag Fld.LL_STRAP_PMMST then (s.modPower (fun p => { p with rails := p.rails ++ xs })).pmNext else s

/-- VOUT_COMMAND with VBANKED or VLIT for each rail whose BANKV is 1. -/
def State.railVolts (s : State) (banked : Bool) : State :=
  s.railSeq ((s.railsWith Fld.LL_RAIL_CFG_BANKV).map (fun n =>
    s.railTxn n 0x21 2 (s.get (if banked then Fld.LL_RAIL_V_VBANKED else Fld.LL_RAIL_V_VLIT) (8 * n)) 0))

/-- OPERATION with 0x00, in descending order, for the rails whose DARKOFF is 1. -/
def State.railsOff (s : State) : State :=
  s.railSeq (((s.railsWith Fld.LL_RAIL_CFG_DARKOFF).map (fun n => s.railTxn n 0x01 1 0 0)).reverse)

/-- OPERATION with 0x80, in ascending order, each followed by its DELAY. -/
def State.railsOn (s : State) : State :=
  s.railSeq ((s.railsWith Fld.LL_RAIL_CFG_DARKOFF).map (fun n =>
    s.railTxn n 0x01 1 0x80 (s.get Fld.LL_RAIL_CFG_DELAY (8 * n))))

/-- No rail sequence is under way. -/
def State.railsDone (s : State) : Bool :=
  s.power.rails.isEmpty && s.power.delayAt.isNone && (match s.power.pmCur with
    | some x => x.host
    | none => true)

/-! ### Banked (R384, R385) -/

/-- Every region is Gated or Retired. -/
def State.allGated (s : State) : Bool :=
  (List.range 8).all (fun r => s.pstate r == 3 || s.pstate r == 4 || s.pstate r == 6)

/-- Enter or leave Banked. -/
def State.evalBanked (s : State) : State :=
  if s.dstate == 3 && s.allGated then
    ((s.put Fld.LL_STS_DSTATE 4).modPower (fun x => { x with bankedAt := some s.now })).railVolts true
  else if s.dstate == 4 && !s.allGated then
    ((s.put Fld.LL_STS_DSTATE 3).modPower (fun x => { x with bankedAt := none })).railVolts false
  else s

end Sys2Proof.Machine
end

