-- ==== Sys2Proof/Machine/Attar.lean ====
section
/-! DEFINITION. The Attar copies: their writing and reload (13_boot_attar_ledger.md R427 to R430). -/

namespace Sys2Proof.Machine

/-- AT_LOADED of a cluster (R428). -/
def State.setLoaded (s : State) (cl : Nat) (on : Bool) : State :=
  let a := Reg.AT_LOADED + 4 * (cl / 32 % 2)
  s.setReg a (bitsSet (s.reg a) (cl % 32) 1 (b2n on))

/-- The Twin pairs that use a cluster's copy. -/
def clusterPairs (cl : Nat) : List Nat := if 48 ≤ cl then (List.range 8).map (fun k => cl % 8 * 8 + k) else []

/-- The cores of a cluster. -/
def clusterCores (cl : Nat) : List Nat := (List.range 8).map (fun k => 8 * cl + k)

/-- The copy can be written: no core of the cluster is under test; in the Metered role its pairs are idle and
substitutes serve their slots (R429). -/
def State.copyFree (s : State) (cl : Nat) : Bool :=
  !(clusterCores cl).any (fun c => (s.core c).tested) &&
  (!s.meteredRole || (clusterPairs cl).all (fun p => (s.pair p).phase == .idle &&
    !(List.range 64).any (fun q => s.serving q == p && s.pairNamed q)))

/-- Cluster copies to be written whose region is awake, in ascending order. -/
def State.copyQueue (s : State) : List (Nat × Nat) := s.attar.todo.filter (fun e => decide (s.pstate (e.1 / 8) ≤ 1))

/-- AT_STS.RLBUSY: a load or reload is writing copies. -/
def State.reloadBusy (s : State) : State :=
  s.put Fld.AT_STS_RLBUSY (b2n ((match s.attar.writing with
    | some w => w.2 != 0
    | none => false) || s.copyQueue.any (fun e => e.2 != 0)))

/-- Two copies hold the same microwords and hooks. -/
def AttarCopy.same (a b : AttarCopy) : Bool :=
  (List.range 1024).all (fun k => a.words.getD k 0 == b.words.getD k 0) &&
  (List.range 32).all (fun k => a.hooks.getD k 0 == b.hooks.getD k 0)

/-- A load has changed the master: a copy that does not hold it is not loaded (R428). -/
def State.masterChanged (s : State) : State :=
  foldN s (List.range 64) (fun s cl =>
    if ((tblGet s.attar.copies cl).getD {}).same s.attar.master then s else s.setLoaded cl false)

/-- The master is read for the write of a copy; whether an uncorrectable word turns up is open, and one that has stays (R430). (log 105, DESIGN CHOICE) -/
def State.readMaster (s : State) : State :=
  { s with freeCtr := s.freeCtr + 1, attar := { s.attar with bad := s.attar.bad || Config.masterBad s.freeCtr } }

/-- Begin the next write of a copy, where one can begin. A master with an uncorrectable word writes none (R430). -/
def State.copyPump (s : State) : State :=
  if s.attar.todo.isEmpty || s.attar.writing.isSome then s
  else
    match s.copyQueue with
    | [] => s
    | (cl, why) :: _ =>
      let barred (s : State) : State :=
        ((s.put Fld.AT_STS_MERR 1).modAttar (fun x => { x with
          todo := x.todo.filter (fun e => decide (1 < s.pstate (e.1 / 8))) })).reloadBusy
      if s.attar.bad then barred s
      else if s.clusterRetired cl then (s.modAttar (fun x => { x with todo := tblDel x.todo cl })).reloadBusy
      else
        let s := if s.meteredRole then foldN s (clusterPairs cl) State.substitute else s
        if s.copyFree cl then
          let s := s.readMaster
          if s.attar.bad then barred s
          else ((s.modAttar (fun x => { x with todo := tblDel x.todo cl, writing := some (cl, why) })).setLoaded cl false).reloadBusy
        else s

/-- Ask for cluster copies to be written. (log 106, DEDUCED) -/
def State.copyAsk (s : State) (why : Nat) (cls : List Nat) : State :=
  let cls := cls.filter (fun cl => !s.clusterRetired cl)
  ((s.modAttar (fun x => { x with
    todo := cls.foldl (fun t cl => tblPut t cl (max why ((tblGet t cl).getD 0))) x.todo })).copyPump).reloadBusy

/-- A write of 1 to AT_CTL.RELOAD (R430). -/
def State.reload (s : State) (v : Word32) : State :=
  if !v.getLsbD 0 || s.flag Fld.AT_STS_RLBUSY then s
  else s.copyAsk 2 (if v.getLsbD 1 then [bitsGet v 2 6] else List.range 64)

end Sys2Proof.Machine
end

