-- ==== Sys2Proof/Machine/Prompt.lean ====
section
/-! DEFINITION. The Prompt scheduler: conditions, the slot table, dispatch, fallback and the Metered role
(07 R233 to R253; 04 R142, R143, R146). -/

namespace Sys2Proof.Machine

/-! ### The table check (R249, R250) -/

/-- Beat period and slot length in ps. -/
def State.slotPs (s : State) : Nat := min 64 (max 4 (s.cfg Fld.PS_SLOT_BEATS)) * min 1600 (max 800 (s.cfg Fld.PS_BEAT_PS))

def State.groupOn (s : State) (g : Nat) : Bool := s.on Fld.PS_GENT_EN (16 * g)

/-- The bank in effect. -/
def State.activeBank (s : State) : Nat := s.get Fld.PS_STS_ABANK

/-- A bank as substitution makes it: for each slot its serving pair and group. -/
def State.slotTable (s : State) (bank : Nat) : List (Option (Nat × Nat)) :=
  (List.range 256).map (fun i => (s.slotEntry bank i).map (fun e => (s.serving e.1, e.2)))

/-- The distance, in slots, from slot `i` to the next that satisfies `f`, taken cyclically. -/
def nextSlot (tab : List (Option (Nat × Nat))) (i : Nat) (f : Nat × Nat → Bool) : Nat :=
  ((List.range 255).find? (fun d => (tab.getD ((i + d + 1) % 256) none).any f)).getD 255 + 1

/-- Test 3 for a distance: σ × d × S ≤ 400 ns. -/
def State.waitOk (s : State) (g d : Nat) : Bool :=
  decide (max 1 (s.cfg Fld.PS_GBUD_BURST (16 * g)) * d * s.slotPs ≤ 400000)

/-- Test 4 for a distance: ρ × d × S ≤ 1. -/
def State.rateOk (s : State) (g d : Nat) : Bool :=
  decide (s.cfg Fld.PS_GBUD_RATE (16 * g) * d * s.slotPs ≤ 16000 * 1000)

/-- Slots that must lie between two uses of a pair after group `g`: ⌈(2 × B × P + 600 ns) / S⌉. -/
def State.reuse (s : State) (g : Nat) : Nat :=
  (2 * s.cfg Fld.PS_GENT_B (16 * g) * min 1600 (max 800 (s.cfg Fld.PS_BEAT_PS)) + 600000 + s.slotPs - 1) / s.slotPs

/-- The first slot whose entry fails a test. -/
def failSlot (tab : List (Option (Nat × Nat))) (f : Nat → Nat × Nat → Bool) : Option (Nat × Nat) :=
  (List.range 256).findSome? (fun i => match tab.getD i none with
    | some e => if f i e then none else some (i, e.2)
    | none => none)

/-- The table check of a bank: the first failed test, 0 for none, with the slot and the group concerned. -/
def State.tableCheck (s : State) (bank : Nat) : Nat × Nat × Nat :=
  let tab := s.slotTable bank
  match failSlot tab (fun _ e => s.groupOn e.2 && s.pairServiceable e.1 && !s.isSpare e.1) with
  | some (i, g) => (1, i, g)
  | none =>
    match (List.range 16).find? (fun g => s.groupOn g && !tab.any (fun e => e.any (fun x => x.2 == g))) with
    | some g => (2, 0, g)
    | none =>
      match failSlot tab (fun i e => s.waitOk e.2 (nextSlot tab i (fun x => x.2 == e.2))) with
      | some (i, g) => (3, i, g)
      | none =>
        match failSlot tab (fun i e => s.rateOk e.2 (nextSlot tab i (fun x => x.2 == e.2))) with
        | some (i, g) => (4, i, g)
        | none =>
          match failSlot tab (fun i e => decide (s.reuse e.2 ≤ nextSlot tab i (fun x => x.1 == e.1))) with
          | some (i, g) => (5, i, g)
          | none => (0, 0, 0)

/-- The seam rule between the last table frame of one bank and the first of another (R250). -/
def State.seamOk (s : State) (old new : Nat) : Bool :=
  let a := s.slotTable old
  let b := s.slotTable new
  let step (i : Nat) (f : Nat × Nat → Bool) : Option Nat :=
    if (List.range (255 - i)).any (fun d => (a.getD (i + d + 1) none).any f) then none
    else ((List.range 256).find? (fun j => (b.getD j none).any f)).map (fun j => 256 - i + j)
  (List.range 256).all (fun i => match a.getD i none with
    | some e =>
      (match step i (fun x => x.2 == e.2) with
        | some d => s.waitOk e.2 d
        | none => true) &&
      (match step i (fun x => x.1 == e.1) with
        | some d => decide (s.reuse e.2 ≤ d)
        | none => true)
    | none => true)

/-! ### The conditions (R233) -/

/-- Holding time after an event, ns. -/
def condHold : Nat := 10000

/-- An event behind condition `n` lies within the holding time. -/
def State.recentBad (s : State) (n : Nat) : Bool :=
  match tblGet s.prompt.lastBad n with
  | some t => decide (s.now < t + condHold)
  | none => false

/-- Port `p` passes its egress check (R238). -/
def State.portPasses (s : State) (p : Nat) : Bool :=
  let f := (s.rspMax p + 24) * 8
  let r := s.portRate
  !s.portInService p ||
    (decide ((max 1 (s.cfg Fld.PS_PORT_BURST (4 * p)) - 1) * f ≤ 120 * r) &&
      decide (s.cfg Fld.PS_PORT_RATE (4 * p) * f ≤ 16000 * r))

/-- A temperature reading in eighths of a degree, signed. -/
def signedOf (n v : Nat) : Int := if bitOf v (n - 1) then (v : Int) - 2 ^ n else v

/-- The unit lies in region 6 or 7. -/
def inMeteredRegion (u : Nat) : Bool :=
  (unitRegion u).any (fun r => r == 6 || r == 7)

/-- A unit of region 6 or 7 is under test, from the test's start to its verdict, or under retirement, from its lasting
verdict to the retirement's end; a lasting verdict reached without a test counts from its report (08 R282). -/
def State.assayOpen (s : State) : Bool :=
  (s.assay.running ++ s.assay.retiring).any (fun f => inMeteredRegion f.unit)

/-- Condition `n` fails now. -/
def State.condFails (s : State) (n : Nat) : Bool :=
  match n with
  | 0 => !s.prompt.empty.isEmpty || s.recentBad 0 || !(List.range 8).all s.portPasses
  | 1 => s.recentBad 1
  | 2 => s.recentBad 2 || (List.range 16).any (fun g => s.groupOn g && decide (1500 < s.cfg Fld.PS_GENT_B (16 * g)))
  | 3 => !(s.flag Fld.PS_STS_RUN && s.meteredRole && (List.range 64).any s.pairServiceable)
  | 4 => s.prompt.seamBad || decide ((s.tableCheck s.activeBank).1 ≠ 0)
  | 5 => !s.power.supplyOk || s.recentBad 5 ||
      (s.meteredRole && (!s.flag Fld.BW_CTL_EN || s.flag Fld.BW_SET_SHORT 24 || s.flag Fld.BW_SET_SHORT 28))
  | 6 => (List.range 16).any (fun i => !s.flag Fld.TY_TEMP_VALID (4 * i) ||
      (let v := signedOf 12 (s.get Fld.TY_TEMP_VAL (4 * i))
       decide (v < -320) || decide (1000 < v)))
  | 7 => decide (2 ≤ s.lastingCount)
  | 8 => s.assayOpen
  | _ => false

/-- Conditions whose bit clears only after a holding time: BUDGET, SIZE, HANDLER, SUPPLY. (log 41, DEDUCED) -/
def condHeld (n : Nat) : Bool := n == 0 || n == 1 || n == 2 || n == 5

/-- Bring the condition bits up to date: every failing condition rises; one without a holding time clears at once. -/
def State.evalConds (s : State) : State :=
  if s.flag Fld.PS_CTL_EN then
    let s := s.fillPrompt
    foldN s (List.range 9) (fun s n =>
      if s.condFails n then s.setCond n true else if condHeld n then s else s.setCond n false)
  else foldN s (List.range 9) (fun s n => s.setCond n false)

/-! ### Waiting headers (R241, R245, R248) -/

/-- A slot of the bank in effect serves the group with a serviceable pair. -/
def State.groupServed (s : State) (g : Nat) : Bool :=
  (s.slotTable s.activeBank).any (fun e => e.any (fun x => x.2 == g && s.pairServiceable x.1))

/-- A waiting header goes to its fallback at once (R248). (log 40, DEDUCED) -/
def State.fallsBack (s : State) (m : PromptMsg) : Bool :=
  !s.groupOn m.group || !s.flag Fld.PS_STS_RUN || !s.flag Fld.PS_CTL_EN || !s.groupServed m.group

/-- Send every waiting header that R248 names to its fallback; in Safe Hold they are kept (08 R290). (log 40, DEDUCED) -/
def State.fallbackScan (s : State) : State :=
  if s.holding || s.prompt.waiting.isEmpty then s
  else
    let out := s.prompt.waiting.filter s.fallsBack
    let s := s.modPrompt (fun x => { x with waiting := x.waiting.filter (fun m => !s.fallsBack m) })
    out.foldl (fun s m => s.toFallback m) s

/-- Every pair is in Metered idle with no Accord pending. -/
def State.allPairsIdle (s : State) : Bool := s.pairs.all (fun kv => kv.2.phase == .idle)

/-- RUN becomes 0 once dispatch has ended and every pair is idle (R241). -/
def State.runStop (s : State) : State :=
  if s.flag Fld.PS_STS_RUN && !s.flag Fld.PS_CTL_EN && s.allPairsIdle then s.put Fld.PS_STS_RUN 0 else s

/-- Substitute every named pair that is not served by a serviceable pair (R252). -/
def State.subScan (s : State) : State :=
  if s.meteredRole && (List.range 64).any (fun q => s.isSpare q && s.pairServiceable q) then
    foldN s (List.range 64) (fun s p =>
      if !s.pairServiceable (s.serving p) && s.pairNamed p then s.substituteOne p else s)
  else s

/-- What the device does of itself once a command has changed its state: the entry to Safe Hold, substitution, fallbacks, held headers,
pause, the Prompt conditions, the Crier, Attar copies, Quiet regions and the Banked state. -/
def State.settle (s : State) : State :=
  (((((((s.holdFinish.subScan.copyPump).runStop).fallbackScan).redirectHeld).pfcUpdate).evalConds).crierScan.noteQuiet).evalBanked

/-- The outcome of a command of the device. -/
def device (s : State) : Host.Outcome State Fault Refusal := .next s.settle

/-! ### Slots and dispatch (R241 to R247) -/

/-- The oldest waiting header of a group. -/
def State.oldest (s : State) (g : Nat) : Option PromptMsg := s.prompt.waiting.find? (fun m => m.group == g)

/-- The pair can take a message: serviceable, both cores in Metered idle, the last Accord complete. -/
def State.pairFree (s : State) (p : Nat) : Bool :=
  s.pairServiceable p && (s.pair p).phase == .idle &&
    (s.thr (4 * (pairCores p).1)).tstate == .meteredIdle && (s.thr (4 * (pairCores p).2)).tstate == .meteredIdle

/-- Dispatch a message to a pair. -/
def State.dispatch (s : State) (p : Nat) (m : PromptMsg) : State :=
  let s := s.modPrompt (fun x => { x with waiting := x.waiting.erase m })
  (s.modPair p (fun x => { x with phase := .dispatched, msg := some m, second := false, dispAt := s.now })).bump
    Fld.PS_DISP_COUNT

/-- Service starts at a slot boundary at which EN, METERED and OUT are 1 (R241). -/
def State.runStart (s : State) : State :=
  if s.flag Fld.PS_CTL_EN && s.meteredRole && s.flag Fld.LG_STS_OUT && !s.holding then s.put Fld.PS_STS_RUN 1 else s

/-- What slot `i` of the bank in effect dispatches. -/
def State.slotDispatch (s : State) (i : Nat) : State :=
  if !s.flag Fld.PS_STS_RUN || !s.flag Fld.PS_CTL_EN || s.holding then s
  else
    match s.slotEntry s.activeBank i with
    | none => s
    | some (p, g) =>
      match s.oldest g with
      | none => s
      | some m => if s.pairFree (s.serving p) then s.dispatch (s.serving p) m else s.bump Fld.PS_SLOTMISS_COUNT

/-- At a table-frame boundary the pending bank takes effect (R244, R250). -/
def State.bankSwitch (s : State) : State :=
  if s.flag Fld.PS_STS_SWPEND && s.prompt.slot == 0 then
    let old := s.activeBank
    let new := s.get Fld.PS_BANK_SEL
    let ok := s.seamOk old new
    let s := ((s.put Fld.PS_STS_ABANK new).put Fld.PS_STS_SWPEND 0).setEff Reg.PS_BANK (s.reg Reg.PS_BANK)
    (s.modPrompt (fun x => { x with seamBad := !ok })).settle
  else s

/-- SLOT_BOUNDARY (R241, R244, R245): the next slot of the table frame begins; at slot 0 a pending bank takes effect
first. The first slot begins with the series. (log 43, DEDUCED) -/
def execSlotBoundary (s : State) : Host.Outcome State Fault Refusal :=
  if s.now * 1000 < s.prompt.seriesAt then .next s
  else
  let i := s.prompt.slot
  let s := s.bankSwitch.runStart.slotDispatch i
  device (s.modPrompt (fun x => { x with slot := (i + 1) % 256 }))

/-- The dispatch state of one Twin (04 R143). The run starts with no loop buffer engaged. (log 138, DESIGN CHOICE) -/
def State.startTwin (s : State) (c : Nat) (m : PromptMsg) : State :=
  let t := 4 * c
  let b := s.cfg Fld.PS_GENT_B (16 * m.group)
  let s := s.clearRun c
  let s := s.modCore c (fun k => { k with budget := b, runT0 := s.tb.now, runAt := s.now })
  let s := (s.leaveArbs t).dropResv t
  let s := s.modThr t (fun th =>
    let z : Thread := { th with regs := Vector.replicate 32 0 }
    let z := ((((z.set 1 (m.hdr.session.setWidth 64)).set 2 (BitVec.ofNat 64 (frameBase + m.hdr.fboff.toNat))).set 3
      (m.hdr.len.setWidth 64)).set 4 (BitVec.ofNat 64 b)).set 30 0x8000
    { z.drop with
      held := 0, spin := none, st := 3, cur := some m.hdr, tstate := .meteredRun, resume := none, waitAt := none,
      lbCand := [], pc := BitVec.ofNat 32 (4 * s.cfg Fld.PS_GENT_ENTRY (16 * m.group)) })
  (s.lbClear c).haltRefresh (c / 8)

/-- Both Twins of a pair receive the dispatch state at one beat boundary. -/
def State.startPair (s : State) (p : Nat) (m : PromptMsg) : State :=
  ((s.startTwin (pairCores p).1 m).startTwin (pairCores p).2 m).modPair p (fun x => { x with phase := .running })

/-- A residence reaches 90 % of its segment's budget: the Bellows lowers no Metered region for it (R235, R256). The time
is kept with those of the conditions, under 16. -/
def State.noteResidence (s : State) (ns budget : Nat) : State :=
  if budget * 9 ≤ ns * 10 then s.modPrompt (fun x => { x with lastBad := tblPut x.lastBad 16 s.now }) else s

/-- HANDLER_ENTRY (R246): 40 ns after the slot boundary or later. (log 43, DEDUCED) -/
def execHandlerEntry (p : PairId) (s : State) : Host.Outcome State Fault Refusal :=
  let x := s.pair p.toNat
  match x.phase, x.msg with
  | .dispatched, some m =>
    if s.now < x.dispAt + 40 || s.holding then .next s
    else
      let s := s.startPair p.toNat m
      let s := s.noteResidence (s.now - m.rxAt) 900
      device (s.put Fld.PS_RES_ING (min 65535 (max (s.get Fld.PS_RES_ING) (s.now - m.rxAt))))
  | _, _ => .next s

/-- BANK_SWITCH (R244, R250). -/
def execBankSwitch (s : State) : Host.Outcome State Fault Refusal := .next s.bankSwitch

/-- A header has waited longer than PS_FBWAIT.US, where US is not 0 (R248). -/
def State.waitedLong (s : State) (m : PromptMsg) : Bool :=
  s.cfg Fld.PS_FBWAIT_US != 0 && decide (m.since + 1000 * s.cfg Fld.PS_FBWAIT_US < s.now)

/-- FALLBACK (R248): the oldest header of the group that has waited longer than PS_FBWAIT.US. -/
def execFallback (g : BitVec 4) (s : State) : Host.Outcome State Fault Refusal :=
  match s.prompt.waiting.find? (fun m => m.group == g.toNat && s.waitedLong m) with
  | some m =>
    if s.holding then .next s
    else device ((s.modPrompt (fun x => { x with waiting := x.waiting.erase m })).toFallback m)
  | none => .next s

/-- CONDITION_CLEAR (R233, R234): a condition that holds again, its holding time over, clears its bit. (log 41, DEDUCED) -/
def execConditionClear (n : BitVec 4) (s : State) : Host.Outcome State Fault Refusal :=
  let s := s.fillPrompt
  .next (if s.condFails n.toNat then s else s.setCond n.toNat false)

/-! ### Register effects of the PS block -/

/-- PS_CHK.GO (R250): the bank not in effect is checked. -/
def State.checkGo (s : State) : State :=
  let bank := 1 - s.activeBank
  let r := s.tableCheck bank
  s.setReg Reg.PS_CHK (BitVec.ofNat 32
    (2 + 4 * b2n (r.1 == 0) + 8 * bank + r.1 * 16 + r.2.1 * 256 + r.2.2 * 65536))

/-- A write of EN (R241). -/
def State.setPsEn (s : State) (on : Bool) : State := s.put Fld.PS_CTL_EN (b2n on)

/-- ROLE may become 1 (R239). -/
def State.roleUpOk (s : State) : Bool :=
  !s.flag Fld.PS_STS_RUN && decide (s.pstate 6 ≤ 1) && decide (s.pstate 7 ≤ 1) &&
    s.threads.all (fun kv => decide (kv.1 < 1536) || kv.2.tstate == .disabled || (kv.1 % 4 == 0 && kv.2.tstate == .wait))

/-- ROLE may become 0 (R240). -/
def State.roleDownOk (s : State) : Bool :=
  !s.flag Fld.PS_STS_RUN && s.allPairsIdle &&
    (List.range 128).all (fun i => s.coreRetired (384 + i) || (s.thr (4 * (384 + i))).tstate == .meteredIdle)

/-- Thread 0 of a core enters the Metered role (R239, 04 R142). -/
def State.coreMeter (s : State) (c : Nat) : State :=
  if s.coreRetired c then s
  else
    let s := (s.modThr (4 * c) (fun th => { th with tstate := .meteredIdle, st := bitsSet th.st 0 1 1, waitAt := none }))
    (((s.haltRefresh (c / 8)).put Fld.CO_CTL_TEN 1 (coOff c)).putEff Fld.CO_CTL_TEN 1 (coOff c))

/-- A thread reset that the device makes of itself. Where its vector fetch must wait, the thread stays Disabled with
its registers reset until a THREAD_RESET command makes the fetch. (log 45, DESIGN CHOICE) -/
def State.doReset (s : State) (t : Nat) : State :=
  match threadReset t s with
  | .ok _ s' => s'.haltRefresh (t / 32)
  | .error (.wait w) _ =>
    (((s.resetRegs t false).modThr t (fun th => { th with tstate := .disabled })).haltRefresh (t / 32)).park t
      (.threadReset (BitVec.ofNat 11 t)) w
  | .error (.raise _) s' => s'.haltRefresh (t / 32)

/-- A write of ROLE (R239, R240); where its conditions fail it is discarded. -/
def State.setRole (s : State) (on : Bool) : State :=
  if on == s.meteredRole then s
  else if on then
    if s.roleUpOk then
      let s := (s.put Fld.PS_CTL_ROLE 1).put Fld.PS_STS_METERED 1
      let s := (s.put Fld.RG_PSTS_METERED 1 (rgOff 6)).put Fld.RG_PSTS_METERED 1 (rgOff 7)
      foldN s ((List.range 128).map (384 + ·)) State.coreMeter
    else s
  else if s.roleDownOk then
    let s := (s.put Fld.PS_CTL_ROLE 0).put Fld.PS_STS_METERED 0
    let s := (s.put Fld.RG_PSTS_METERED 0 (rgOff 6)).put Fld.RG_PSTS_METERED 0 (rgOff 7)
    foldN s ((List.range 128).map (fun i => 4 * (384 + i)))
      (fun s t => if s.coreRetired (t / 4) then s else s.doReset t)
  else s

/-- A new beat or slot series starts at an elapsed ps: its first slot is slot 0 (R242, 04 R146). -/
def State.newSeries (s : State) (at_ : Nat) : State := s.modPrompt (fun x => { x with slot := 0, seriesAt := at_ })

end Sys2Proof.Machine
end

