-- ==== Sys2Proof/Machine/Accord.lean ====
section
/-! DEFINITION. What ends or restarts a Metered run of its own accord (04 R149; 08 R268, R272, R274). -/

namespace Sys2Proof.Machine

/-- BUDGET (04 R149, 07 R233): the run's beat count exceeds the B it was given at entry. -/
def execBudget (c : CoreId) (s : State) : Host.Outcome State Fault Refusal :=
  let n := c.toNat
  let k := s.core n
  if (s.thr (4 * n)).tstate == .meteredRun && decide (k.budget < k.beats) then
    device ((s.put Fld.CO_STS_BUDGET 1 (coOff n)).condEvent 2)
  else .next s

/-- The Twin that has issued DONE has waited more than 8 beats for the other: the other has run past beat `d + 8`, no
longer runs, or the time of 8 beats has passed. -/
def State.doneLate (s : State) (d other : Nat) (p : Pair) : Bool :=
  decide (d + 8 ≤ (s.core other).beats) || (s.thr (4 * other)).tstate != .meteredRun ||
    decide (p.endAt * 1000 + 8 * s.beatPs ≤ s.now * 1000)

/-- DONE_TIMING (R268): one Twin has issued DONE and the other has not within 8 beats. -/
def execDoneTiming (p : PairId) (s : State) : Host.Outcome State Fault Refusal :=
  let n := p.toNat
  let x := s.pair n
  if x.phase == .running then
    match (s.core (pairCores n).1).doneAt, (s.core (pairCores n).2).doneAt with
    | some d, none => if s.doneLate d.1 (pairCores n).2 x then device (s.disagree n 1 0 d.1) else .next s
    | none, some d => if s.doneLate d.1 (pairCores n).1 x then device (s.disagree n 1 0 d.1) else .next s
    | _, _ => .next s
  else .next s

/-- A run has reached beat 4,096: by the beats counted, or, where both Twins have halted and count none, by the time gone
(R274, R468). -/
def State.runLong (s : State) (p : Nat) : Bool :=
  let a := pairCores p
  decide (4096 ≤ max (s.core a.1).beats (s.core a.2).beats) ||
    ((s.thr (4 * a.1)).tstate != .meteredRun && (s.thr (4 * a.2)).tstate != .meteredRun &&
      decide ((s.core a.1).runAt * 1000 + 4096 * s.beatPs ≤ s.now * 1000))

/-- RUNAWAY (R274): neither Twin has issued DONE by beat 4,096. -/
def execRunaway (p : PairId) (s : State) : Host.Outcome State Fault Refusal :=
  let n := p.toNat
  let a := s.core (pairCores n).1
  let b := s.core (pairCores n).2
  if (s.pair n).phase == .running && a.doneAt.isNone && b.doneAt.isNone && s.runLong n then
    device ((s.bump Fld.AS_CNT_RUNAWAY_COUNT).finalDiscard n)
  else .next s

/-- RESTART (R272 step 4): both Twins enter the handler again. -/
def execRestart (p : PairId) (s : State) : Host.Outcome State Fault Refusal :=
  let n := p.toNat
  let x := s.pair n
  match x.phase, x.msg with
  | .stopped, some m =>
    if s.holding then .next s
    else device ((s.setPair n { x with second := true }).startPair n m)
  | _, _ => .next s

end Sys2Proof.Machine
end

