-- ==== Sys2Proof/Machine/LoadStore.lean ====
section
/-! DEFINITION. Loads, stores and atomics (03 R75, R76, R81 to R84; 05 R170 to R172, R184). -/

namespace Sys2Proof.Machine

/-- Write a base register back, where the addressing mode does so (02 R64). -/
def State.writeBack (s : State) (t : Nat) (ra : RegNo) : Option Word → State
  | some v => s.setG t ra v
  | none => s

/-- A load of `n` bytes (03 R75): the address, the access, the destination, the base write-back. -/
def loadBody (t : Tid) (rd ra : RegNo) (mode : BitVec 2) (disp : BitVec 12) (n : Nat) (signed : Bool) : M Next := do
  let th ← look (fun s => s.thr t.toNat)
  match memOperand th (some rd) ra mode disp with
  | none => raiseV xIllegal
  | some (ea, wb) => do
    let v ← loadNat t.toNat ea.toNat n
    change (fun s =>
      (s.setG t.toNat rd (if signed then sextNat (8 * n) v else BitVec.ofNat 64 v)).writeBack t.toNat ra wb)
    pure .seq

/-- A store of the `n` low bytes of rs (03 R75): rs and ra are read before the update. -/
def storeBody (t : Tid) (rs ra : RegNo) (mode : BitVec 2) (disp : BitVec 12) (n : Nat) : M Next := do
  let th ← look (fun s => s.thr t.toNat)
  match memOperand th none ra mode disp with
  | none => raiseV xIllegal
  | some (ea, wb) => do
    storeNat t.toNat ea.toNat n (th.get rs).toNat
    change (fun s => s.writeBack t.toNat ra wb)
    pure .seq

/-- LDB (03 R75). -/
def execLdb (t : Tid) (rd ra : RegNo) (mode : BitVec 2) (disp : BitVec 12)
    (s : State) : Host.Outcome State Fault Refusal :=
  word t (.ldb t rd ra mode disp) (loadBody t rd ra mode disp 1 false) s

/-- LDBS (03 R75). -/
def execLdbs (t : Tid) (rd ra : RegNo) (mode : BitVec 2) (disp : BitVec 12)
    (s : State) : Host.Outcome State Fault Refusal :=
  word t (.ldbs t rd ra mode disp) (loadBody t rd ra mode disp 1 true) s

/-- LDH (03 R75). -/
def execLdh (t : Tid) (rd ra : RegNo) (mode : BitVec 2) (disp : BitVec 12)
    (s : State) : Host.Outcome State Fault Refusal :=
  word t (.ldh t rd ra mode disp) (loadBody t rd ra mode disp 2 false) s

/-- LDHS (03 R75). -/
def execLdhs (t : Tid) (rd ra : RegNo) (mode : BitVec 2) (disp : BitVec 12)
    (s : State) : Host.Outcome State Fault Refusal :=
  word t (.ldhs t rd ra mode disp) (loadBody t rd ra mode disp 2 true) s

/-- LDW (03 R75). -/
def execLdw (t : Tid) (rd ra : RegNo) (mode : BitVec 2) (disp : BitVec 12)
    (s : State) : Host.Outcome State Fault Refusal :=
  word t (.ldw t rd ra mode disp) (loadBody t rd ra mode disp 4 false) s

/-- LDWS (03 R75). -/
def execLdws (t : Tid) (rd ra : RegNo) (mode : BitVec 2) (disp : BitVec 12)
    (s : State) : Host.Outcome State Fault Refusal :=
  word t (.ldws t rd ra mode disp) (loadBody t rd ra mode disp 4 true) s

/-- LDD (03 R75). -/
def execLdd (t : Tid) (rd ra : RegNo) (mode : BitVec 2) (disp : BitVec 12)
    (s : State) : Host.Outcome State Fault Refusal :=
  word t (.ldd t rd ra mode disp) (loadBody t rd ra mode disp 8 false) s

/-- STB (03 R75). -/
def execStb (t : Tid) (rs ra : RegNo) (mode : BitVec 2) (disp : BitVec 12)
    (s : State) : Host.Outcome State Fault Refusal :=
  word t (.stb t rs ra mode disp) (storeBody t rs ra mode disp 1) s

/-- STH (03 R75). -/
def execSth (t : Tid) (rs ra : RegNo) (mode : BitVec 2) (disp : BitVec 12)
    (s : State) : Host.Outcome State Fault Refusal :=
  word t (.sth t rs ra mode disp) (storeBody t rs ra mode disp 2) s

/-- STW (03 R75). -/
def execStw (t : Tid) (rs ra : RegNo) (mode : BitVec 2) (disp : BitVec 12)
    (s : State) : Host.Outcome State Fault Refusal :=
  word t (.stw t rs ra mode disp) (storeBody t rs ra mode disp 4) s

/-- STD (03 R75). -/
def execStd (t : Tid) (rs ra : RegNo) (mode : BitVec 2) (disp : BitVec 12)
    (s : State) : Host.Outcome State Fault Refusal :=
  word t (.std t rs ra mode disp) (storeBody t rs ra mode disp 8) s

/-! ### Atomics -/

/-- An atomic's address: aligned to its size, and in a region where the atomic is valid (02 R53). `lock` names TAS and
RELS, which reach cluster memory and the Session Store only. The checks alone: the access itself waits. -/
def atomicAddr (t a n : Nat) (lock write : Bool) : M Nat := do
  if a % n ≠ 0 then raiseA xAlign a
  else
    let ok : Bool := match dRegion a with
      | .ownCl => true
      | .glob _ => true
      | .session => true
      | .dsram => !lock
      | .frame => !lock
      | _ => false
    if !ok then raiseA xDataProt a
    else do
      permitted t a n write
      pure (physOf (t / 4) a)

/-- The number that an atomic reads; it comes from memory, not from the data cache (05 R155). -/
def atomicRead (t a n : Nat) : M Nat := do
  let bs ← readHalf t a n
  pure (leNat bs)

/-- A lock of rank `rank` or of any higher rank is held (05 R184). -/
def rankHeld (held : BitVec 16) (rank : Nat) : Bool := decide (held.toNat / 2 ^ rank ≠ 0)

/-- TAS (03 R81; 05 R184). In Metered mode the lock value is captured (03 R96). (log 27, DEDUCED) -/
def tasBody (t : Tid) (rd ra : RegNo) (rank : BitVec 4) : M Next := do
  let n := t.toNat
  let th ← look (fun s => s.thr n)
  let a := (th.get ra).toNat
  let phys ← atomicAddr n a 8 true true
  if th.rankchk && rankHeld th.held rank.toNat then raiseV xRank
  else do
    let old ← atomicRead n a 8
    if old = 0 then
      if th.mode then
        capture (n / 4) [⟨1, 0xFF, BitVec.ofNat 48 (granule a), BitVec.ofNat 64 (n + 1), rank.setWidth 16⟩]
      else change (fun s => s.store (some n) phys (leBytes 8 (n + 1)))
      change (fun s => s.modThr n (fun h => { h with held := h.held ||| (1#16 <<< rank.toNat), spin := none }))
    change (fun s => s.setG n rd (BitVec.ofNat 64 old))
    pure .seq

/-- RELS (03 R82). -/
def relsBody (t : Tid) (ra : RegNo) (rank : BitVec 4) : M Next := do
  let n := t.toNat
  let th ← look (fun s => s.thr n)
  let a := (th.get ra).toNat
  let phys ← atomicAddr n a 8 true true
  let _ ← place n a 8 true false
  if th.mode then
    capture (n / 4) [⟨2, 0xFF, BitVec.ofNat 48 (granule a), 0, rank.setWidth 16⟩]
  else change (fun s => s.store (some n) phys (leBytes 8 0))
  change (fun s => s.modThr n (fun h => { h with held := h.held &&& ~~~ (1#16 <<< rank.toNat) }))
  pure .seq

/-- The size of the reservation table of the target that a physical number lies in, and the index of its eviction
counter; none for the own data SRAM, whose table is never full (05 R172). -/
def resvTable (phys : Nat) : Option (Nat × Nat) :=
  if 0x1000000000000 ≤ phys then none
  else if frameBase ≤ phys then some (128, 2)
  else if sessionBase ≤ phys then some (512, 1)
  else some (64, 0)

/-- Two physical numbers lie in one memory target (05 R166). -/
def sameTarget (a b : Nat) : Bool :=
  if 0x1000000000000 ≤ a ∨ 0x1000000000000 ≤ b then a / 0x8000 == b / 0x8000
  else if frameBase ≤ a ∨ frameBase ≤ b then decide (frameBase ≤ a) && decide (frameBase ≤ b)
  else if sessionBase ≤ a ∨ sessionBase ≤ b then decide (sessionBase ≤ a) && decide (sessionBase ≤ b)
  else a / 0x400000 == b / 0x400000

/-- Granules of captured SCs that the table of a target holds until their release (08 R271). -/
def State.scHeld (s : State) (phys : Nat) : Nat :=
  (s.cores.map (fun kc => (kc.2.scHit.filter (fun e => sameTarget e.2.1 phys)).length)).sum

/-- Set the thread's reservation; a full table evicts its oldest, which is counted (05 R170, R172). A captured SC's granule
keeps its place: where no other reservation stands, the new one finds none. (log 147, DEDUCED) -/
def State.reserve (s : State) (t phys : Nat) : State :=
  let rs := s.resvs.filter (fun r => decide (r.1 ≠ t))
  match resvTable phys with
  | none => { s with resvs := rs ++ [(t, resGranule phys)] }
  | some (size, m) =>
    let mine := rs.filter (fun r => sameTarget r.2 phys)
    if size ≤ mine.length + s.scHeld phys then
      match mine.head? with
      | some old =>
        ({ s with resvs := rs.filter (fun r => decide (r ≠ old)) ++ [(t, resGranule phys)] }).bump Fld.TL_RSVEV_COUNT 1 (4 * m)
      | none => { s with resvs := rs }
    else { s with resvs := rs ++ [(t, resGranule phys)] }

/-- LR and LRW (03 R83). -/
def lrBody (t : Tid) (rd ra : RegNo) (timed : Bool) (size : Nat) : M Next := do
  let n := t.toNat
  let th ← look (fun s => s.thr n)
  let now ← look (fun s => s.now)
  let a := (th.get ra).toNat
  let phys ← atomicAddr n a size false false
  let expired : Bool := match th.spin with
    | some since => timed && th.wtmo != 0 && decide (since + th.wtmo.toNat ≤ now)
    | none => false
  -- a word that has issued and waits has passed this check
  if expired && th.waiting.isNone then do
    change (fun s => s.modThr n (fun h => { h with spin := none }))
    raiseV xWaitTmo
  else do
    if timed && th.spin.isNone then change (fun s => s.modThr n (fun h => { h with spin := some now }))
    let v ← atomicRead n a size
    change (fun s => (s.reserve n phys).setG n rd (BitVec.ofNat 64 v))
    pure .seq

/-- SC and SCW (03 R84). In Metered mode a store whose check passed is captured (03 R96), one to the own data SRAM performed
at issue (08 R267). (log 132, DEDUCED) -/
def scBody (t : Tid) (rd ra rb : RegNo) (size : Nat) : M Next := do
  let n := t.toNat
  let th ← look (fun s => s.thr n)
  let a := (th.get ra).toNat
  let phys ← atomicAddr n a size false true
  let _ ← place n a size true false
  let held ← look (fun s => s.resvs.contains (n, resGranule phys))
  if held then
    if th.mode && dRegion a != .dsram then do
      let ix ← look (fun s => (s.core (n / 4)).cbuf.length)
      capture (n / 4) ((writeEntries a (leBytes size (th.get rb).toNat)).map (fun e => { e with kind := 3 }))
      change (fun s => s.modCore (n / 4) (fun c => { c with scHit := c.scHit ++ [(ix, resGranule phys, false)] }))
    else storeNat n a size (th.get rb).toNat
    change (fun s => s.modThr n (fun h => { h with spin := none }))
  change (fun s => (s.dropResv n).setG n rd (if held then 0 else 1))
  pure .seq

/-- RELS (03 R82). -/
def execRels (t : Tid) (ra : RegNo) (rank : BitVec 4) (s : State) : Host.Outcome State Fault Refusal :=
  word t (.rels t ra rank) (relsBody t ra rank) s

/-- LR (03 R83). -/
def execLr (t : Tid) (rd ra : RegNo) (timed : Bool) (s : State) : Host.Outcome State Fault Refusal :=
  word t (.lr t rd ra timed) (lrBody t rd ra timed 8) s

/-- LRW (03 R83). -/
def execLrw (t : Tid) (rd ra : RegNo) (timed : Bool) (s : State) : Host.Outcome State Fault Refusal :=
  word t (.lrw t rd ra timed) (lrBody t rd ra timed 4) s

/-- SC (03 R84). -/
def execSc (t : Tid) (rd ra rb : RegNo) (s : State) : Host.Outcome State Fault Refusal :=
  word t (.sc t rd ra rb) (scBody t rd ra rb 8) s

/-- SCW (03 R84). -/
def execScw (t : Tid) (rd ra rb : RegNo) (s : State) : Host.Outcome State Fault Refusal :=
  word t (.scw t rd ra rb) (scBody t rd ra rb 4) s

/-! ### Paired words (02 R39 to R42) -/

/-- The memory access of a slot: what a load brings. Registers are those before the word. -/
def slotAccess (t : Nat) (th : Thread) (x : ShortSlot) (slotB : Bool) : M Word := fun s =>
  let m : M Word :=
    if x.op.toNat = 27 then do
      let v ← loadNat t (th.get x.rs).toNat 8
      pure (BitVec.ofNat 64 v)
    else if x.op.toNat = 28 then do
      storeNat t (th.get x.rd).toNat 8 (th.get x.rs).toNat
      pure 0
    else pure (shortResult x (th.get x.rd) (th.get x.rs))
  match m s with
  | .error (.raise r) s' => .error (.raise { r with slotB := slotB }) s'
  | r => r

/-- A word that raises Prompt-overflow captures nothing: the commit buffer is `buf` again (08 R267). -/
def takeBack {α : Type} (t : Nat) (buf : List CbEntry) (m : M α) : M α := fun s =>
  match m s with
  | .error (.raise r) s' =>
    if r.vector = xOverflow then .error (.raise r) (s'.modCore (t / 4) (fun k => { k with cbuf := buf }))
    else .error (.raise r) s'
  | r => r

/-- A paired word: both slots read before either writes; slot A's access comes before slot B's (02 R39). -/
def pairBody (t : Tid) (a b : ShortSlot) : M Next := do
  let n := t.toNat
  let th ← look (fun s => s.thr n)
  if shortIllegal a || shortIllegal b then throw (.raise { vector := xIllegal, slotB := !shortIllegal a })
  else if pairIllegal a b then raiseV xIllegalPair
  else do
    let buf ← look (fun s => (s.core (n / 4)).cbuf)
    let va ← slotAccess n th a false
    let vb ← takeBack n buf (slotAccess n th b true)
    change (fun s =>
      let s := match shortWrites a with
        | some r => s.setG n r va
        | none => s
      match shortWrites b with
      | some r => s.setG n r vb
      | none => s)
    pure .seq

/-- A word with two short operations (02 R39). -/
def execPairedWord (t : Tid) (a b : ShortSlot) (s : State) : Host.Outcome State Fault Refusal :=
  word t (.pairedWord t a b) (pairBody t a b) s

end Sys2Proof.Machine
end

