-- ==== Sys2Proof/Machine/Microword.lean ====
section
/-! DEFINITION. The Attar sequencer: microwords, branches, YIELD and hooks (13_boot_attar_ledger.md R423 to R426).
With no valid hook in the cluster's copy the ROM routines do what the rules of their instructions say; once a patch has
hooked the ROM, a routine is what the sequencer runs, over a ROM whose words the manual does not give. -/

namespace Sys2Proof.Machine

/-! ### The store -/

/-- The Attar copy of a cluster. -/
def State.attarCopy (s : State) (cl : Nat) : AttarCopy := (tblGet s.attar.copies cl).getD {}

/-- The copy holds a valid hook. (log 12, DESIGN CHOICE) -/
def State.hooked (s : State) (cl : Nat) : Bool := (s.attarCopy cl).hooks.any (fun h => h.getLsbD 31)

/-- The microword at an address: ROM, or patch RAM. (log 12, DESIGN CHOICE) -/
def microFetch (x : AttarCopy) (a : Nat) : Word32 :=
  if 0x1000 ≤ a ∧ a < 0x1400 then x.words.getD (a - 0x1000) 0 else Config.attarRom a

/-- Where the sequencer goes for an address: to the patch, if a valid hook holds that ROM address (R426). -/
def hookTo (x : AttarCopy) (a : Nat) : Nat :=
  match x.hooks.find? (fun h => h.getLsbD 31 && bitsGet h 0 12 == a) with
  | some h => if a < 0x1000 then 0x1000 + bitsGet h 12 10 else a
  | none => a

/-! ### Operands and the ALU (R423) -/

/-- Codes 43 to 63 are reserved. -/
def operandOk (k : Nat) : Bool := decide (k ≤ 42)

/-- What an operand code reads. -/
def microGet (th : Thread) (k : Nat) : Word :=
  if k < 32 then th.get (BitVec.ofNat 5 k)
  else match k with
    | 40 => th.micro.mask
    | 41 => th.micro.pc
    | 42 => th.micro.ireg
    | _ => (th.micro.u.toArray[k - 32]?).getD 0

/-- Write an operand. -/
def microSet (th : Thread) (k : Nat) (v : Word) : Thread :=
  if k < 32 then th.set (BitVec.ofNat 5 k) v
  else match k with
    | 40 => { th with micro := { th.micro with mask := v } }
    | 41 => { th with micro := { th.micro with pc := v } }
    | 42 => { th with micro := { th.micro with ireg := v } }
    | _ => { th with micro := { th.micro with u := th.micro.u.setIfInBounds (k - 32) v } }

/-- The result of an ALU function; none for a reserved one. A shift by more than 63 and CTZ of 0 have no stated result. (log 117, DESIGN CHOICE) -/
def aluFn (fn : Nat) (a b : Word) : Option Word :=
  match fn with
  | 0 => some (a + b)
  | 1 => some (a - b)
  | 2 => some (a &&& b)
  | 3 => some (a ||| b)
  | 4 => some (a ^^^ b)
  | 5 => some (if b.toNat < 64 then a <<< b.toNat else Config.microAlu 5 a b)
  | 6 => some (if b.toNat < 64 then a >>> b.toNat else Config.microAlu 6 a b)
  | 7 => some (BitVec.ofNat 64 (popNat a))
  | 8 => some (a &&& (a - 1))
  | 9 => some (if a = 0 then Config.microAlu 9 a b else BitVec.ofNat 64 (ctzNat a))
  | 10 => some a
  | _ => none

/-- Carry of an addition; for every other function the manual gives C no value: bit 0 of `f`. (log 117, DESIGN CHOICE) -/
def aluCarry (fn : Nat) (a b f : Word) : Bool :=
  if fn = 0 then decide (2 ^ 64 ≤ a.toNat + b.toNat) else f.getLsbD 0

/-- Signed overflow of an addition or subtraction; for every other function V has no value: bit 1 of `f`. -/
def aluOver (fn : Nat) (a b f : Word) : Bool :=
  match fn with
  | 0 => decide ((a + b).toInt ≠ a.toInt + b.toInt)
  | 1 => decide ((a - b).toInt ≠ a.toInt - b.toInt)
  | _ => f.getLsbD 1

/-! ### Conditions (R424) -/

/-- Vector of the last access's fault. -/
def microFault (x : Micro) (v : BitVec 6) : Bool := x.fault.any (fun r => r.vector == v)

/-- Condition `k` of a bank for thread `t`, whose word names `ra`. -/
def State.microCond (s : State) (t : Nat) (ra : RegNo) (bank k : Nat) : Bool :=
  let th := s.thr t
  let x := th.micro
  if k = 7 then true
  else match bank, k with
    | 0, 0 => x.z
    | 0, 1 => x.n
    | 0, 2 => x.c
    | 0, 3 => x.v
    | 0, 4 => microGet th 39 == 0
    | 0, 5 => x.mask.getLsbD 0
    | 0, 6 => x.mask == 0
    | 1, 0 => x.fault.isSome
    | 1, 1 => microFault x xDataProt
    | 1, 2 => microFault x xEcc
    | 1, 3 => microFault x xMetered
    | 1, 4 => x.fault.any (fun r => r.split)
    | 1, 5 => x.tas
    | 1, 6 => microFault x xOverflow
    | 2, 0 => (s.bestOffer t).isSome
    | 2, 1 => th.mode
    | 2, 2 => th.rankchk
    | 2, 3 => x.resumed
    | 2, 4 => s.on Fld.CO_CTL_DUAL (coOff (t / 4))
    | 2, 5 => ra == 30
    | 2, 6 => ra == 31
    | _, _ => false

/-- The next microaddress of a BRANCH. -/
def State.branchTo (s : State) (t : Nat) (ra : RegNo) (w : Word32) : Nat :=
  let c := ((List.range (bitsGet w 24 2 + 1)).map (fun i =>
    b2n (s.microCond t ra (bitsGet w 26 2) (bitsGet w (12 + 3 * i) 3)) * 2 ^ i)).sum
  (bitsGet w 0 12 * 2) ||| c

/-! ### One microword -/

/-- What a microword leads to. -/
inductive MicroNext where
  | at_ (a : Nat)
  | yield (a : Nat)
  | done (n : Next)
  deriving DecidableEq, Repr

/-- A reserved microword: Illegal, and an error of the cluster's Attar copy with cause 10. (log 117, DESIGN CHOICE) -/
def microReserved {α : Type} (t : Nat) : M α := fun s =>
  raiseV xIllegal ((s.modThr t (fun h => { h with resume := h.micro.step })).report (unitOf 1 (t / 32)) 10 0)

/-- The access of a MEM microword: what D takes. A fault ends the access and sets the bank-1 conditions. -/
def microAccess (t : Nat) (m : M Word) : M (Option Word) := fun s =>
  match m s with
  | .ok v s' => .ok (some v) (s'.modThr t (fun th => { th with micro := { th.micro with fault := none } }))
  | .error (.raise x) s' => .ok none (s'.modThr t (fun th => { th with micro := { th.micro with fault := some x } }))
  | .error (.wait w) s' => .error (.wait w) s'

/-- The remote TAS of a MEM microword (03 R81): the word as read; the lock value is written where it read 0. -/
def microTas (t a : Nat) (rank : BitVec 4) : M Word := do
  let phys ← atomicAddr t a 8 true true
  let th ← look (fun s => s.thr t)
  let old ← atomicRead t a 8
  if old = 0 then
    if th.mode then
      capture (t / 4) [⟨1, 0xFF, BitVec.ofNat 48 (granule a), BitVec.ofNat 64 (t + 1), rank.setWidth 16⟩]
    else change (fun s => s.store (some t) phys (leBytes 8 (t + 1)))
    change (fun s => s.modThr t (fun h => { h with held := h.held ||| (1#16 <<< rank.toNat), spin := none }))
  change (fun s => s.modThr t (fun h => { h with micro := { h.micro with tas := decide (old ≠ 0) } }))
  pure (BitVec.ofNat 64 old)

/-- A MEM microword. -/
def microMem (t : Nat) (rank : BitVec 4) (w : Word32) : M Unit := do
  let th ← look (fun s => s.thr t)
  let d := bitsGet w 18 6
  let a := (microGet th (bitsGet w 12 6) + sextNat 12 (bitsGet w 0 12)).toNat
  let n := 2 ^ bitsGet w 24 2
  let r ← microAccess t (match bitsGet w 26 2 with
    | 0 => do
      let v ← loadNat t a n
      pure (BitVec.ofNat 64 v)
    | 1 => do
      storeNat t a n (microGet th d).toNat
      pure 0
    | _ => microTas t a rank)
  match r with
  | some v => if bitsGet w 26 2 = 1 then pure () else change (fun s => s.modThr t (fun h => microSet h d v))
  | none => pure ()

/-- An ALU microword: D, Z, N, C and V. -/
def microAlu (t : Nat) (w : Word32) (r a b : Word) : M Unit := fun s =>
  let f := s.free
  .ok () (f.2.modThr t (fun th =>
    let th := microSet th (bitsGet w 18 6) r
    { th with micro := { th.micro with
        z := r == 0, n := r.getLsbD 63, c := aluCarry (bitsGet w 24 4) a b f.1, v := aluOver (bitsGet w 24 4) a b f.1 } }))

/-- CALL and its return, on a stack of two entries. -/
def microCall (t a : Nat) (w : Word32) : M MicroNext := do
  let st ← look (fun s => (s.thr t).micro.stack)
  let put (l : List Nat) : M Unit := change (fun s => s.modThr t (fun h => { h with micro := { h.micro with stack := l } }))
  if w.getLsbD 27 then
    match st with
    | [] => microReserved t
    | r :: l => do
      put l
      pure (.at_ r)
  else if 2 ≤ st.length then microReserved t
  else do
    put ((a + 1) :: st)
    pure (.at_ (bitsGet w 0 13))

/-- END: the word ends, or raises the exception that the microword names. -/
def microEnd (t : Nat) (w : Word32) : M MicroNext := do
  let th ← look (fun s => s.thr t)
  let v := bitsGet w 0 6
  if v ≠ 0 then do
    change (fun s => s.modThr t (fun h => { h with resume := h.micro.step }))
    throw (.raise { (th.micro.fault.getD { vector := 0 }) with vector := BitVec.ofNat 6 v })
  else if w.getLsbD 6 then do
    let pc : Word32 := (microGet th 38).setWidth 32 &&& 0xFFFFFFFC#32
    change (fun s => s.lbTransfer t pc)
    pure (.done (.jump pc))
  else pure (.done .seq)

/-- Run the microword `w` at address `a`. -/
def microStep (t : Nat) (ra : RegNo) (rank : BitVec 4) (a : Nat) (w : Word32) : M MicroNext := do
  let th ← look (fun s => s.thr t)
  match bitsGet w 28 4 with
  | 0 =>
    let x := microGet th (bitsGet w 12 6)
    let imm := w.getLsbD 5
    let y := if imm then BitVec.ofNat 64 (bitsGet w 6 6) else microGet th (bitsGet w 6 6)
    if !operandOk (bitsGet w 18 6) || !operandOk (bitsGet w 12 6) || (!imm && !operandOk (bitsGet w 6 6)) then
      microReserved t
    else match aluFn (bitsGet w 24 4) x y with
      | some r => do
        microAlu t w r x y
        pure (.at_ (a + 1))
      | none => microReserved t
  | 1 =>
    if bitsGet w 26 2 = 3 || !operandOk (bitsGet w 18 6) || !operandOk (bitsGet w 12 6) then microReserved t
    else do
      microMem t rank w
      pure (.at_ (a + 1))
  | 2 =>
    if !operandOk (bitsGet w 22 6) then microReserved t
    else do
      change (fun s => s.modThr t (fun h => microSet h (bitsGet w 22 6) (sextNat 22 (bitsGet w 0 22))))
      pure (.at_ (a + 1))
  | 3 => do
    let n ← look (fun s => s.branchTo t ra w)
    pure (.at_ n)
  | 4 => microCall t a w
  | 5 => do
    change (fun s => s.modThr t (fun h => { h with micro := { h.micro with step := some (bitsGet w 0 12) } }))
    pure (.yield (a + 1))
  | 6 => microEnd t w
  | _ => microReserved t

/-! ### A routine -/

/-- The most microwords that run between two YIELDs: a routine that has not reached a YIELD or its end by then never
does, and its word does not complete. (log 117, DESIGN CHOICE) -/
def microFuel : Nat := 65536

/-- Run from address `a` until the routine ends, or until it has passed `steps` YIELDs. -/
def microRun (t : Nat) (ra : RegNo) (rank : BitVec 4) : Nat → Nat → Nat → M Next
  | 0, _, _ => waitFor .turn
  | fuel + 1, steps, a => do
    let x ← look (fun s => s.attarCopy (t / 32))
    let a := hookTo x a
    let r ← microStep t ra rank a (microFetch x a)
    match r with
    | .done n => do
      change (fun s => s.modThr t (fun h => { h with micro := { h.micro with live := false } }))
      pure n
    | .at_ b => microRun t ra rank fuel steps b
    | .yield b =>
      if steps ≤ 1 then do
        change (fun s => s.modThr t (fun h => { h with micro := { h.micro with live := true, addr := b } }))
        let k ← look (fun s => (s.thr t).micro.step.getD 0)
        pure (.stay k)
      else microRun t ra rank fuel (steps - 1) b

/-- The steps that a routine runs before it stops: one where an interrupt is deliverable at its interruption points
(04 R139; 13 R425). (log 152, DESIGN CHOICE) -/
def State.stepsNow (s : State) (t steps : Nat) : Nat :=
  if !(s.thr t).mode && (s.bestOffer t).isSome then 1 else max 1 steps

/-- Begin the routine, resume it with u7 holding MPROG, or go on behind the YIELD at which it stands: the address. -/
def State.microBegin (s : State) (t r : Nat) (w : Word32) : Nat × State :=
  let th := s.thr t
  match th.resume with
  | some k =>
    if th.micro.live then (th.micro.addr, s)
    else (Config.attarResume r, s.modThr t (fun h => { h with micro := { h.micro with
      u := h.micro.u.setIfInBounds 7 (BitVec.ofNat 64 k), mask := (w &&& 0xFFFF#32).setWidth 64, pc := h.pc.setWidth 64,
      ireg := w.setWidth 64, stack := [], fault := none, tas := false, resumed := true, step := some k } }))
  | none => (Config.attarEntry r, s.modThr t (fun h => { h with micro := { h.micro with
      mask := (w &&& 0xFFFF#32).setWidth 64, pc := h.pc.setWidth 64,
      ireg := w.setWidth 64, stack := [], fault := none, tas := false, resumed := false, step := none } }))

/-- The micro-routine `r` of a word: what the word's own rules give, or, once the cluster's copy is hooked, what the
sequencer runs; a remote TAS has no interruption point (04 R139). -/
def microOr (t : Tid) (r : Nat) (i : Instr) (ra : RegNo) (rank : BitVec 4) (steps : Nat) (body : M Next) : M Next := fun s =>
  let n := t.toNat
  if s.hooked (n / 32) then
    let b := s.microBegin n r ((encodeWord i).getD 0)
    microRun n ra rank microFuel (if r = 4 then microFuel else s.stepsNow n steps) b.1 b.2
  else body s

end Sys2Proof.Machine
end

