-- ==== Sys2Proof/Machine/Micro.lean ====
section
/-! DEFINITION. The interruptible micro-routines CALLM, RETM, MOVB and FILLB (03 R78 to R80, R95; 04 R139 to R141).
The operand `steps` of a command says how many steps run before the routine stops at an interruption point; a command
runs at least one. -/

namespace Sys2Proof.Machine

/-- Remember the step in progress: an exception in it makes the frame's MIP 1 and its MPROG `k` (04 R139). -/
def atStep (t k : Nat) : M Unit := change (fun s => s.modThr t (fun th => { th with resume := some k }))

/-- A Metered instruction that would need a 129th entry raises Prompt-overflow before it captures any (03 R96). (log 121, DESIGN CHOICE) -/
def roomFor (t : Nat) (writes : List (Nat × List Byte)) : M Unit := fun s =>
  let es := (writes.filter (fun w => isCaptured s t w.1)).flatMap (fun w => writeEntries w.1 w.2)
  if (s.thr t).mode && decide (cbufSize < (es.foldl cbAdd (s.core (t / 4)).cbuf).length) then
    .error (.raise { vector := xOverflow }) s
  else .ok () s

/-- CALLM's target: ra, or where ra is sp the value that sp held before (04 R140). -/
def callTarget (th : Thread) (ra : RegNo) (n : Nat) : Word32 :=
  if ra = 30 then (th.sp + BitVec.ofNat 64 (16 + 8 * n)).setWidth 32 else (th.get ra).setWidth 32

/-- The stores of CALLM's steps 1 to 2 + n, in order: offset from F and value. -/
def callStores (th : Thread) (mask : BitVec 16) : List Word :=
  mask.setWidth 64 :: th.lk :: (maskRegs mask).map th.get

/-- Steps 1 to 2 + n of CALLM from step `k` on, at most `fuel` of them; answers the step that comes next. (log 26, DEDUCED) -/
def callSteps (t : Nat) (vals : List Word) : Nat → Nat → M Nat
  | 0, k => pure k
  | fuel + 1, k =>
    match vals[k - 1]? with
    | none => pure k
    | some v => do
      atStep t k
      let th ← look (fun s => s.thr t)
      storeSplit t (th.sp + BitVec.ofNat 64 (8 * (k - 1))).toNat (leBytes 8 v.toNat) true
      callSteps t vals fuel (k + 1)

/-- The stores of a CALLM frame word at `a` meet no refused address: where one does, its step raises the address's
exception, and the buffer's room is not asked for before (03 R96). -/
def frameReach (s : State) (t a : Nat) : Bool :=
  let k := firstHalf a 8
  let ok (b n : Nat) : Bool := match permitted t b n true s with
    | .ok _ _ => true
    | .error _ _ => false
  ok a k && (k == 8 || ok ((a + k) % 2 ^ 64) (8 - k))

/-- CALLM (03 R78, R79). (log 131, DEDUCED) -/
def callBody (t : Tid) (ra : RegNo) (mask : BitVec 16) (steps : Nat) : M Next := do
  let n := (maskRegs mask).length
  let tn := t.toNat
  let th ← look (fun s => s.thr tn)
  let steps ← look (fun s => s.stepsNow tn steps)
  let start := th.resume.getD 0
  if start = 0 then do
    let tgt : Word32 := (th.get ra).setWidth 32
    if tgt.toNat % 4 ≠ 0 then raiseA xAlign tgt.toNat
    let f := th.sp - BitVec.ofNat 64 (16 + 8 * n)
    let ws := (List.range (n + 2)).map (fun j =>
      ((f + BitVec.ofNat 64 (8 * j)).toNat, leBytes 8 ((callStores th mask).getD j 0).toNat))
    if (← look (fun s => ws.all (fun w => frameReach s tn w.1))) then roomFor tn ws
    change (fun s => s.setG tn 30 f)
  let th ← look (fun s => s.thr tn)
  let first := max 1 start
  let left := if start = 0 then steps - 1 else steps
  let k ← callSteps tn (callStores th mask) left first
  if k = n + 3 ∧ k < first + left then do
    let th ← look (fun s => s.thr tn)
    let tgt := callTarget th ra n
    change (fun s => (s.setG tn 31 ((th.pc + 4).setWidth 64)).lbTransfer tn tgt)
    pure (.jump tgt)
  else pure (.stay k)

/-- Steps of RETM from step `k` on that restore registers. (log 26, DEDUCED) -/
def retSteps (t : Nat) (rs : List RegNo) : Nat → Nat → M Nat
  | 0, k => pure k
  | fuel + 1, k =>
    match rs[k]? with
    | none => pure k
    | some r => do
      if k ≠ 0 then atStep t k
      let th ← look (fun s => s.thr t)
      let v ← loadNat t (th.sp + BitVec.ofNat 64 (16 + 8 * k)).toNat 8
      change (fun s => s.setG t r (BitVec.ofNat 64 v))
      retSteps t rs fuel (k + 1)

/-- RETM (03 R78 to R80): the last step makes its four assignments together. -/
def retBody (t : Tid) (mask : BitVec 16) (steps : Nat) : M Next := do
  let rs := maskRegs mask
  let tn := t.toNat
  let th ← look (fun s => s.thr tn)
  let start := th.resume.getD 0
  let steps ← look (fun s => s.stepsNow tn steps)
  let k ← retSteps tn rs steps start
  if k = rs.length ∧ k < start + steps then do
    if k ≠ 0 then atStep tn k
    let th ← look (fun s => s.thr tn)
    let v ← loadNat tn (th.sp + 8).toNat 8
    let tgt : Word32 := th.lk.setWidth 32
    change (fun s => ((s.setG tn 31 (BitVec.ofNat 64 v)).setG tn 30
      (th.sp + BitVec.ofNat 64 (16 + 8 * rs.length))).lbTransfer tn tgt)
    pure (.jump tgt)
  else if k = 0 then pure (.stay 0)
  else pure (.stay k)

/-! ### MOVB and FILLB -/

/-- The bytes of one step of MOVB, destination and source of each, and the thread after them (03 R95). -/
def movPlan (rd ra rb : RegNo) : Nat → Thread → List (Nat × Nat) × Thread
  | 0, th => ([], th)
  | n + 1, th =>
    if th.get rb = 0 then ([], th)
    else
      let th1 := th.set rd (th.get rd + 1)
      let th2 := th1.set ra (th1.get ra + 1)
      let r := movPlan rd ra rb n (th2.set rb (th2.get rb - 1))
      (((th.get rd).toNat, (th.get ra).toNat) :: r.1, r.2)

/-- The bytes of one step of FILLB, destination and byte of each, and the thread after them. -/
def fillPlan (rd ra rb : RegNo) : Nat → Thread → List (Nat × Byte) × Thread
  | 0, th => ([], th)
  | n + 1, th =>
    if th.get rb = 0 then ([], th)
    else
      let th1 := th.set rd (th.get rd + 1)
      let r := fillPlan rd ra rb n (th1.set rb (th1.get rb - 1))
      (((th.get rd).toNat, (th.get ra).setWidth 8) :: r.1, r.2)

/-- Bytes at consecutive addresses of one data-space region, run by run: the first address and the bytes. (log 118, DEDUCED) -/
def byteRuns {α : Type} : List (Nat × α) → List (Nat × List α)
  | [] => []
  | (a, b) :: l =>
    match byteRuns l with
    | (k, bs) :: r => if k = a + 1 && dRegion k == dRegion a then (a, b :: bs) :: r else (a, [b]) :: (k, bs) :: r
    | [] => [(a, [b])]

/-- The checks of the addresses of runs come before any byte of them is read (02 R43). -/
def permitRuns (t : Nat) (write : Bool) : List (Nat × List Nat) → M Unit
  | [] => pure ()
  | (a, l) :: r => do
    permitted t a l.length write
    permitRuns t write r

/-- Read the bytes of runs. (log 118, DEDUCED) -/
def readRuns (t : Nat) : List (Nat × List Nat) → M (List Byte)
  | [] => pure []
  | (a, l) :: r => do
    let x ← readHalf t a l.length
    let y ← readRuns t r
    pure (x ++ y)

/-- Every run can be written: a step that raises an exception writes nothing. (log 118, DEDUCED) -/
def checkRuns (t : Nat) : List (Nat × List Byte) → M Unit
  | [] => pure ()
  | (a, bs) :: r => do
    match ← place t a bs.length true false with
    | .die phys =>
      if (← look (fun s => !isCaptured s t a && s.badWrite phys bs.length)) then writeAt t a bs (.die phys)
    | .host _ => pure ()
    checkRuns t r

/-- Write runs. -/
def writeRuns (t : Nat) : List (Nat × List Byte) → M Unit
  | [] => pure ()
  | (a, bs) :: r => do
    writeHalf t a bs
    writeRuns t r

/-- What each destination of a step takes: the source byte, or the byte that the step itself has written there. -/
def movBytes (c : Nat) : List (Nat × Nat) → List Byte → List (Nat × Byte) → List (Nat × Byte)
  | (d, a) :: l, b :: bs, done =>
    let v := (done.lookup (physOf c a)).getD b
    (d, v) :: movBytes c l bs ((physOf c d, v) :: done)
  | _, _, _ => []

/-- Write the bytes of one step, all of them or none. (log 118, DEDUCED) -/
def stepWrite (t : Nat) (l : List (Nat × Byte)) : M Unit := do
  let w := byteRuns l
  checkRuns t w
  roomFor t w
  writeRuns t w

/-- Steps of up to 64 bytes; each leaves its progress in the registers. -/
def movSteps (t : Nat) (rd ra rb : RegNo) : Nat → M Next
  | 0 => pure (.stay 1)
  | fuel + 1 => do
    let th ← look (fun s => s.thr t)
    let p := movPlan rd ra rb 64 th
    if p.1.isEmpty then pure .seq
    else do
      let src := byteRuns (p.1.map (fun e => (e.2, e.1)))
      permitRuns t false src
      permitRuns t true (byteRuns p.1)
      let bs ← readRuns t src
      stepWrite t (movBytes (t / 4) p.1 bs [])
      change (fun s => s.modThr t (fun h => { h with regs := p.2.regs, resume := some 1 }))
      if p.2.get rb = 0 then pure .seq else movSteps t rd ra rb fuel

/-- MOVB (03 R95). -/
def movBody (t : Tid) (rd ra rb : RegNo) (steps : Nat) : M Next :=
  if rb ≠ 0 ∧ (rb = rd ∨ rb = ra) then raiseV xIllegal
  else fun s => movSteps t.toNat rd ra rb (s.stepsNow t.toNat steps) s

def fillSteps (t : Nat) (rd ra rb : RegNo) : Nat → M Next
  | 0 => pure (.stay 1)
  | fuel + 1 => do
    let th ← look (fun s => s.thr t)
    let p := fillPlan rd ra rb 64 th
    if p.1.isEmpty then pure .seq
    else do
      stepWrite t p.1
      change (fun s => s.modThr t (fun h => { h with regs := p.2.regs, resume := some 1 }))
      if p.2.get rb = 0 then pure .seq else fillSteps t rd ra rb fuel

/-- FILLB (03 R95). -/
def fillBody (t : Tid) (rd ra rb : RegNo) (steps : Nat) : M Next :=
  if rb ≠ 0 ∧ rb = rd then raiseV xIllegal
  else fun s => fillSteps t.toNat rd ra rb (s.stepsNow t.toNat steps) s

/-- CALLM (03 R78). -/
def execCallm (t : Tid) (ra : RegNo) (mask : BitVec 16) (steps : Nat)
    (s : State) : Host.Outcome State Fault Refusal :=
  word t (.callm t ra mask steps) (microOr t 0 (.callm t ra mask steps) ra 0 steps (callBody t ra mask steps)) s

/-- RETM (03 R78, R80). -/
def execRetm (t : Tid) (mask : BitVec 16) (steps : Nat) (s : State) : Host.Outcome State Fault Refusal :=
  word t (.retm t mask steps) (microOr t 1 (.retm t mask steps) 0 0 steps (retBody t mask steps)) s

/-- MOVB (03 R95). -/
def execMovb (t : Tid) (rd ra rb : RegNo) (steps : Nat) (s : State) : Host.Outcome State Fault Refusal :=
  word t (.movb t rd ra rb steps)
    (if rb ≠ 0 ∧ (rb = rd ∨ rb = ra) then raiseV xIllegal
     else microOr t 2 (.movb t rd ra rb steps) ra 0 steps (movBody t rd ra rb steps)) s

/-- FILLB (03 R95). -/
def execFillb (t : Tid) (rd ra rb : RegNo) (steps : Nat) (s : State) : Host.Outcome State Fault Refusal :=
  word t (.fillb t rd ra rb steps)
    (if rb ≠ 0 ∧ rb = rd then raiseV xIllegal
     else microOr t 3 (.fillb t rd ra rb steps) ra 0 steps (fillBody t rd ra rb steps)) s

/-- TAS (03 R81); a TAS that is not on the own cluster's memory is a micro-routine (04 R139). -/
def execTas (t : Tid) (rd ra : RegNo) (rank : BitVec 4) (s : State) : Host.Outcome State Fault Refusal :=
  word t (.tas t rd ra rank)
    (if clusterOf (t.toNat / 4) (s.g t.toNat ra).toNat = some (t.toNat / 32) then tasBody t rd ra rank
     else microOr t 4 (.tas t rd ra rank) ra rank 1 (tasBody t rd ra rank)) s

end Sys2Proof.Machine
end

