-- ==== Sys2Proof/Machine/Entries.lean ====
section
/-! DEFINITION. Entry to exceptions and interrupts as commands of their own, thread resets, the timers of a core and of
WAITE, declined offers, and the update of Boundary fields (00 R11; 02 R37, R40, R43, R56; 03 R86; 04 R129 to R138;
09 R306 to R312). -/

namespace Sys2Proof.Machine

/-! ### EXCEPTION_ENTRY -/

/-- An addressing mode that a load or store word may not hold (02 R64). -/
def memIllegal (th : Thread) (load : Option RegNo) (ra : RegNo) (mode : BitVec 2) (disp : BitVec 12) : Bool :=
  (memOperand th load ra mode disp).isNone

/-- The decode exception of an instruction word, if it raises one (R43 steps 2 and 3). (log 47, DESIGN CHOICE) -/
def decodeVector (th : Thread) (w : Word32) : Option (BitVec 6) :=
  match decodeWord 0 w with
  | none => some xIllegal
  | some (.pairedWord _ a b) => if pairIllegal a b then some xIllegalPair else none
  | some (.ldb _ rd ra m d) | some (.ldbs _ rd ra m d) | some (.ldh _ rd ra m d) | some (.ldhs _ rd ra m d)
  | some (.ldw _ rd ra m d) | some (.ldws _ rd ra m d) | some (.ldd _ rd ra m d) =>
    if memIllegal th (some rd) ra m d then some xIllegal else none
  | some (.stb _ _ ra m d) | some (.sth _ _ ra m d) | some (.stw _ _ ra m d) | some (.std _ _ ra m d) =>
    if memIllegal th none ra m d then some xIllegal else none
  | some (.movb _ rd ra rb _) => if rb ≠ 0 ∧ (rb = rd ∨ rb = ra) then some xIllegal else none
  | some (.fillb _ rd _ rb _) => if rb ≠ 0 ∧ rb = rd then some xIllegal else none
  | _ => none

/-- Slot B alone of a paired word makes it Illegal (04, CO_XCAUSE.SLOTB). -/
def slotBIllegal (w : Nat) : Bool :=
  decide (2 ^ 31 ≤ w) && w % 2 == 0 && !slotReserved (slotOf (w / 65536 % 32768)) && slotReserved (slotOf (w / 2 % 32768))

/-- What an entry command raises: the fetch or decode exception of the word at PC, or the exception it names. A word
that raises neither is executed by its own command. -/
def entryBody (t : Tid) (cause : EntryCause) : M Next :=
  match cause with
  | .raised x => if 1 ≤ x.vector.toNat ∧ x.vector.toNat ≤ 15 then throw (.raise x) else stall
  | .fetched => do
    let th ← look (fun s => s.thr t.toNat)
    let a := th.pc.toNat / 4 * 4
    let w ← atAddr a (fetchWord t.toNat a)
    match decodeVector th w with
    | some v => throw (.raise { vector := v, slotB := v == xIllegal && slotBIllegal w.toNat })
    | none => stall

/-- EXCEPTION_ENTRY (R132). (log 20, DESIGN CHOICE; log 47, DESIGN CHOICE) -/
def execExceptionEntry (t : Tid) (cause : EntryCause) (s : State) : Host.Outcome State Fault Refusal :=
  word t (.exceptionEntry t cause) (entryBody t cause) s

/-! ### INTERRUPT_ENTRY -/

/-- Write the claim slot of a level, whatever it held before (09 R309). -/
def State.writeClaim (s : State) (t : Nat) (c : Claim) : State :=
  s.modThr t (fun th => { th with claims := c :: th.claims.filter (fun d => d.level != c.level) })

/-- The entering thread claims the interrupt's source (09 R295, R308, R309). (log 48, DEDUCED) -/
def State.claim (s : State) (t : Nat) (d : Deliverable) : State :=
  match d.key with
  | none => s.writeClaim t ⟨d.level, 0, true, false, false⟩
  | some k =>
    if 1024 ≤ k then
      let mbx := !(s.thr t).mailbox.isEmpty
      let que := s.crier.que.contains t
      let s := s.modCrier (fun c => { c with que := c.que.filter (· != t) })
      let s := s.writeClaim t ⟨d.level, srcOf k, false, mbx, que⟩
      (s.delivered k).setSrc k { ((s.delivered k).src k) with claimed := some t, asserted := mbx, fell := false }
    else
      let s := (s.writeClaim t ⟨d.level, k, false, false, false⟩).delivered k
      if isLevel k then s.setSrc k { (s.src k) with claimed := some t, fell := false } else s

/-- The thread can be entered at an instruction boundary or an interruption point (R131): no word of it has issued and
waits, but for the entry itself. -/
def State.atBoundary (s : State) (t : Nat) : Bool :=
  (s.thr t).hostRd.isNone && !s.copyWriting (t / 32) &&
    (s.thr t).waiting.all (fun i => match i with
      | .interruptEntry _ => true
      | _ => false)

/-- INTERRUPT_ENTRY (R131, R132, R134). (log 48, DEDUCED) -/
def execInterruptEntry (t : Tid) (s : State) : Host.Outcome State Fault Refusal :=
  let n := t.toNat
  if !s.atBoundary n then .next s
  else
    match s.bestOffer n with
    | none => .next s
    | some d =>
      let th := s.thr n
      let v := 32 + d.level
      match entryFrame n v th.pc (frameSt th th.resume) s with
      | .ok h s' =>
        let s' := if th.far.isSome then s'.bump Fld.ANX_CNT_ABAND_COUNT else s'
        .next (((s'.enterHandler n { vector := BitVec.ofNat 6 v } (some d.level) h).claim n d).crierScan)
      | .error (.raise y) s' =>
        .next (s'.haltThread n { vector := BitVec.ofNat 6 v, addr0 := y.addr0 }).crierScan
      | .error (.wait w) _ => .next (s.park n (.interruptEntry t) w)

/-! ### Thread resets (R136) -/

/-- The enable bit of a thread, in effect. -/
def State.threadOn (s : State) (t : Nat) : Bool := bitOf (s.cfg Fld.CO_CTL_TEN (coOff (t / 4))) (t % 4)

/-- A thread reset as CO_TCTL.RST gives it. (log 112, DEDUCED) -/
def State.resetThread (s : State) (t : Nat) : State :=
  if !s.threadOn t || s.coreRetired (t / 4) then s
  else if s.coreMetered (t / 4) then
    (if t % 4 = 0 ∧ ((s.thr t).tstate = .meteredIdle ∨ (s.thr t).tstate = .halted) then
s.meteredReset t
    else s)
  else s.doReset t

/-- THREAD_RESET (R136). -/
def execThreadReset (t : Tid) (s : State) : Host.Outcome State Fault Refusal := device (s.resetThread t.toNat)

/-! ### Timers -/

/-- WAIT_TIMEOUT (03 R86): the frame names the word after WAITE, which is where PC stands. (log 15, DESIGN CHOICE) -/
def execWaitTimeout (t : Tid) (s : State) : Host.Outcome State Fault Refusal :=
  let n := t.toNat
  let th := s.thr n
  match th.waitAt with
  | some (since, true) =>
    if th.tstate == .wait && th.wtmo != 0 && decide (since + th.wtmo.toNat ≤ s.now) && s.awake n &&
        !s.copyWriting (n / 32) && ((s.bestOffer n).isNone || th.waiting.isSome) then
      match takeException n { vector := xWaitTmo } th.pc none s with
      | .ok _ s' => device s'
      | .error (.wait w) _ => .next (s.park n (.waitTimeout t) w)
      | .error (.raise _) s' => .next s'
    else .next s
  | _ => .next s

/-- LOCAL_TIMER_EXPIRY (04 R138). -/
def execLocalTimerExpiry (c : CoreId) (s : State) : Host.Outcome State Fault Refusal :=
  let n := c.toNat
  match (s.core n).ltimer with
  | some d =>
    if d ≤ s.now then device ((s.modCore n (fun k => { k with ltimer := none })).put Fld.CO_LTCTL_PEND 1 (coOff n))
    else .next s
  | none => .next s

/-! ### Declined offers (09 R306) -/

/-- DECLINE: at its boundary the thread declines the standing offers that its THR or IL no longer admits; others it takes. -/
def execDecline (t : Tid) (s : State) : Host.Outcome State Fault Refusal :=
  let n := t.toNat
  let gone := s.crier.offers.filter (fun o => o.thread == n && s.stands o && !s.candidate o.level n)
  if gone.isEmpty then .next s
  else
    let s := s.modCrier (fun c => { c with offers := c.offers.filter (fun o => !gone.contains o) })
    .next (s.bump Fld.CR_CNT_DECLINE_COUNT gone.length).crierScan

/-! ### Boundary fields (00 R11, R12) -/

/-- Copy the Boundary fields of a register from the last value written to the value in effect. -/
def State.boundaryCopy (s : State) (a : Nat) : State :=
  match findReg a with
  | some (d, _) =>
    let fs := d.fields.filter (fun f => f.upd == .boundary)
    if fs.isEmpty then s
    else s.setEff a (fs.foldl (fun w f => bitsSet w f.lo f.width (bitsGet (s.reg a) f.lo f.width)) (s.effReg a))
  | none => s

/-- The thread stands between two words (R11): no word of it waits and no micro-routine is unfinished. (log 51, DEDUCED) -/
def State.betweenWords (s : State) (t : Nat) : Bool :=
  let th := s.thr t
  th.hostRd.isNone && th.waiting.isNone && th.hostGot.isEmpty && th.resume.isNone && th.tstate != .farWait

/-- The enable of one thread takes effect at its boundary: 0 to 1 resets the thread, 1 to 0 disables it. -/
def State.enableUpdate (s : State) (c i : Nat) : State :=
  let o := coOff c
  let new := bitOf (s.get Fld.CO_CTL_TEN o) i
  let t := 4 * c + i
  if new == bitOf (s.cfg Fld.CO_CTL_TEN o) i || !s.betweenWords t then s
  else
    let s := s.setEff (Reg.CO_CTL + o) (bitsSet (s.effReg (Reg.CO_CTL + o)) i 1 (b2n new))
    if new then (if s.coreRetired c then s else s.doReset t) else s.disableThread t

/-- The loop buffer disengages at the owner's next instruction boundary once LBEN is 0 (04 R121). -/
def State.lbEnable (s : State) (c : Nat) : State :=
  match (s.core c).lb with
  | some l => if s.on Fld.CO_CTL_LBEN (coOff c) || !s.betweenWords (4 * c + l.owner) then s else s.lbClear c
  | none => s

/-- The Boundary fields of CO_CTL of a core. TEN of a core in the Metered role stays 0b0001 (04 R142). -/
def State.coreUpdate (s : State) (c : Nat) : State :=
  let o := coOff c
  let a := Reg.CO_CTL + o
  let s := s.setEff a (bitsSet (s.effReg a) 4 3 (bitsGet (s.reg a) 4 3))
  let s := s.lbEnable c
  if s.coreMetered c then (s.put Fld.CO_CTL_TEN 1 o).setEff a (bitsSet (s.effReg a) 0 4 1)
  else foldN s [0, 1, 2, 3] (fun s i => s.enableUpdate c i)

/-- The core whose CO_CTL lies at an I/O address. (log 49, DEDUCED) -/
def coreCtlAt (a : Nat) : Option Nat :=
  match findReg a with
  | some (d, i) => if d.base = Reg.CO_CTL then some i else none
  | none => none

/-- BOUNDARY_UPDATE (00 R11): the boundary of the register's Boundary fields is reached. A table-frame boundary is that
of BANK_SWITCH. (log 51, DEDUCED) -/
def execBoundaryUpdate (a : IoAddr) (s : State) : Host.Outcome State Fault Refusal :=
  match coreCtlAt a.toNat with
  | some c => device (s.coreUpdate c)
  | none => if a.toNat = Reg.PS_BANK then .next s.bankSwitch else device (s.boundaryCopy a.toNat)

end Sys2Proof.Machine
end

