-- ==== Sys2Proof/Machine/Meters.lean ====
section
/-! DEFINITION. Session and class meters (11_tally_and_timebase.md R358, R359). A bucket is counted in 1/125000 byte:
a rate of 64 kb/s is one such unit a nanosecond. Session meter m has number m, class meter m number 1024 + m. -/

namespace Sys2Proof.Machine

def State.meter (s : State) (m : Nat) : Meter := (tblGet s.tally.meters m).getD {}

def State.setMeter (s : State) (m : Nat) (x : Meter) : State :=
  s.modTally (fun t => { t with meters := tblPut t.meters m x })

/-- Offset of meter `m`'s registers from those of session meter 0 or class meter 0. -/
def meterOff (m : Nat) : Nat := 16 * (if m < 1024 then m else m - 1024)

/-- Rate, scale, depth and action of a meter. -/
def State.meterRate (s : State) (m : Nat) : Nat :=
  let o := meterOff m
  if m < 1024 then s.get Fld.TY_SM_RATE_RATE o * (if s.flag Fld.TY_SM_RATE_SCALE o then 250 else 1)
  else s.get Fld.TY_CM_RATE_RATE o * (if s.flag Fld.TY_CM_RATE_SCALE o then 250 else 1)

def State.meterDepth (s : State) (m : Nat) : Nat :=
  (if m < 1024 then s.get Fld.TY_SM_BURST_BURST (meterOff m) else s.get Fld.TY_CM_BURST_BURST (meterOff m)) *
    64 * 125000

def State.meterAct (s : State) (m : Nat) : Bool :=
  if m < 1024 then s.flag Fld.TY_SM_CFG_ACT (meterOff m) else s.flag Fld.TY_CM_CFG_ACT (meterOff m)

/-- A bucket brought up to the present. -/
def State.meterFilled (s : State) (m : Nat) : Meter :=
  let x := s.meter m
  { x with
    level := min (s.meterDepth m : Int) (x.level + (s.meterRate m * (s.now - x.since) : Nat)), since := s.now }

/-- A write to a meter's CFG, RATE or BURST word fills its bucket. -/
def State.fillMeter (s : State) (m : Nat) (cfg : Bool) : State :=
  let x := s.meter m
  s.setMeter m { x with level := s.meterDepth m, since := s.now, on := x.on || cfg }

/-- The meters of a frame: the lowest session meter that names its session, and its class meter. -/
def State.metersOf (s : State) (port cls : Nat) (session : Option Nat) : List Nat :=
  (match session with
    | some i => ((List.range 1024).find? (fun m =>
        s.flag Fld.TY_SM_CFG_VALID (meterOff m) && s.get Fld.TY_SM_CFG_SESSION (meterOff m) == i)).toList
    | none => []) ++
  (if (s.meter (1024 + port * 4 + cls)).on then [1024 + port * 4 + cls] else [])

/-- The bucket admits a frame; a class meter of rate 0 and depth 0 admits none. (log 56, DEDUCED) -/
def State.conforms (s : State) (m : Nat) (x : Meter) : Bool :=
  decide (0 ≤ x.level) && !(decide (1024 ≤ m) && s.meterRate m == 0 && s.meterDepth m == 0)

/-- One meter takes a frame of `len` bytes, or counts it as excess; whether it drops it. (log 56, DEDUCED) -/
def State.meterOne (s : State) (m cls len : Nat) : Bool × State :=
  let x := s.meterFilled m
  if s.conforms m x then (false, s.setMeter m { x with level := x.level - len * 125000 })
  else
    let drop := s.meterAct m && decide (2 ≤ cls)
    let s := s.setMeter m { x with exc := x.exc + 1, drops := x.drops + b2n drop }
    (drop, if m < 1024 then s.bump Fld.TY_SM_EXC_COUNT 1 (meterOff m) else s.bump Fld.TY_CM_EXC_COUNT 1 (meterOff m))

/-- Meter a frame once its class, session and destination are decided; whether it is dropped. (log 56, DEDUCED) -/
def State.meterFrame (s : State) (port cls len : Nat) (session : Option Nat) : Bool × State :=
  let r := (s.metersOf port cls session).foldl (fun (acc : Bool × State) m =>
    let q := acc.2.meterOne m cls len
    (acc.1 || q.1, q.2)) (false, s)
  (r.1, if r.1 then r.2.bump Fld.TY_MDROP_COUNT else r.2)

/-- METER_RECORD (R359, R370): a ms has passed since the meter's last record and its EXC rose. -/
def execMeterRecord (m : BitVec 16) (s : State) : Host.Outcome State Fault Refusal :=
  let cls := decide (0x8000 ≤ m.toNat)
  let n := if cls then 1024 + m.toNat % 32 else m.toNat % 1024
  let x := s.meter n
  let last := (tblGet s.tally.meterAt n).getD 0
  if !s.dieOn ∨ x.exc = 0 ∨ s.now < last + 1000000 then .next s
  else
    let session := if cls then 0 else s.get Fld.TY_SM_CFG_SESSION (meterOff n)
    let s := s.record 0x05 1 (leBytes 2 m.toNat ++ [0, 0] ++ leBytes 4 session ++ leBytes 4 x.exc ++ leBytes 4 x.drops)
    device ((s.setMeter n { x with exc := 0, drops := 0 }).modTally (fun t =>
      { t with meterAt := tblPut t.meterAt n s.now }))

end Sys2Proof.Machine
end

