-- ==== Sys2Proof/Machine/Porter.lean ====
section
/-! DEFINITION. Received frames: the port's checks, the parse graph, classes, sessions, destinations and admission, and
the held headers (06 R189 to R223, R467; 07 R236, R237; 11 R358). -/

namespace Sys2Proof.Machine

/-! ### The parse graph (R196 to R199) -/

/-- The 32 bytes of node `n` of a bank. -/
def State.nodeBytes (s : State) (bank n : Nat) : List Byte :=
  (List.range 8).flatMap (fun k =>
    leBytes 4 (s.reg ((if bank = 0 then Reg.PO_GA else Reg.PO_GB) + 32 * n + 4 * k)).toNat)

/-- `n` bytes of a frame from offset `i`, where they lie in the frame and in its first 256 bytes (R198). -/
def frameRead (bs : List Byte) (i n : Nat) : Option (List Byte) :=
  if i + n ≤ min 256 bs.length then some (slice bs i n) else none

/-- What a walk finds. -/
structure Walk where
  key  : List Byte := []
  off  : Nat := 0
  /-- The terminal node: its number and its bytes. -/
  term : Option (Nat × List Byte) := none
  /-- Offset and bytes of the Vilca tag. -/
  tag  : Option (Nat × List Byte) := none
  perr : Bool := false
  terr : Bool := false
  deriving DecidableEq, Repr

/-- The ones'-complement sum of big-endian halfwords, folded; an odd last byte is the high byte of a halfword. -/
def sum16 : List Byte → Nat
  | a :: b :: r =>
    let t := a.toNat * 256 + b.toNat + sum16 r
    t % 65536 + t / 65536
  | [a] => a.toNat * 256
  | [] => 0

/-- The IPv4 header checksum holds. -/
def ipOk (hdr : List Byte) : Bool := sum16 hdr == 0xFFFF

/-- A Vilca tag is free of tag errors (R209): VER, the reserved bits of DST and SRC, and TAGCHK. (log 54, DEDUCED) -/
def tagOk (t : List Byte) : Bool :=
  (byteAt t 0).toNat / 16 == 1 && decide (leNat (slice t 2 2) < 16384) && decide (leNat (slice t 4 2) < 16384) &&
    leNat (slice t 14 2) == (crc16 (t.take 14)).toNat

/-- Append an extract range of a node to the key (R196 step 3). (log 55, DEDUCED) -/
def extract (bs : List Byte) (off : Nat) (key : List Byte) (e : Nat) : Option (List Byte) :=
  if bitOf e 15 then (frameRead bs (off + e % 256) (e / 256 % 32 + 1)).map (key ++ ·) else some key

/-- The node that the select field chooses (R196 step 2). (log 55, DEDUCED) -/
def State.nextNode (s : State) (p : Nat) (nd : List Byte) (sel : Nat) : Nat :=
  let fl := (byteAt nd 0).toNat
  let val0 : Option Nat :=
    if bitOf fl 4 && s.cfg Fld.PO_TAGPORT_PORT == 0 then none
    else if bitOf fl 3 then some (s.cfg Fld.PT_ETYPE_ETYPE (ptOff p))
    else if bitOf fl 4 then some (s.cfg Fld.PO_TAGPORT_PORT)
    else some (leNat (slice nd 8 2))
  if val0 = some sel then (byteAt nd 16).toNat
  else if leNat (slice nd 10 2) = sel then (byteAt nd 17).toNat
  else if leNat (slice nd 12 2) = sel then (byteAt nd 18).toNat
  else if leNat (slice nd 14 2) = sel then (byteAt nd 19).toNat
  else (byteAt nd 20).toNat

/-- Length of the header at a node (R197); none where its length byte cannot be read. -/
def nodeLen (bs nd : List Byte) (off : Nat) : Option Nat :=
  let lo := (byteAt nd 2).toNat
  if lo = 255 then some (byteAt nd 1).toNat
  else (frameRead bs (off + lo) 1).map (fun b => ((byteAt b 0).toNat &&& (byteAt nd 3).toNat) * (byteAt nd 4).toNat)

/-- A terminal node's CLSSRC and MISS are not reserved. -/
def ctrlOk (ctrl : Nat) : Bool := ctrl % 4 != 3 && ctrl / 16 % 4 != 3

/-- What one node does: the key, its length and the next node; none for a parse error. (log 54, DEDUCED) -/
def State.nodeStep (s : State) (p : Nat) (bs nd : List Byte) (w : Walk) : Option (List Byte × Nat × Nat) := do
  let fl := (byteAt nd 0).toNat
  if !bitOf fl 0 then none
  let raw ← frameRead bs (w.off + (byteAt nd 5).toNat) 2
  let sel := beNat raw &&& leNat (slice nd 6 2)
  let k0 ← extract bs w.off w.key (leNat (slice nd 22 2))
  let key ← extract bs w.off k0 (leNat (slice nd 24 2))
  if 32 < key.length then none
  let len ← nodeLen bs nd w.off
  if bitOf fl 5 then
    let hdr ← frameRead bs w.off len
    if !ipOk hdr then none
  if bitOf fl 2 then
    let _ ← frameRead bs w.off 16
  if bitOf fl 1 && !ctrlOk (byteAt nd 30).toNat then none
  pure (key, len, s.nextNode p nd sel)

/-- The walk from node `n`, with `fuel` nodes still to visit (R196, R198: a 17th node is a parse error). (log 54, DEDUCED) -/
def State.walk (s : State) (p bank : Nat) (bs : List Byte) : Nat → Nat → Walk → Walk
  | 0, n, w => if n = 255 then w else { w with perr := true }
  | fuel + 1, n, w =>
    if n = 255 then w
    else
      let nd := s.nodeBytes bank n
      match s.nodeStep p bs nd w with
      | none => { w with perr := true }
      | some (key, len, next) =>
        let fl := (byteAt nd 0).toNat
        let t := slice bs w.off 16
        if bitOf fl 2 && !tagOk t then { w with terr := true }
        else
          let w := if bitOf fl 2 then { w with tag := some (w.off, t) } else w
          let w := { w with key := key, off := w.off + len }
          if bitOf fl 1 then { w with term := some (n, nd) } else s.walk p bank bs fuel next w

/-! ### VLAN tags (R467) -/

/-- The TCI of the innermost 802.1Q tag, found from the frame itself. -/
def vlanTci (bs : List Byte) : Option Nat :=
  let f (i : Nat) : Nat := beNat (slice bs i 2)
  let known (i : Nat) : Bool := f i == 0x88A8 || f i == 0x8100
  if known 12 then
    if known 16 && f 16 == 0x8100 then some (f 18)
    else if f 12 == 0x8100 then some (f 14) else none
  else none

/-! ### Refusal of admission (R215 to R217, R220) -/

/-- An Assured loss (R216, 10 R334): counted, source 7, and a notice to the function charged. -/
def State.assuredLoss (s : State) (code : Nat) : State :=
  let f := if code / 2 ^ 28 = 3 then code % 16384 / 2048 else 0
  ((s.bump Fld.PO_DROP_A_COUNT).edge 7).notice f Fld.CR_HNOTE_AXLOSS

/-- A frame of class `c` is not admitted. -/
def State.refuse (s : State) (c code : Nat) : State :=
  match c with
  | 0 => (s.bump Fld.PO_DROP_P_COUNT).condEvent 0
  | 1 => s.assuredLoss code
  | 2 => s.bump Fld.PO_DROP_B_COUNT
  | _ => s.bump Fld.PO_DROP_I_COUNT

/-- A place of the held store is free for the frame, where it takes one (R220). -/
def State.placeOk (s : State) (c code : Nat) : Bool :=
  let takes := c == 1 || (c == 0 && (match destOf code with
    | .thread _ => true
    | .group _ => true
    | _ => false))
  !takes || decide (s.storeUsed < storeSize)

/-- A Prompt frame's destination can take it: a place in the scheduler (07 R245), entries of its host queue (10 R334). -/
def State.promptOk (s : State) (code len : Nat) : Bool :=
  match destOf code with
  | .prompt _ => decide (s.prompt.waiting.length < promptPlaces)
  | .queue q => s.promptQueueOk q len
  | _ => true

/-- Admit a frame of class `c` and hand its header to its destination, or refuse it (R214 to R217). A destination of kind 4
drops it first (R202). (log 58, DEDUCED) -/
def State.admitFrame (s : State) (c code : Nat) (h : Header) (bs : List Byte) (offer : Nat) (rx : Option Nat) : State :=
  let n := cellsOf bs.length
  if destOf code = .drop then s.bump Fld.PO_DROP_DEST_COUNT
  else match s.findCells offer n with
  | none => s.refuse c code
  | some cell =>
    if s.fits c n && s.placeOk c code && (c != 0 || s.promptOk code bs.length) then
      (s.holdFrame c cell bs rx).deliver 3 code
        { h with fboff := BitVec.ofNat 32 (256 * cell), cls := BitVec.ofNat 2 c }
    else s.refuse c code

/-- A Prompt frame bound for input group `g` takes its tokens, or is over budget (07 R236, R237). (log 58, DEDUCED) -/
def State.admitPrompt (s : State) (g code : Nat) (h : Header) (bs : List Byte) (offer rx : Nat) : State :=
  let s := s.fillPrompt
  if s.prompt.die < oneToken ∨ s.groupLevel g < oneToken then
    let s := s.bump Fld.PS_OVERIN_COUNT
    if s.flag Fld.PS_CTL_DEMOTE then
      let fb := s.cfg Fld.PS_GFB_DEST (16 * g)
      (s.bump Fld.PS_DEMOTED_COUNT).admitFrame 1 (if fb / 2 ^ 28 = 2 then 0x40000000 else s.resolveDest 1 3 fb) h bs offer (some rx)
    else
      (((s.noteEmpty 0 s.prompt.die).noteEmpty (1 + g) (s.groupLevel g)).admitFrame 0 code h bs offer (some rx))
  else
    let n := cellsOf bs.length
    if (s.findCells offer n).isSome && s.fits 0 n && s.promptOk code bs.length then
      (s.takeIngress g).2.admitFrame 0 code h bs offer (some rx)
    else s.refuse 0 code

/-! ### Class, session and destination (R201 to R211) -/

/-- A frame's decision: its class, its session, its destination code, and whether it is dropped with no more ado. -/
structure Decision where
  cls  : Nat
  code : Nat
  hdr  : Header
  drop : Bool := false
  deriving DecidableEq, Repr

/-- The class that a terminal node gives (R201 rule 3). -/
def State.nodeClass (s : State) (ctrl : Nat) (tag : Option (Nat × List Byte)) (tci : Option Nat) : Nat :=
  match ctrl % 4 with
  | 0 => ctrl / 4 % 4
  | 1 => (match tag with
    | some t => (byteAt t.2 0).toNat / 4 % 4
    | none => 2)
  | _ => (match tci with
    | some v => bitsGet (s.reg Reg.PO_PCPMAP) (2 * (v / 8192)) 2
    | none => 2)

/-- What a session entry decides (R201 rule 2, R206). -/
def State.bySession (s : State) (i : Nat) (d : Decision) : Decision :=
  let a := sessionArea i
  let ctl := s.byte a
  { d with
    cls := if ctl.getLsbD 1 then (s.byte (a + 2)).toNat % 4 else d.cls,
    code := if ctl.getLsbD 2 then leNat (s.bytes (a + 4) 4) else d.code,
    hdr := { d.hdr with session := BitVec.ofNat 32 i, noSess := false } }

/-- The decision at a terminal node, with the session lookup (R205). -/
def State.decideTerm (s : State) (w : Walk) (n : Nat) (nd : List Byte) (h : Header) (tci : Option Nat) :
    Decision × State :=
  let ctrl := (byteAt nd 30).toNat
  let d : Decision := { cls := s.nodeClass ctrl w.tag tci, code := leNat (slice nd 26 4),
                        hdr := { h with node := BitVec.ofNat 8 n } }
  if !bitOf ctrl 6 || w.key.isEmpty then (d, s)
  else
    let s := s.sessionRead w.key
    match s.sessionFind w.key with
    | some i => (s.bySession i d, s)
    | none =>
      match ctrl / 16 % 4 with
      | 1 => ({ d with drop := true }, s.bump Fld.PO_DROP_DEST_COUNT)
      | 2 =>
        (match s.sessionInsert none w.key with
        | (some i, s') =>
          ({ d with hdr := { d.hdr with session := BitVec.ofNat 32 i, noSess := false, inserted := true } }, s')
        | (none, _) => (d, s.bump Fld.PO_DROP_SFULL_COUNT))
      | _ => (d, s)

/-- Decide a walked frame. -/
def State.classify (s : State) (w : Walk) (h : Header) (tci : Option Nat) : Decision × State :=
  if w.perr then
    ({ cls := 2, code := s.cfg Fld.PO_ERRDST_DEST, hdr := { h with perr := true } }, s.bump Fld.PO_DROP_PERR_COUNT)
  else if w.terr then
    ({ cls := 2, code := s.cfg Fld.PO_TAGERR_DEST, hdr := { h with perr := true } }, s.bump Fld.PO_DROP_TAG_COUNT)
  else
    let h := match w.tag with
      | some (o, t) => { h with
          tagged := true, tagoff := BitVec.ofNat 16 o,
          expiry := h.rxts.setWidth 32 + BitVec.ofNat 32 (leNat (slice t 8 3)),
          late := decide (leNat (slice t 8 3) = 0) || (byteAt t 1).getLsbD 0 }
      | none => h
    let foreign := match w.tag with
      | some (_, t) => decide (leNat (slice t 2 2) ≠ s.cfg Fld.PO_DEVNUM_DEV)
      | none => false
    if foreign then
      let t := (w.tag.map (·.2)).getD []
      let h := { h with foreign := true, node := match w.term with
        | some (n, _) => BitVec.ofNat 8 n
        | none => 0xFF }
      if byteAt t 11 = 0 then ({ cls := 2, code := 0, hdr := h, drop := true }, s.bump Fld.PO_DROP_HOPS_COUNT)
      else ({ cls := (byteAt t 0).toNat / 4 % 4, code := s.cfg Fld.PO_FWDDST_DEST, hdr := h }, s)
    else
      match w.term with
      | some (n, nd) => s.decideTerm w n nd h tci
      | none => ({ cls := 2, code := s.cfg Fld.PO_DFLT_DEST, hdr := h }, s.bump Fld.PO_DROP_PERR_COUNT)

/-- Frame boundaries: Porter's Boundary fields and the port's EtherType take effect (00 R11). -/
def State.frameFields (s : State) (p : Nat) : State :=
  [Reg.PO_CTL, Reg.PO_TAGPORT, Reg.PO_PSTART, Reg.PO_PSTART + 4, Reg.PO_DFLT, Reg.PO_ERRDST, Reg.PO_TAGERR,
    Reg.PO_FWDDST, Reg.PT_ETYPE + ptOff p].foldl State.boundaryCopy s

/-- The start node of a port (R196). -/
def State.startNode (s : State) (p : Nat) : Nat := bitsGet (s.effReg (Reg.PO_PSTART + 4 * (p / 4))) (8 * (p % 4)) 8

/-- Porter takes no frames: each is dropped. -/
def State.porterStopped (s : State) : Bool := !s.flag Fld.PO_CTL_EN || s.holding || s.darkening

/-- The walk of a frame in the bank in effect, and its header and TCI before its class and destination are decided. -/
def State.walkFrame (s : State) (p : Nat) (bs : List Byte) (rxts : BitVec 64) : Walk × Header × Option Nat :=
  let w := s.walk p (s.cfg Fld.PO_CTL_GBANK) bs 16 (s.startNode p) {}
  let tci := vlanTci bs
  (w, { len := BitVec.ofNat 16 bs.length, port := BitVec.ofNat 3 p, payoff := BitVec.ofNat 16 w.off,
        rxts := rxts, vlan := tci.isSome, tci := BitVec.ofNat 16 (tci.getD 0) }, tci)

/-- The destination that a decision comes to, the Prompt input group it is, if it is one, and the class: 0 where it is one
(R201 rule 1). -/
def State.resolved (s : State) (d : Decision) : Nat × Option Nat × Nat :=
  let code := s.resolveDest d.cls 3 d.code
  match destOf code with
  | .prompt g => (code, some g, 0)
  | _ => (code, none, d.cls)

/-- The walk ends with a session lookup (R205). -/
def Walk.looksUp (w : Walk) : Bool :=
  !w.perr && !w.terr && !w.key.isEmpty && (match w.term with
    | some (_, nd) => bitOf (byteAt nd 30).toNat 6
    | none => false)

/-- A frame waits: for its lookup, while the Session Store's target is frozen, or for its write to the frame buffer, which a Prompt
frame makes on the escape channel (05 R177, R182). (log 151, DEDUCED) -/
def State.ingressStops (s : State) (p : Nat) (bs : List Byte) (rxts : BitVec 64) : Bool :=
  if s.porterStopped || !(s.targetFrozen 8 false || s.targetFrozen 9 false || s.targetFrozen 9 true) then false
  else
    let w := s.walkFrame p bs rxts
    (w.1.looksUp && s.targetFrozen 8 false) ||
      (let d := (s.classify w.1 w.2.1 w.2.2).1
       !d.drop && s.targetFrozen 9 ((s.resolved d).2.2 == 0))

/-- Porter takes a frame that the port delivered, whose last bit came at elapsed ns `rx`. -/
def State.porterFrame (s : State) (p : Nat) (bs : List Byte) (rxts : BitVec 64) (offer rx : Nat) : State :=
  if s.porterStopped then s.bump Fld.PO_DROP_STOP_COUNT
  else
    let s := s.put Fld.PO_STS_BANK (s.cfg Fld.PO_CTL_GBANK)
    let w := s.walkFrame p bs rxts
    let r := s.classify w.1 w.2.1 w.2.2
    let d := r.1
    let s := r.2
    if d.drop then s
    else
      let code := (s.resolved d).1
      let grp := (s.resolved d).2.1
      let cls := (s.resolved d).2.2
      let q := s.meterFrame p cls bs.length (if d.hdr.noSess then none else some d.hdr.session.toNat)
      let s := q.2
      if q.1 then s
      else
        let s := if cls = 0 ∧ 2048 < bs.length then (s.bump Fld.PO_DROP_PLONG_COUNT).condEvent 1 else s
        match grp with
        | some g => s.admitPrompt g code d.hdr bs offer rx
        | none => s.admitFrame cls code d.hdr bs offer (some rx)

/-- Porter takes a frame, or keeps it behind earlier ones of its port that wait. (log 151, DEDUCED) -/
def State.portIngress (s : State) (x : Ingress) : State :=
  if s.porter.ingress.any (fun y => y.port == x.port) || s.ingressStops x.port x.bytes x.rxts then
    s.modPorter (fun y => { y with ingress := y.ingress ++ [x] })
  else s.porterFrame x.port x.bytes x.rxts x.cell x.rxAt

/-- Take the waiting frames in order, but for those that still wait. (log 151, DEDUCED) -/
def State.ingressDrain (s : State) : State :=
  s.porter.ingress.foldl State.portIngress (s.modPorter (fun y => { y with ingress := [] }))

/-! ### Received PFC frames (R194, R195) -/

/-- Egress priority of a class (PT_PFCMAP). -/
def State.egressPrio (s : State) (p c : Nat) : Nat := bitsGet (s.reg (Reg.PT_PFCMAP + ptOff p)) (3 * c) 3

/-- The Prompt queue of a port ignores pause. -/
def State.promptIgnores (s : State) (p : Nat) : Bool := !s.flag Fld.PT_PFCMAP_PPAUSE (ptOff p)

/-- PT_STS.PAUSED follows the priorities paused now. -/
def State.pausedSts (s : State) (p : Nat) : State :=
  s.put Fld.PT_STS_PAUSED ((((s.port p).pausedUntil.filter (fun kv => decide (s.now < kv.2))).map
    (fun kv => 2 ^ kv.1)).sum) (ptOff p)

/-- The time of a pause quantum count: 512 bit times each, in ns, rounded up. (log 59, PRESUMED) -/
def State.pauseNs (s : State) (quanta : Nat) : Nat := (quanta * 512 + s.portRate - 1) / s.portRate

/-- A PFC frame arrives: each priority it names that RXEN honours is paused, or released by quanta 0. (log 59, PRESUMED) -/
def State.pfcReceive (s : State) (p : Nat) (prios : BitVec 8) (quanta : List (BitVec 16)) : State :=
  let s := s.bump Fld.PT_PFCRX_COUNT 1 (ptOff p)
  let rxen := s.get Fld.PT_PFC_RXEN (ptOff p)
  let prompt := s.egressPrio p 0
  let named (i : Nat) : Bool := prios.getLsbD i && bitOf rxen i
  let s := if s.promptIgnores p && named prompt && (quanta.getD prompt 0).toNat != 0 then
      s.bump Fld.PT_PPAUSEIGN_COUNT 1 (ptOff p) else s
  let s := s.modPort p (fun x => { x with
    pausedUntil := (List.range 8).foldl (fun t i =>
      if named i then
        (let n := (quanta.getD i 0).toNat
         if n = 0 then tblDel t i else tblPut t i (s.now + s.pauseNs n))
      else t) x.pausedUntil })
  s.pausedSts p

/-- PFC_RECEIVE (R194). -/
def execPfcReceive (p : PortId) (prios : BitVec 8) (quanta : List (BitVec 16))
    (s : State) : Host.Outcome State Fault Refusal :=
  if s.portInService p.toNat && s.flag Fld.PT_STS_LINK (ptOff p.toNat) then device (s.pfcReceive p.toNat prios quanta)
  else .next s

/-- PFC_PAUSE_EXPIRY (R194): the time that a PFC frame named is over. -/
def execPfcPauseExpiry (p : PortId) (prio : BitVec 3) (s : State) : Host.Outcome State Fault Refusal :=
  let n := p.toNat
  match tblGet (s.port n).pausedUntil prio.toNat with
  | some t =>
    if t ≤ s.now then
      device ((s.modPort n (fun x => { x with pausedUntil := tblDel x.pausedUntil prio.toNat })).pausedSts n)
    else .next s
  | none => .next s

/-! ### FRAME_RECEIVE -/

/-- The receive timestamp (R191): the Timebase value at the end of the start-of-frame delimiter, which lies the frame's
own bits before its last bit, corrected by PT_TSOFF.RX. (log 57, DEDUCED) -/
def State.rxStamp (s : State) (p len : Nat) : BitVec 64 :=
  let back : Int := (8000 * (len + 4) / s.portRate : Nat)
  let now : Int := (s.tb.now.toNat * 1000 + s.tb.frac.toNat * 1000 / 2 ^ 32 : Nat)
  let t := now - back + signedOf 16 (s.get Fld.PT_TSOFF_RX (ptOff p))
  BitVec.ofInt 64 (t / 1000)

/-- A MAC control frame that carries priority-based flow control (IEEE 802.1Qbb). (log 59, PRESUMED) -/
def isPfcFrame (bs : List Byte) : Bool := beNat (slice bs 12 2) == 0x8808 && beNat (slice bs 14 2) == 0x0101

/-- A frame ends at a lane of port `p`. -/
def State.frameIn (s : State) (p : Nat) (rx : RxFrame) : State :=
  let o := ptOff p
  let s := s.frameFields p
  let s := (s.bump Fld.PT_FECCORR_COUNT rx.corrected o).bump Fld.PT_FECUNC_COUNT rx.uncorrectable o
  let s := s.modPort p (fun x => { x with
    uncAt := x.uncAt ++ List.replicate (min 16 rx.uncorrectable) s.now, laneErrs := x.laneErrs + rx.uncorrectable })
  let n := rx.bytes.length + 4
  if n < 64 then s.bump Fld.PT_RXRUNT_COUNT 1 o
  else if 9220 < n then s.bump Fld.PT_RXLONG_COUNT 1 o
  else if !rx.fcsOk || rx.uncorrectable != 0 then s.bump Fld.PT_RXFCS_COUNT 1 o
  else if isPfcFrame rx.bytes then
    s.pfcReceive p (byteAt rx.bytes 17) ((List.range 8).map (fun i =>
      BitVec.ofNat 16 (beNat (slice rx.bytes (18 + 2 * i) 2))))
  else (s.bump Fld.PT_RXOK_COUNT 1 o).portIngress ⟨p, rx.bytes, s.rxStamp p rx.bytes.length, rx.cell, s.now⟩

/-- FRAME_RECEIVE (R189): a port without a link receives nothing. -/
def execFrameReceive (p : PortId) (rx : RxFrame) (s : State) : Host.Outcome State Fault Refusal :=
  if s.portInService p.toNat && s.flag Fld.PT_STS_LINK (ptOff p.toNat) then device (s.frameIn p.toNat rx) else .next s

/-! ### HEADER_WRITE (R220, R223) -/

/-- HEADER_WRITE: the oldest held header of the thread enters its mailbox, once that has room and the thread's region
is awake; a header whose thread no longer takes headers goes to PO_DFLT. -/
def execHeaderWrite (t : Tid) (s : State) : Host.Outcome State Fault Refusal :=
  let n := t.toNat
  let s := s.redirectHeld
  match s.porter.store.find? (fun x => x.thread == n) with
  | some x =>
    if s.gated (regionOfThread n) then device (s.askWake (regionOfThread n))
    else if mailboxSize ≤ (s.thr n).mailbox.length then device s
    else device ((s.modPorter (fun y => { y with store := y.store.erase x })).postHeader n x.hdr)
  | none => device s

end Sys2Proof.Machine
end

