-- ==== Sys2Proof/Machine/Ports.lean ====
section
/-! DEFINITION. What the ports send: the choice of the next frame, the shapers, the rewrite of Vilca tags, IEEE 1588
timestamps and pause frames; and the state of a port's link (06 R187 to R195, R212, R225 to R228). -/

namespace Sys2Proof.Machine

/-! ### Shapers (R226), in 1/8000 byte -/

def State.shapeRate (s : State) (p c : Nat) : Nat := s.cfg Fld.PT_SHAPE_RATE (ptOff p + 4 * (c - 1))
def State.shapeDepth (s : State) (p c : Nat) : Nat := s.cfg Fld.PT_SHAPE_BURST (ptOff p + 4 * (c - 1)) * 64 * 8000

/-- What class `c`'s bucket holds: one that has not been used is full. (log 50, DESIGN CHOICE) -/
def State.shapeLevel (s : State) (p c : Nat) : Int := (tblGet (s.port p).tokens c).getD (s.shapeDepth p c : Nat)

/-- Bring a port's shaper buckets up to the present: each fills at the RATE in effect up to the BURST in effect. A class that is
not shaped has none. -/
def State.fillShapers (s : State) (p : Nat) : State :=
  let dt := s.now - (s.port p).tokAt
  s.modPort p (fun x => { x with
    tokens := [1, 2, 3].foldl (fun t c =>
      if s.shapeRate p c = 0 then tblDel t c
      else tblPut t c (min (s.shapeDepth p c : Nat) (s.shapeLevel p c + (25 * s.shapeRate p c * dt : Nat)))) x.tokens,
    tokAt := s.now })

/-- Class `c`'s bucket is not negative, or the class is not shaped. -/
def State.shapeOk (s : State) (p c : Nat) : Bool :=
  c == 0 || s.shapeRate p c == 0 || decide (0 ≤ s.shapeLevel p c)

/-- Take a sent frame's length from its bucket: padded, with its FCS. -/
def State.shapeTake (s : State) (p c len : Nat) : State :=
  if c = 0 ∨ s.shapeRate p c = 0 then s
  else s.modPort p (fun x => { x with tokens := tblPut x.tokens c (s.shapeLevel p c - ((max len 60 + 4) * 8000 : Nat)) })

/-! ### The choice of a frame -/

/-- Class `c`'s egress queue is paused by the partner (R194, R195). -/
def State.egressPaused (s : State) (p c : Nat) : Bool :=
  !(c == 0 && s.promptIgnores p) &&
    (match tblGet (s.port p).pausedUntil (s.egressPrio p c) with
      | some t => decide (s.now < t)
      | none => false)

/-- With PGUARD at 1, frames over 2,048 bytes at the head of a class 1 to 3 queue are discarded (R227). -/
def State.guardQueue (s : State) (p c : Nat) : State :=
  if s.flag Fld.PT_CTL_PGUARD (ptOff p) then
    let q := s.egressQ p c
    let n := (q.takeWhile (fun f => decide (2048 < f.len))).length
    if n = 0 then s else ((s.setEgressQ p c (q.drop n)).bump Fld.PT_TXGUARD_COUNT n (ptOff p)).purgeCells
  else s

/-- The class whose head frame leaves next. -/
def State.nextClass (s : State) (p : Nat) : Option Nat :=
  [0, 1, 2, 3].find? (fun c => !(s.egressQ p c).isEmpty && !s.egressPaused p c && s.shapeOk p c)

/-! ### Rewriting a frame -/

/-- The transmit timestamp (R191). -/
def State.txStamp (s : State) (p : Nat) : BitVec 64 :=
  let now : Int := (s.tb.now.toNat * 1000 + s.tb.frac.toNat * 1000 / 2 ^ 32 : Nat)
  BitVec.ofInt 64 ((now + signedOf 16 (s.get Fld.PT_TSOFF_TX (ptOff p))) / 1000)

/-- Offset of the header after the Ethernet header or one 802.1Q tag, with its EtherType. -/
def afterVlan (bs : List Byte) : Nat × Nat :=
  if beNat (slice bs 12 2) = 0x8100 then (18, beNat (slice bs 16 2)) else (14, beNat (slice bs 12 2))

/-- The Vilca tag's new bytes (R212): remaining deadline, LATE, ECN, TWINNED and TAGCHK. (log 61, DEDUCED) -/
def rewriteTag (t : List Byte) (tx : Nat) (twinned ecn : Bool) : List Byte :=
  let rem := (leNat (slice t 8 3) + 2 ^ 24 - tx % 2 ^ 24) % 2 ^ 24
  let late := decide (0x800000 ≤ rem)
  let flags := byteAt t 1 ||| (if late then 1 else 0) ||| (if ecn then 4 else 0) ||| (if twinned then 8 else 0)
  let body := t.take 1 ++ [flags] ++ slice t 2 6 ++ leBytes 3 (if late then 0 else rem) ++ slice t 11 3
  body ++ leBytes 2 (crc16 body).toNat

/-- With TAGUPD at 1, rewrite the frame's Vilca tag under PT_ETYPE (R212). -/
def State.retag (s : State) (p c : Nat) (f : TxFrame) (tx : BitVec 64) (bs : List Byte) : List Byte :=
  let (o, ty) := afterVlan bs
  if s.flag Fld.PT_CTL_TAGUPD (ptOff p) && ty == s.cfg Fld.PT_ETYPE_ETYPE (ptOff p) && decide (o + 16 ≤ bs.length) then
    let thr := s.get Fld.PT_ECNTHR_THR (ptOff p)
    let behind := (((s.egressQ p c).map (·.len)).sum + 255) / 256
    let released := match f.src with
      | .accord _ => true
      | _ => false
    splice bs o (rewriteTag (slice bs o 16) tx.toNat released (thr != 0 && decide (thr < behind)))
  else bs

/-- An IEEE 1588-2019 event message in a frame (R192): the offset of its header, whether it may be stamped in one step,
and the offset of the UDP checksum to clear. (log 60, PRESUMED) -/
def ptpEvent (bs : List Byte) : Option (Nat × Bool × Option Nat) :=
  let (o, ty) := afterVlan bs
  let at_ : Option (Nat × Bool × Option Nat) :=
    if ty = 0x88F7 then some (o, true, none)
    else if ty = 0x0800 ∧ (byteAt bs (o + 9)).toNat = 17 then
      (let u := o + 4 * ((byteAt bs o).toNat % 16)
       if beNat (slice bs (u + 2) 2) = 319 then some (u + 8, true, some (u + 6)) else none)
    else if ty = 0x86DD ∧ (byteAt bs (o + 6)).toNat = 17 then
      (if beNat (slice bs (o + 42) 2) = 319 then some (o + 48, false, none) else none)
    else none
  match at_ with
  | some (m, one, ck) =>
    if m + 44 ≤ bs.length ∧ (byteAt bs m).toNat % 16 < 4 then
      some (m, one && !(byteAt bs (m + 6)).getLsbD 1, ck)
    else none
  | none => none

/-- Crier source 25 follows the two-step FIFOs (09 R294). -/
def State.twoStepLevel (s : State) : State := s.level 25 (s.ports.any (fun kx => !kx.2.twoStep.isEmpty))

/-- IEEE 1588 timestamping of an egress frame (R192). (log 60, PRESUMED) -/
def State.stampPtp (s : State) (p : Nat) (tx : BitVec 64) (bs : List Byte) : List Byte × State :=
  if !s.flag Fld.PT_CTL_PTPEN (ptOff p) then (bs, s)
  else match ptpEvent bs with
    | none => (bs, s)
    | some (m, true, ck) =>
      let bs := splice bs (m + 34) (beBytes 6 (tx.toNat / 1000000000) ++ beBytes 4 (tx.toNat % 1000000000))
      (match ck with
        | some i => splice bs i [0, 0]
        | none => bs, s)
    | some (m, false, _) =>
      if 16 ≤ (s.port p).twoStep.length then (bs, s.put Fld.PT_TXTSID_OVF 1 (ptOff p))
      else (bs, (s.modPort p (fun x => { x with
        twoStep := x.twoStep ++ [(BitVec.ofNat 16 (beNat (slice bs (m + 30) 2)), tx)] })).twoStepLevel)

/-! ### Transmission -/

/-- Residence measures of a Prompt response (PS_RES.EGR, histogram 0). -/
def State.responseSent (s : State) (f : TxFrame) : State :=
  match f.msg with
  | some (rx, ended) =>
    ((s.noteResidence (s.now - ended) 600).put Fld.PS_RES_EGR (min 65535 (max (s.get Fld.PS_RES_EGR) (s.now - ended)))).histAdd 0 (s.now - rx)
  | none => s

/-- Transmit a frame that has left class `c`'s queue of port `p` (R226 to R228). (log 61, DEDUCED) -/
def State.transmit (s : State) (p c : Nat) (f : TxFrame) : State :=
  let o := ptOff p
  let s := s.shapeTake p c f.len
  let bad := s.badRead f.addr f.len
  let s := (s.reportBad f.addr f.len).correct f.addr f.len
  let tx := s.txStamp p
  let bs := s.retag p c f tx (s.bytes f.addr f.len)
  let r := s.stampPtp p tx bs
  let bs := r.1 ++ List.replicate (60 - r.1.length) 0
  let s := if bad then r.2.bump Fld.PT_TXINVFCS_COUNT 1 o else r.2.bump Fld.PT_TXOK_COUNT 1 o
  let s :=
    if 2048 < f.len then
      let s := (if c = 0 then s else s.bump Fld.PT_TXLONG_COUNT 1 o).modPort p (fun x => { x with
        longUntil := s.now + (f.len + 24) * 8 / s.portRate })
      if (s.egressQ p 0).isEmpty then s else s.condEvent 1
    else s
  ((s.responseSent f).emit (.frame p bs bad)).purgeCells

/-- The region whose wake the port must ask for before it can read a frame's source. (log 126, DEDUCED) -/
def State.sourceAsleep (s : State) (f : TxFrame) : Option Nat :=
  match dRegion f.addr with
  | .glob cl => if s.gated (cl / 8) then some (cl / 8) else none
  | _ => none

/-- The target that the port reads a frame's source from is frozen; the Prompt queue reads on the escape channel (05 R177,
R182). -/
def State.sourceFrozen (s : State) (c : Nat) (f : TxFrame) : Bool :=
  match dRegion f.addr with
  | .frame => s.targetFrozen 9 (c == 0)
  | .session => s.targetFrozen 8 (c == 0)
  | .glob cl => s.targetFrozen (cl / 8) (c == 0) || s.arbFrozen (.crossbar (BitVec.ofNat 3 (cl / 8))) || s.clusterFrozen cl
  | _ => false

/-- The port can send at all: in service, link up, awake, and not stopped by Safe Hold (08 R290). -/
def State.portSends (s : State) (p : Nat) : Bool :=
  let o := ptOff p
  s.portInService p && s.flag Fld.PT_CTL_EN o && s.flag Fld.PT_STS_LINK o && !s.flag Fld.PT_STS_LPI o && !s.safeHold

/-- The port's Boundary fields take effect at a frame boundary (00 R11). (log 51, DEDUCED) -/
def State.egressFields (s : State) (p : Nat) : State :=
  [Reg.PT_ETYPE + ptOff p, Reg.PT_SHAPE + ptOff p, Reg.PT_SHAPE + 4 + ptOff p, Reg.PT_SHAPE + 8 + ptOff p].foldl
    State.boundaryCopy s

/-- FRAME_BOUNDARY (R226): the port picks and transmits the next frame. The buckets fill under the shaper fields that held until
now. (log 126, DEDUCED) -/
def execFrameBoundary (p : PortId) (s : State) : Host.Outcome State Fault Refusal :=
  let n := p.toNat
  if !s.portSends n then .next s
  else
    let s := (((s.fillShapers n).egressFields n).fillShapers n)
    let s := ((s.guardQueue n 1).guardQueue n 2).guardQueue n 3
    match s.nextClass n with
    | none => device s
    | some c =>
      match s.egressQ n c with
      | [] => device s
      | f :: rest =>
        match s.sourceAsleep f with
        | some r => device (s.askWake r)
        | none => if s.sourceFrozen c f then device s else device ((s.setEgressQ n c rest).transmit n c f)

/-- PFC_REPEAT (R193): half the quanta time has passed since the last pause frame. -/
def execPfcRepeat (p : PortId) (s : State) : Host.Outcome State Fault Refusal :=
  let n := p.toNat
  let x := s.port n
  let q := s.get Fld.PT_PFC_QUANTA (ptOff n)
  if x.pausing && decide (x.pauseAt + s.pauseNs q / 2 ≤ s.now) then
    device ((s.modPort n (fun y => { y with pauseAt := s.now })).sendPfc n q)
  else .next s

/-! ### Lane errors and the link of a port (R187, R188, R190) -/

/-- LANE_ERROR_BURST (R188): 16 uncorrectable codewords within 1 ms. -/
def execLaneErrorBurst (p : PortId) (s : State) : Host.Outcome State Fault Refusal :=
  let n := p.toNat
  let recent := (s.port n).uncAt.filter (fun t => decide (s.now ≤ t + 1000000))
  if 16 ≤ recent.length then
    let s := s.modPort n (fun x => { x with uncAt := [] })
    device (((s.put Fld.PT_STS_FECBURST 1 (ptOff n)).edgeIn (8 + n)).report (unitOf 9 n) 4 0)
  else .next (s.modPort n (fun x => { x with uncAt := recent }))

/-- PT_STS.LINK changes; the port's device event is asserted (09 R294). -/
def State.portLink (s : State) (p : Nat) (up lpiOk : Bool) : State :=
  let o := ptOff p
  if s.flag Fld.PT_STS_LINK o == up then s
  else (((s.put Fld.PT_STS_LINK (b2n up) o).put Fld.PT_STS_LPIOK (b2n (up && lpiOk)) o).put Fld.PT_STS_LPI 0 o).edgeIn
    (8 + p)

/-- LINK_UP (R187): no bring-up begins while LG_STS.OUT is 0 (13 R436). (log 128, DEDUCED) -/
def execLinkUp (p : PortId) (lpiOk : Bool) (s : State) : Host.Outcome State Fault Refusal :=
  let n := p.toNat
  if s.flag Fld.PT_CTL_EN (ptOff n) && s.portInService n && s.flag Fld.LG_STS_OUT then device (s.portLink n true lpiOk) else .next s

/-- PORT_LINK_LOSS (09 R294): a port in service loses its link. -/
def execPortLinkLoss (p : PortId) (s : State) : Host.Outcome State Fault Refusal :=
  let n := p.toNat
  if s.portInService n then device (s.portLink n false false) else .next s

/-- The port has no frame queued. -/
def State.egressIdle (s : State) (p : Nat) : Bool := [0, 1, 2, 3].all (fun c => (s.egressQ p c).isEmpty)

/-- LPI (R190): a port with nothing to send, neither a queued frame nor the repeats of a pause (R193), permitted and agreed,
enters LPI. -/
def execLpi (p : PortId) (s : State) : Host.Outcome State Fault Refusal :=
  let n := p.toNat
  let o := ptOff n
  if s.flag Fld.PT_CTL_LPIEN o && s.flag Fld.PT_STS_LPIOK o && s.flag Fld.PT_STS_LINK o && s.egressIdle n && !(s.port n).pausing then
    device (s.put Fld.PT_STS_LPI 1 o)
  else .next s

/-- LPI_WAKE (R190): a frame queued for the port ends LPI. -/
def execLpiWake (p : PortId) (s : State) : Host.Outcome State Fault Refusal :=
  let n := p.toNat
  let o := ptOff n
  if s.flag Fld.PT_STS_LPI o && !s.egressIdle n then device (s.put Fld.PT_STS_LPI 0 o) else .next s

/-! ### Register effects of the PT block -/

/-- A write of PT_CTL has left EN at 0: the port is down (R187). -/
def State.portEn (s : State) (p : Nat) : State :=
  if s.flag Fld.PT_CTL_EN (ptOff p) then s else s.portLink p false false

/-- A read of PT_TXTSID pops the FIFO head and copies its timestamp (R192): the word that the read finds. -/
def State.readTxtsid (s : State) (p : Nat) : Word32 × State :=
  let o := ptOff p
  let ovf := s.get Fld.PT_TXTSID_OVF o * 2 ^ 17
  match (s.port p).twoStep with
  | [] => (BitVec.ofNat 32 ovf, s)
  | (id, ts) :: rest =>
    let s := s.modPort p (fun x => { x with twoStep := rest })
    let s := (s.setReg (Reg.PT_TXTS_LO + o) (ts.setWidth 32)).setReg (Reg.PT_TXTS_HI + o) ((ts >>> 32).setWidth 32)
    (BitVec.ofNat 32 (id.toNat + 65536 + ovf), s.twoStepLevel)

end Sys2Proof.Machine
end

