-- ==== Sys2Proof/Machine/Assay.lean ====
section
/-! DEFINITION. The Assay's commands: reports, ordered tests, the start and the verdict of a test, retirement, the
recovery window and the release of Safe Hold (08_accord_and_assay.md R277 to R292; 05 R162 to R164; 01 R16 to R19). -/

namespace Sys2Proof.Machine

/-! ### Reports (R278) -/

/-- The unit code names a unit: a class of the table and an index in range (R277). (log 82, DEDUCED) -/
def unitDefined (u : Nat) : Bool :=
  let i := unitIndex u
  match unitClass u with
  | 0 => decide (i < 512)
  | 1 => decide (i < 64)
  | 2 => decide (i < 8)
  | 3 => decide (i < 8)
  | 4 => decide (i < 2 ^ 15)
  | 5 => decide (i < 2 ^ 15)
  | 6 => decide (i < 2 ^ 16)
  | 7 => decide (i < 2 ^ 15)
  | 8 => decide (i < 2 ^ 15)
  | 9 => decide (i < 8)
  | 10 => decide (i < 12)
  | 15 => decide (i < 64)
  | _ => decide (i = 0)

/-- The physical number of word `w` of a memory row (05 R154). -/
def rowAddr (u w : Nat) : Nat :=
  let i := unitIndex u
  match unitClass u with
  | 4 =>
    let l := i / 256 * 512 + 8 * w
    clusterBase (i % 64) + l / 64 * 256 + i / 64 % 4 * 64 + l % 64
  | 5 =>
    let l := i / 64 * 512 + 8 * w
    sessionBase + l / 256 * 16384 + i % 64 * 256 + l % 256
  | 6 =>
    let l := i / 64 * 512 + 8 * w
    frameBase + l / 64 * 4096 + i % 64 * 64 + l % 64
  | 7 => isramBase (i % 512) + i / 512 * 512 + 4 * w
  | _ => dsramBase (i % 512) + i / 512 * 512 + 8 * w

/-- The unit is a memory row. -/
def isRow (u : Nat) : Bool := decide (4 ≤ unitClass u) && decide (unitClass u ≤ 8)

/-- ERROR_REPORT (R278): an error of a unit with its cause; an uncorrectable word named in DETAIL stays uncorrectable
until it is wholly written (05 R160). (log 82, DEDUCED) -/
def execErrorReport (unit : Word32) (cause : BitVec 4) (detail : BitVec 16) (s : State) :
    Host.Outcome State Fault Refusal :=
  let u := unit.toNat
  if !s.dieOn || !unitDefined u || decide (10 < cause.toNat) then .next s
  else
    let s := if isRow u && cause.toNat == 1 && !s.shadowed u then
        { s with eccU := setIns s.eccU (rowAddr u (detail.toNat % (if unitClass u = 7 then 128 else 64))) }
      else s
    device (s.report u cause.toNat detail.toNat)

/-- A write of AS_TREQ: a test with cause 9; class 15 and undefined indices are ignored. -/
def State.orderTest (s : State) (v : Word32) : State :=
  if unitDefined v.toNat && unitClass v.toNat != 15 then s.report v.toNat 9 0 else s

/-! ### The start of a test (R279, R280) -/

/-- The Twin pairs whose cores a test of the unit touches. -/
def pairsUnder (u : Nat) : List Nat :=
  let i := unitIndex u
  match unitClass u with
  | 0 => if 384 ≤ i then [i % 64] else []
  | 15 => [i % 64]
  | 1 => if 48 ≤ i then (List.range 8).map (fun k => i % 8 * 8 + k) else []
  | 2 => if 6 ≤ i then List.range 64 else []
  | 3 => if 6 ≤ i then List.range 64 else []
  | _ => []

/-- The bank of a memory row, as AS_SPIDX numbers it; each core SRAM is a bank of its own (05 R154, R163). -/
def rowBank (u : Nat) : Nat :=
  let i := unitIndex u
  match unitClass u with
  | 4 => i % 64 * 4 + i / 64 % 4
  | 5 => 256 + i % 64
  | 6 => 320 + i % 64
  | 7 => 1024 + i % 512
  | _ => 2048 + i % 512

/-- The test of a fault can start: one test at a time but for row marches on different banks; pairs that it touches are
idle; a fabric target that Safe Hold has frozen is not tested (R291). (log 71, DEDUCED) -/
def State.testReady (s : State) (f : FaultRec) : Bool :=
  if isRow f.unit then !s.assay.running.any (fun r => isRow r.unit && rowBank r.unit == rowBank f.unit)
  else
    !s.assay.running.any (fun r => !isRow r.unit) &&
    (!s.meteredRole || (pairsUnder f.unit).all (fun p => (s.pair p).phase == .idle)) &&
    !(unitClass f.unit == 10 && s.safeHold && decide (unitIndex f.unit ≤ 10))

/-- Substitute the pairs that a test touches (07 R252). -/
def State.substituteFor (s : State) (u : Nat) : State :=
  if s.meteredRole then foldN s (pairsUnder u) State.substitute else s

/-- The first queued fault, in order of detection, whose test can start; pairs of those looked at are substituted. -/
def State.nextTest (s : State) : List FaultRec → Option FaultRec × State
  | [] => (none, s)
  | f :: r =>
    let s := s.substituteFor f.unit
    if s.testReady f then (some f, s) else s.nextTest r

/-- The unit that the test of a fault tests: of a pair, one core after the other (R278, R280). (log 149, DEDUCED) -/
def testUnit (f : FaultRec) : Nat :=
  if unitClass f.unit = 15 then
    unitOf 0 (if f.part = 0 then (pairCores (unitIndex f.unit)).1 else (pairCores (unitIndex f.unit)).2)
  else f.unit

/-- What the start of a test does to its unit: its cores hold no work; a row's shadow takes its words, every correctable
one corrected (05 R162); a lane check counts from 0 (R279). -/
def State.testBegin (s : State) (u : Nat) : State :=
  if isRow u then { s with eccC := s.eccC.filter (fun w => rowUnit w != u) }
  else if unitClass u = 9 then s.modPort (unitIndex u) (fun x => { x with laneErrs := 0 })
  else s.holdCores u true

/-- TEST_START. -/
def execTestStart (s : State) : Host.Outcome State Fault Refusal :=
  let r := s.nextTest s.assay.queue
  match r.1 with
  | none => device r.2
  | some f =>
    let s := r.2.modAssay (fun x => { x with
      queue := x.queue.filter (fun q => q.log != f.log), running := x.running ++ [{ f with startedAt := some s.now }] })
    device ((s.testBegin (testUnit f)).assaySts)

/-! ### The recovery window (R286) -/

/-- RECOVERY_WINDOW: the window's time ends; it closes, or stays open with WLATE set. -/
def execRecoveryWindow (s : State) : Host.Outcome State Fault Refusal :=
  if !s.windowOver then .next s
  else device (if s.faultsDone then s.closeWindow else s.put Fld.AS_STS_WLATE 1)

/-! ### Verdicts (R281) -/

/-- Transient verdicts of a unit in the last second. (log 83, DEDUCED) -/
def State.transients (s : State) (u : Nat) : Nat :=
  (s.assay.history.filter (fun h => h.1 == u && decide (s.now < h.2 + 1000000000))).length

/-- A transient verdict: counted, logged, and the unit returns to service. (log 83, DEDUCED) -/
def State.transient (s : State) (f : FaultRec) : State :=
  let s := (s.bump Fld.AS_CNT_TRANS_COUNT).modAssay (fun x => { x with
    history := x.history.filter (fun h => decide (s.now < h.2 + 1000000000)) ++ [(f.unit, s.now)],
    faults := markFault x.faults f.unit 1 })
  let s := (s.giveVerdict f 1).logDone f.log
  if s.meteredRole then foldN s (pairsUnder f.unit) State.freePair else s

/-- A fault waits for its test, in order of detection. -/
def insertFault (f : FaultRec) : List FaultRec → List FaultRec
  | [] => [f]
  | q :: r => if q.log < f.log then q :: insertFault f r else f :: q :: r

/-- Whether a test passed: a lane check passes with fewer than 4 uncorrectable codewords (R279). -/
def State.testPassed (s : State) (f : FaultRec) (pass : Bool) : Bool :=
  if unitClass f.unit = 9 then decide ((s.port (unitIndex f.unit)).laneErrs < 4) else pass

/-- VERDICT: a test ends; it passed or failed. Of a pair, the first core's pass leads to the other's test, and the pair's
verdict follows the second (R278, R280). (log 149, DEDUCED) -/
def execVerdict (unit : Word32) (pass : Bool) (s : State) : Host.Outcome State Fault Refusal :=
  match s.assay.running.find? (fun f => testUnit f == unit.toNat) with
  | none => .next s
  | some f =>
    let pass := s.testPassed f pass
    let s := s.modAssay (fun x => { x with running := x.running.filter (fun r => r.log != f.log) })
    let s := s.holdCores (testUnit f) false
    if pass && unitClass f.unit == 15 && f.part == 0 then
      device (s.modAssay (fun x => { x with
        queue := insertFault { f with part := 1, startedAt := none } x.queue })).assaySts
    else
      let s := s.assaySts
      let s := if pass && decide (s.transients f.unit < 2) then s.transient f else s.lasting f
      device s.faultComplete

/-! ### Retirement (R283 to R285, R164, R275) -/

/-- Set a bit of a retirement map. -/
def State.setMap (s : State) (reg i : Nat) : State :=
  let a := reg + 4 * (i / 32)
  s.setReg a (bitsSet (s.reg a) (i % 32) 1 1)

/-- Reservations on granules that satisfy `f` are cleared (05 R171). -/
def State.dropGranules (s : State) (f : Nat → Bool) : State :=
  { s with resvs := s.resvs.filter (fun r => !f r.2) }

/-- A header that a retired thread held (R284). -/
def State.retireHeader (s : State) (h : Header) : State :=
  if h.cls.toNat ≤ 1 then s.deliver 3 (s.cfg Fld.PO_DFLT_DEST) h else s.dropHeader h Fld.AS_CNT_RETDROP_COUNT

/-- A thread of a retired core: its headers are redirected, its claims released, and it issues nothing more. (log 85, DEDUCED) -/
def State.retireThread (s : State) (t : Nat) : State :=
  let th := s.thr t
  let hs := th.cur.toList ++ th.mailbox
  let s := (s.dropResv t).disableThread t
  let s := (s.modThr t (fun x => { x with mailbox := [], cur := none, spin := none, resume := none })).modCrier
    (fun c => { c with que := c.que.filter (· != t), offers := c.offers.filter (fun o => o.thread != t) })
  hs.foldl State.retireHeader (s.msgRefresh t)

/-- The running pair of a retired core stops; its header returns to the head of its group's queue (R275). A pair that
releases its buffer goes on. -/
def State.abortPair (s : State) (p : Nat) : State :=
  let x := s.pair p
  match x.phase, x.msg with
  | .releasing, _ => s
  | _, none => s
  | _, some m =>
    ((s.discardBuffers p).pairIdle p).modPrompt (fun y => { y with waiting := { m with since := s.now } :: y.waiting })

/-- Retire a core. (log 85, DEDUCED) -/
def State.retireCore (s : State) (c : Nat) : State :=
  if s.coreRetired c then s
  else
    let s := match pairOf c with
      | some p => if s.meteredRole then s.abortPair p else s
      | none => s
    let s := s.setMap Reg.AS_RETCORE c
    let s := foldN s [4 * c, 4 * c + 1, 4 * c + 2, 4 * c + 3] State.retireThread
    let s := s.dropGranules (fun g => decide (dsramBase c ≤ g) && decide (g < dsramBase c + 0x8000))
    match pairOf c with
    | some p => if s.meteredRole then s.substitute p else s
    | none => s

/-- Retire a cluster: its cores, and its memory, which becomes unreachable. -/
def State.retireCluster (s : State) (cl : Nat) : State :=
  let s := foldN s (coresUnder (unitOf 1 cl)) State.retireCore
  (s.setMap Reg.AS_RETCL cl).dropGranules
    (fun g => decide (clusterBase cl ≤ g) && decide (g < clusterBase cl + 0x40000))

/-- Retire a region: its clusters; it is switched off and takes the Retired state. -/
def State.retireRegion (s : State) (r : Nat) : State :=
  let s := foldN s ((List.range 8).map (fun k => 8 * r + k)) State.retireCluster
  let s := (s.setMap Reg.AS_RETRG r).put Fld.RG_PSTS_STATE 6 (rgOff r)
  s.modPower (fun x => { x with
    gating := tblDel x.gating r, leaving := tblDel x.leaving r, wakeReq := x.wakeReq.filter (· != r) })

/-- The unit that a lasting fault of a row retires where its bank has no spare row left: core or cluster (R164). -/
def rowOwner (u : Nat) : Option Nat :=
  match unitClass u with
  | 4 => some (unitOf 1 (unitIndex u % 64))
  | 7 => some (unitOf 0 (unitIndex u % 512))
  | 8 => some (unitOf 0 (unitIndex u % 512))
  | _ => none

/-- Spare rows of a bank at reset, by AS_SPIDX number: a cluster memory bank has 4, another 8, a core SRAM none
(05 R154). -/
def spareRows (b : Nat) : Nat := if b < 256 then 4 else if b < 384 then 8 else 0

/-- Spare rows left in a bank. -/
def State.sparesLeft (s : State) (b : Nat) : Nat := spareRows b - (tblGet s.assay.spares b).getD 0

/-- A held frame lies in the row of the frame buffer. (log 71, DEDUCED) -/
def State.rowHeld (s : State) (u : Nat) : Bool :=
  unitClass u == 6 && s.porter.held.any (fun h =>
    (List.range (4 * h.cells)).any (fun i => rowUnit (frameBase + 256 * h.cell + 64 * i) == u))

/-- The lower session index of a row of the Session Store (AS_LOG DETAIL). -/
def rowSession (u : Nat) : Nat := unitIndex u / 64 * 128 + unitIndex u % 64

/-- Retire the unit of a lasting verdict; none where the row's frames are not yet delivered. -/
def State.retireUnit (s : State) (f : FaultRec) : Option State :=
  let u := f.unit
  let i := unitIndex u
  match unitClass u with
  | 0 => some (s.retireCore i)
  | 1 => some (s.retireCluster i)
  | 2 => some (s.retireRegion i)
  | 3 => some (s.retireRegion i)
  | 9 => some ((s.setMap Reg.AS_PORTOOS i).portLink i false false)
  | 15 => some (foldN s (coresUnder u) State.retireCore)
  | _ =>
    let b := rowBank u
    if s.sparesLeft b ≠ 0 then
      some ((s.modAssay (fun x => { x with spares := tblPut x.spares b ((tblGet x.spares b).getD 0 + 1) })).dropGranules
        (fun g => rowUnit g == u))
    else
      match rowOwner u with
      | some o =>
        if holdsSteward o then some ((s.logVerdict f.log 3).enterHold u 4)
        else if unitClass o = 0 then some (s.retireCore (unitIndex o))
        else some (s.retireCluster (unitIndex o))
      | none =>
        if s.rowHeld u then none
        else
          let s := s.modAssay (fun x => { x with withdrawn := setIns x.withdrawn u })
          let s := s.dropGranules (fun g => rowUnit g == u)
          some (if unitClass u = 5 then s.logPut f.log Fld.AS_LOG_INFO_DETAIL (rowSession u) else s)

/-- A pair that the retirement of a unit touches releases its buffer: the retirement waits until the release is complete
(R270). -/
def State.releasingUnder (s : State) (u : Nat) : Bool :=
  s.meteredRole && (pairsUnder ((rowOwner u).getD u)).any (fun p => (s.pair p).phase == .releasing)

/-- A thread lies on a core that the retirement of a unit retires. -/
def retires (u t : Nat) : Bool :=
  let o := (rowOwner u).getD u
  let c := t / 4
  match unitClass o with
  | 0 => unitIndex o == c
  | 1 => unitIndex o == c / 8
  | 2 => unitIndex o == c / 64
  | 3 => unitIndex o == c / 64
  | 15 => pairOf c == some (unitIndex o)
  | _ => false

/-- A granted request of a core that is retired is still outstanding (05 R183). -/
def State.answersOwed (s : State) (u : Nat) : Bool :=
  s.arbs.any (fun kx => kx.2.out.any (fun o => o.thread.any (retires u)))

/-- RETIREMENT: the retirement that follows a lasting verdict, to its end. The retired cores' requests that no arbiter has
granted are withdrawn; those granted complete first (05 R183). -/
def execRetirement (unit : Word32) (s : State) : Host.Outcome State Fault Refusal :=
  match s.assay.retiring.find? (fun f => f.unit == unit.toNat) with
  | none => .next s
  | some f =>
    if s.releasingUnder f.unit then .next s
    else
    let s := s.withdrawWaits (retires f.unit)
    if s.answersOwed f.unit then device s
    else
    match s.retireUnit f with
    | none => .next s
    | some s =>
      let s := s.modAssay (fun x => { x with retiring := x.retiring.filter (fun r => r.log != f.log) })
      device ((s.holdCores f.unit false).logDone f.log).faultComplete

/-! ### Safe Hold is left (R292) -/

/-- A write of 1 to AS_HOLD.RESUME while HOLD is 1: the unit that caused the hold is tested again, with the given
outcome. Each kept Prompt header's wait starts again. (log 84, DEDUCED; log 110, DESIGN CHOICE) -/
def State.holdResume (s : State) (pass : Bool) : State :=
  if !s.safeHold then s
  else if pass then
    let s := (s.put Fld.AS_STS_HOLD 0).put Fld.AS_STS_HCAUSE 0
    s.modPrompt (fun x => { x with waiting := x.waiting.map (fun m => { m with since := s.now }) })
  else
    let r := s.logEntry s.assay.holdUnit 9 0 false
    (r.2.giveVerdict { unit := s.assay.holdUnit, cause := 9, log := r.1 } 3).logDone r.1

end Sys2Proof.Machine
end

