-- ==== Sys2Proof/Machine/Bellows.lean ====
section
/-! DEFINITION. The Bellows governor (07_prompt_bound_and_bellows.md R254 to R265; 04 R148, R150). -/

namespace Sys2Proof.Machine

/-- Setpoint code of a region. -/
def State.setpt (s : State) (r : Nat) : Nat := s.get Fld.BW_SET_SETPT (4 * r)
/-- Bounds of the envelope in effect; a code above 90 acts as 90 (R255). -/
def State.envMin (s : State) (r : Nat) : Nat := min 90 (s.cfg Fld.BW_ENV_MIN (4 * r))
def State.envMax (s : State) (r : Nat) : Nat := min 90 (s.cfg Fld.BW_ENV_MAX (4 * r))

/-- The region holds the Metered role. -/
def State.regionMetered (s : State) (r : Nat) : Bool := s.meteredRole && decide (6 ≤ r)

/-- The Bellows steers the region: it is awake, and the Assay neither tests nor retires its regulator or rings
(01 R32; 08 R283). -/
def State.steered (s : State) (r : Nat) : Bool :=
  decide (s.pstate r ≤ 1) &&
    !(s.assay.running ++ s.assay.retiring).any (fun f => f.unit == unitOf 2 r || f.unit == unitOf 3 r)

/-- Set a region's setpoint and record the step with its reason (R255, 11 R370). (log 86, DEDUCED) -/
def State.bwStep (s : State) (r new reason : Nat) : State :=
  (s.put Fld.BW_SET_SETPT new (4 * r)).record 0x12 1
    [BitVec.ofNat 8 r, BitVec.ofNat 8 (s.setpt r), BitVec.ofNat 8 new, BitVec.ofNat 8 reason]

/-- The power cap and the ceiling, in 0.25 W (R262). -/
def State.powerCap (s : State) : Nat := s.get Fld.BW_PCAP_W
def State.ceiling (s : State) : Nat := max (s.get Fld.BW_PCAP_CEIL_W) s.powerCap
def State.power_ (s : State) : Nat := s.get Fld.BW_PWR_AVG

/-- The average power exceeds the cap. -/
def State.overCap (s : State) : Bool := s.powerCap != 0 && decide (s.powerCap < s.power_)

/-- A Metered raise is refused: SHORT is set, and CEILHIT with the power-cap event where the ceiling refused it (R256,
R262, 09 R294). (log 11, DESIGN CHOICE) -/
def State.refuseRaise (s : State) (r : Nat) (ceil : Bool) : State :=
  let s := s.put Fld.BW_SET_SHORT 1 (4 * r)
  if ceil && !s.flag Fld.BW_STS_CEILHIT then (s.put Fld.BW_STS_CEILHIT 1).edge 3 else s

/-- Raise a Metered region by `n` codes, up to MAX and the ceiling. (log 11, DESIGN CHOICE) -/
def State.meteredRaise (s : State) (r n reason : Nat) : State :=
  let v := s.setpt r
  if s.envMax r ≤ v then s.refuseRaise r false
  else if s.ceiling < s.power_ + (Config.raisePower r v (min n (s.envMax r - v))).toNat then s.refuseRaise r true
  else (s.bwStep r (min (v + n) (s.envMax r)) reason).put Fld.BW_SET_SHORT 0 (4 * r)

/-- The hottest valid reading of a region's two sensors, in 1/8 degree (11 R352, R353). -/
def State.hottest (s : State) (r : Nat) : Option Int :=
  let one (i : Nat) : Option Int :=
    if s.flag Fld.TY_TEMP_VALID (4 * i) then some (signedOf 12 (s.get Fld.TY_TEMP_VAL (4 * i))) else none
  match one (2 * r), one (2 * r + 1) with
  | some a, some b => some (max a b)
  | some a, none => some a
  | none, b => b

/-- The region's hottest sensor has risen faster than 1 degree per ms since the last evaluation (R256). (log 86, DEDUCED) -/
def State.rising (s : State) (r : Nat) : Bool :=
  match s.hottest r, tblGet s.bellows.hotPrev r, s.bellows.evalAt with
  | some t, some p, some e => decide (((s.now - e : Nat) : Int) < (t - p) * 125000)
  | _, _, _ => false

/-- The margin M of a Metered region, in ps (R256). -/
def State.margin (s : State) (r : Nat) (m : BellowsRegion) : Nat :=
  s.cfg Fld.BW_MCFG_BASE + (m.age.toNat * s.beatPs * s.cfg Fld.BW_MCFG_AGEK + 999) / 1000 +
    (if s.rising r then 20 else 0)

/-- Ingress and egress residence of every message since the last evaluation lay below 90 % of their budgets. -/
def State.calmMessages (s : State) : Bool :=
  match tblGet s.prompt.lastBad 16, s.bellows.evalAt with
  | some t, some e => decide (t < e)
  | some _, none => false
  | none, _ => true

/-- One evaluation of a Metered region (R256). -/
def State.evalMetered (s : State) (r : Nat) (m : BellowsRegion) : State :=
  let d := m.dly.toNat + s.margin r m
  let calm := decide (d + s.cfg Fld.BW_MCFG_HYST < s.beatPs) && s.calmMessages
  let n := if calm then (tblGet s.bellows.calm r).getD 0 + 1 else 0
  let s := s.modBellows (fun b => { b with calm := tblPut b.calm r n })
  if s.beatPs < d then s.meteredRaise r 2 1
  else
    let s := s.put Fld.BW_SET_SHORT 0 (4 * r)
    if 10 ≤ n ∧ s.envMin r < s.setpt r then s.bwStep r (s.setpt r - 1) 1 else s

/-- The largest number of headers in a mailbox of the region. -/
def State.fullestMailbox (s : State) (r : Nat) : Nat :=
  s.threads.foldl (fun n kv => if regionOfThread kv.1 = r then max n kv.2.mailbox.length else n) 0

/-- Busy core ns of the region since the last evaluation, and the most that its cores not retired could have had; with no
time since then, the cores busy now (R259). (log 86, DEDUCED) -/
def State.busyShare (s : State) (r : Nat) : Nat × Nat :=
  let cores := ((List.range 64).filter (fun k => !s.coreRetired (64 * r + k))).length
  match s.bellows.evalAt with
  | some e => if e < s.now then ((tblGet s.bellows.busyNs r).getD 0, cores * (s.now - e)) else (s.busyCores r, cores)
  | none => (s.busyCores r, cores)

/-- The region's cores were busy at least 85 % of the last interval. -/
def State.mostlyBusy (s : State) (r : Nat) : Bool :=
  let b := s.busyShare r
  b.2 != 0 && decide (85 * b.2 ≤ 100 * b.1)

/-- The region's cores were busy at most 40 % of the last interval. -/
def State.mostlyIdle (s : State) (r : Nat) : Bool :=
  let b := s.busyShare r
  decide (100 * b.1 ≤ 40 * b.2)

/-- One evaluation of an Elastic region that is not shed (R259). (log 86, DEDUCED) -/
def State.evalElastic (s : State) (r : Nat) : State :=
  let h := s.fullestMailbox r
  let s := s.modBellows (fun b => { b with
    asked := if s.mostlyBusy r then tblPut b.asked r (s.setpt r + 1) else tblDel b.asked r })
  if s.mostlyBusy r ∨ 4 ≤ h then
    (if s.setpt r < s.envMax r ∧ (s.powerCap = 0 ∨ s.power_ < s.powerCap) then s.bwStep r (s.setpt r + 1) 4 else s)
  else if s.mostlyIdle r ∧ h ≤ 1 ∧ s.envMin r < s.setpt r then s.bwStep r (s.setpt r - 1) 5
  else s

/-- Move a setpoint that a commit left outside its envelope to the nearer bound (R255). -/
def State.intoEnvelope (s : State) (r : Nat) : State :=
  let v := s.setpt r
  if v < s.envMin r then s.bwStep r (s.envMin r) 9
  else if s.envMax r < v then s.bwStep r (s.envMax r) 9
  else s

/-- The headroom of a region is low: of a Metered one at its setpoint, of an Elastic one at the setpoint that R259 asked for
at 85 % busy, whether or not the power cap let it rise (R265). (log 86, DEDUCED) -/
def State.headroomLow (s : State) (r : Nat) : Bool :=
  let hdr := s.get Fld.BW_WARN_HDR
  if s.regionRetired r then false
  else if s.regionMetered r then decide (s.envMax r < s.setpt r + hdr)
  else match tblGet s.bellows.asked r with
    | some v => decide (s.envMax r < v + hdr)
    | none => false

/-- A region's headroom has become low: HDRLOW is set, and the Bellows-headroom event raised (R265, 09 R294). -/
def State.hdrCheck (s : State) : State :=
  let low := (List.range 8).filter s.headroomLow
  let new := low.any (fun r => !s.bellows.low.contains r)
  let s := s.modBellows (fun b => { b with low := low })
  if new then (s.put Fld.BW_STS_HDRLOW 1).edge 4 else s

/-- One region's evaluation. -/
def State.evalRegion (s : State) (r : Nat) (m : BellowsRegion) : State :=
  let s := (s.put Fld.BW_RING_DLY m.dly.toNat (4 * r)).put Fld.BW_RING_AGE m.age.toNat (4 * r)
  if !s.flag Fld.BW_CTL_EN || !s.steered r then s
  else
    let s := s.intoEnvelope r
    if s.regionMetered r then s.evalMetered r m else if s.bellows.shed.contains r then s else s.evalElastic r

/-! ### The power cap (R260 to R263) -/

/-- An evaluation takes in the die power: BW_PWR, and the time of BW_EXC with CAPX at 1. -/
def State.takePower (s : State) (p : Nat) : State :=
  let p := min 4095 p
  let s := (s.put Fld.BW_PWR_AVG p).put Fld.BW_PWR_PEAK (max (s.get Fld.BW_PWR_PEAK) p)
  if s.flag Fld.BW_STS_CAPX then
    let ns := s.bellows.capNs + (s.now - s.bellows.evalAt.getD s.now)
    (s.bump Fld.BW_EXC_DUR (ns / 1000000)).modBellows (fun b => { b with capNs := ns % 1000000 })
  else s

/-- The excess over the cap that BW_EXC holds, once the evaluation has decided CAPX (R262). -/
def State.noteExcess (s : State) : State :=
  if s.flag Fld.BW_STS_CAPX && s.overCap then
    s.put Fld.BW_EXC_MAXW (max (s.get Fld.BW_EXC_MAXW) (s.power_ - s.powerCap))
  else s

/-- Elastic regions that are awake, not shed, and above their MIN. (log 86, DEDUCED) -/
def State.lowerable (s : State) : List Nat :=
  (List.range 8).filter (fun r => !s.regionMetered r && !s.bellows.shed.contains r && s.steered r &&
    decide (s.envMin r < s.setpt r))

/-- The region of a list with the highest setpoint, the lowest-numbered among equals. -/
def State.highest (s : State) : List Nat → Option Nat
  | [] => none
  | r :: rest =>
    match s.highest rest with
    | none => some r
    | some q => if s.setpt q ≤ s.setpt r then some r else some q

/-- The regions of BW_SHED in order, up to the nibble 0xF. -/
def State.shedOrder (s : State) : List Nat :=
  ((List.range 6).map (fun k => bitsGet (s.reg Reg.BW_SHED) (4 * k) 4)).takeWhile (· != 15)

/-- The next region to gate for the cap. -/
def State.nextShed (s : State) : Option Nat :=
  s.shedOrder.find? (fun r => decide (r < 8) && !s.regionMetered r && !s.regionRetired r && !s.bellows.shed.contains r)

/-- BW_STS.SHED, BW_SET_r.SHED and RG_PSTS.SHED of a region. -/
def State.markShed (s : State) (r : Nat) (on : Bool) : State :=
  let s := (s.put Fld.BW_SET_SHED (b2n on) (4 * r)).put Fld.RG_PSTS_SHED (b2n on) (rgOff r)
  s.put Fld.BW_STS_SHED s.bellows.shed.length

/-- A region starts to enter Gated (12 R389, R390). -/
def State.startGating (s : State) (r : Nat) (ret : Bool) : State :=
  (s.put Fld.RG_PSTS_STATE 2 (rgOff r)).modPower (fun x => { x with
    gating := tblPut x.gating r (s.now, ret), quietAt := tblDel x.quietAt r })

/-- Gate a region for the cap, with retention. -/
def State.shedRegion (s : State) (r : Nat) : State :=
  let s := (s.modBellows (fun b => { b with shed := b.shed ++ [r], gatedAt := some s.now })).markShed r true
  let s := s.bwStep r (s.setpt r) 7
  if s.pstate r ≤ 1 then s.startGating r true else s

/-- 100 µs have passed since the last gating for the cap. -/
def State.shedDue (s : State) : Bool :=
  match s.bellows.gatedAt with
  | some t => decide (t + 100000 ≤ s.now)
  | none => true

/-- BW_STS.CAPX, with the power-cap event at its rise. (log 86, DEDUCED) -/
def State.setCapx (s : State) (on : Bool) : State :=
  if s.flag Fld.BW_STS_CAPX == on then s
  else
    let s := s.put Fld.BW_STS_CAPX (b2n on)
    if on then s.edge 3 else s

/-- What an evaluation does for the cap (R261, R262). -/
def State.keepCap (s : State) : State :=
  if !s.overCap then s.setCapx false
  else
    match s.highest s.lowerable with
    | some r => (s.bwStep r (s.setpt r - 1) 6).setCapx s.bellows.spent
    | none =>
      match s.nextShed with
      | some r => if s.shedDue then s.shedRegion r else s
      | none => if s.shedDue then (s.modBellows (fun b => { b with spent := true })).setCapx true else s

/-- What one evaluation leaves for the next: the time since which the average has stood at least 1 W below the cap, the
hottest readings, and the busy time, which starts again. -/
def State.noteUnder (s : State) : State :=
  let under := s.powerCap == 0 || decide (s.power_ + 4 ≤ s.powerCap)
  s.modBellows (fun b => { b with
    underAt := if under then some (b.underAt.getD s.now) else none,
    spent := b.spent && !under, evalAt := some s.now, busyNs := [],
    hotPrev := (List.range 8).filterMap (fun r => (s.hottest r).map (fun t => (r, t))) })

/-- BELLOWS_EVALUATION (R254). -/
def execBellowsEvaluation (m : BellowsInputs) (s : State) : Host.Outcome State Fault Refusal :=
  if !s.dieOn then .next s
  else
  let s := s.takePower m.power
  let s := foldN s (List.range 8) (fun s r => match m.regions[r]? with
    | some x => s.evalRegion r x
    | none => s)
  let s := if s.flag Fld.BW_CTL_EN then s.keepCap else if s.overCap then s else s.setCapx false
  device s.noteExcess.hdrCheck.noteUnder

/-- The region of a core is Metered and steered. -/
def State.raisable (s : State) (c : Nat) : Bool :=
  s.flag Fld.BW_CTL_EN && s.regionMetered (c / 64) && s.steered (c / 64)

/-- SLACK_RAISE (R257, 04 R150): a word's slack is measured. (log 87, DESIGN CHOICE) -/
def execSlackRaise (c : CoreId) (ps : BitVec 12) (s : State) : Host.Outcome State Fault Refusal :=
  let n := c.toNat
  if (s.thr (4 * n)).tstate != .meteredRun then .next s
  else
    let s := s.put Fld.CO_SLACK_MINPS (min (s.get Fld.CO_SLACK_MINPS (coOff n)) ps.toNat) (coOff n)
    device (if ps.toNat < s.cfg Fld.BW_MCFG_SLKMIN && s.raisable n then (s.meteredRaise (n / 64) 2 2).hdrCheck else s)

/-- A beat overrun is counted in the core's status. -/
def State.countOverrun (s : State) (c : Nat) : State :=
  ((s.put Fld.CO_SLACK_MINPS 0 (coOff c)).put Fld.CO_STS_BOVR 1 (coOff c)).bump Fld.CO_STS_BOVRCNT 1 (coOff c)

/-- OVERRUN_RAISE (R257, 04 R148): a word has not completed when its beats end. The overrun of a held access is counted
and reported to no one; HANDLER fails for it. (log 87, DESIGN CHOICE) -/
def execOverrunRaise (c : CoreId) (held : Bool) (s : State) : Host.Outcome State Fault Refusal :=
  let n := c.toNat
  if (s.thr (4 * n)).tstate != .meteredRun then .next s
  else if held then device (s.heldAccess (4 * n))
  else
    let s := (s.countOverrun n).condEvent 5
    let s := if s.raisable n then ((s.meteredRaise (n / 64) 5 3).put Fld.BW_STS_OVRRAISE 1).hdrCheck else s
    device (s.report (unitOf 0 n) 7 0)

/-- 1 ms has passed since the last unshed, or none was made. -/
def State.unshedDue (s : State) : Bool :=
  match s.bellows.unshedAt with
  | some t => decide (t + 1000000 ≤ s.now)
  | none => true

/-- The average has stood at least 1 W below the cap for 1 ms. -/
def State.underLong (s : State) : Bool :=
  match s.bellows.underAt with
  | some t => decide (t + 1000000 ≤ s.now)
  | none => false

/-- The next region to be unshed: the last in BW_SHED order; of regions that BW_SHED no longer names, the last one shed. (log 86, DEDUCED) -/
def State.nextUnshed (s : State) : Option Nat :=
  (s.shedOrder.reverse.find? s.bellows.shed.contains) <|> s.bellows.shed.getLast?

/-- UNSHED (R263): one region is unshed, in reverse BW_SHED order; its wake takes effect. -/
def execUnshed (s : State) : Host.Outcome State Fault Refusal :=
  match s.nextUnshed with
  | none => .next s
  | some r =>
    if s.flag Fld.BW_CTL_EN && s.underLong && s.unshedDue then
      let s := s.modBellows (fun b => { b with shed := b.shed.erase r, unshedAt := some s.now })
      device (((s.markShed r false).bwStep r (s.setpt r) 8).askWake r)
    else .next s

end Sys2Proof.Machine
end

