-- ==== Sys2Proof/Machine/HostQueue.lean ====
section
/-! DEFINITION. Host queue pairs: starting and stopping, doorbells, submission descriptors, posts, completions, and the
MSI-X messages that announce them (10 R329 to R347; 09 R314, R315). -/

namespace Sys2Proof.Machine

/-- Offset of queue `q`'s registers. -/
def hqOff (q : Nat) : Nat := 32 * q

/-! ### The region of a queue (R329) -/

def State.hqRegion (s : State) (q : Nat) : Nat := s.get Fld.HQ_BASE_ADDR (hqOff q) * 65536

/-- Bytes of the SQ: none where SQSZ is 0. -/
def State.sqBytes (s : State) (q : Nat) : Nat := if s.cfg Fld.HQ_CFG_SQSZ (hqOff q) = 0 then 0 else 64 * s.sqSize q

def State.sqEntryAddr (s : State) (q i : Nat) : Nat := s.hqRegion q + 64 * i
def State.cqEntryAddr (s : State) (q i : Nat) : Nat := s.hqRegion q + s.sqBytes q + 64 * i
def State.slotAddr (s : State) (q i : Nat) : Nat :=
  s.hqRegion q + s.sqBytes q + 64 * s.cqSize q + i * s.slotSize q

/-- The fields of a start are valid and the region lies below 2^48 (R330). -/
def State.hqValid (s : State) (q : Nat) : Bool :=
  let sq := s.cfg Fld.HQ_CFG_SQSZ (hqOff q)
  let cq := s.cfg Fld.HQ_CFG_CQSZ (hqOff q)
  (sq == 0 || (decide (6 ≤ sq) && decide (sq ≤ 16))) && decide (6 ≤ cq) && decide (cq ≤ 16) &&
    decide (s.cfg Fld.HQ_CFG_SLOT (hqOff q) ≤ 6) &&
    decide (s.slotAddr q 0 + s.cqSize q * s.slotSize q ≤ 2 ^ 48)

/-! ### Starting and stopping (R330, R344) -/

/-- GL_LINK_STS.L1BLK follows the running PQ queues (R321). -/
def State.l1blk (s : State) : State :=
  s.put Fld.GL_LINK_STS_L1BLK (b2n (s.hqs.any (fun kx =>
    s.flag Fld.HQ_STS_RUN (hqOff kx.1) && s.on Fld.HQ_CFG_PQ (hqOff kx.1))))

/-- HQ_CFG.EN was written 1. A queue that runs goes on. -/
def State.startQueue (s : State) (q : Nat) : State :=
  let o := hqOff q
  if s.flag Fld.HQ_STS_RUN o then s
  else if !s.hqValid q then s.put Fld.HQ_STS_CFGERR 1 o
  else
    let s := (s.setReg (Reg.HQ_SQPOS + o) 0).setReg (Reg.HQ_CQPOS + o) 0
    ((s.setHq q { phase := true, rx := [], desc := none }).put Fld.HQ_STS_RUN 1 o).l1blk

/-- Handle a frame that awaits a queue that stops: a Prompt frame is not admitted, another goes to PO_DFLT. -/
def State.returnFrame (s : State) (x : RxWait) : State :=
  if x.hdr.cls = 0 then (s.dropHeader x.hdr Fld.PO_DROP_P_COUNT).condEvent 0
  else s.deliver 3 (s.cfg Fld.PO_DFLT_DEST) x.hdr

/-- Return a queue's registers to their reset values (R344). -/
def State.clearQueueRegs (s : State) (q : Nat) : State :=
  { s with
    regs := s.regs.filter (fun kv => !(decide (Reg.HQ_BASE + hqOff q ≤ kv.1) && decide (kv.1 < Reg.HQ_BASE + hqOff q + 32))),
    eff := s.eff.filter (fun kv => !(decide (Reg.HQ_BASE + hqOff q ≤ kv.1) && decide (kv.1 < Reg.HQ_BASE + hqOff q + 32))) }

/-- RUN becomes 0 once a stopping queue has no transfer outstanding. -/
def State.stopDone (s : State) (q : Nat) : State :=
  if s.link.stopping.contains q && (s.hq q).desc.isNone && (s.hq q).reading.isNone && (s.hq q).staged.isEmpty then
    let flr := s.link.flr.contains q
    let s := s.modLink (fun l => { l with stopping := l.stopping.filter (· != q), flr := l.flr.filter (· != q) })
    let s := s.put Fld.HQ_STS_RUN 0 (hqOff q)
    (if flr then s.clearQueueRegs q else s).l1blk
  else s

/-! ### Completions (R332, R333) -/

/-- Bytes of the `n` pieces of at most `size` bytes. -/
def pieces (size : Nat) : Nat → List Byte → List (List Byte)
  | 0, _ => []
  | n + 1, bs => bs.take size :: pieces size n (bs.drop size)

/-- The PHASE word of entry `i + k` of an allotment that began at `i` in phase `ph`. -/
def phaseWord (n i k : Nat) (ph : Bool) : Nat := if (if i + k < n then ph else !ph) then 2 ^ 31 else 0

/-- A CONT entry. -/
def contEntry (phase : Nat) : List Byte := [3] ++ List.replicate 59 0 ++ leBytes 4 phase

/-- The first entry of a completion. -/
def firstEntry (ty status nslot op sqhead cid len ts phase : Nat) (info : List Byte) : List Byte :=
  leBytes 1 ty ++ leBytes 1 status ++ leBytes 1 nslot ++ leBytes 1 op ++ leBytes 2 sqhead ++ leBytes 2 cid ++
    leBytes 4 len ++ leBytes 4 0 ++ info ++ leBytes 8 ts ++ leBytes 4 0 ++ leBytes 4 phase

/-- What a completion says beside its data. -/
structure Completion where
  ty     : Nat
  status : Nat
  op     : Nat := 0
  cid    : Nat := 0
  info   : List Byte := List.replicate 32 0
  deriving DecidableEq, Repr

/-- Write a completion into entries allotted from index `i` in phase `ph`: data slots, CONT entries, first entry; one
event of the queue's vector. -/
def State.complete (s : State) (q : Nat) (slot : Nat × Bool) (c : Completion) (data : List Byte) : State :=
  let f := q / 2048
  let n := s.cqSize q
  let k := s.nslot q data.length
  let i := slot.1
  let s := ((List.range k).zip (pieces (s.slotSize q) k data)).foldl (fun s p =>
    if p.2.isEmpty then s else s.sendWrite f (s.slotAddr q ((i + p.1) % n)) p.2) s
  let s := (List.range (k - 1)).foldl (fun s j =>
    s.sendWrite f (s.cqEntryAddr q ((i + j + 1) % n)) (contEntry (phaseWord n i (j + 1) slot.2))) s
  let s := s.sendWrite f (s.cqEntryAddr q i)
    (firstEntry c.ty c.status k c.op (s.get Fld.HQ_SQPOS_HEAD (hqOff q)) c.cid data.length s.tb.now.toNat
      (phaseWord n i 0 slot.2) c.info)
  let s := if 1 ≤ c.status ∧ c.status ≤ 3 then s.put Fld.HQ_STS_SQERR 1 (hqOff q) else s
  s.msixEvent q

/-! ### Posts that wait behind Prompt frames (R335, R345) -/

/-- A Prompt frame waits for the engine, which takes it before all other work (R345). -/
def State.promptWaits (s : State) : Bool :=
  s.hqs.any (fun kx => kx.2.rx.any (fun y => y.slot.isSome) && s.hqMoves kx.1)

/-- Write the staged posts of a queue that stand behind no Prompt frame. (log 150, DEDUCED) -/
def State.flushQueue (s : State) (q : Nat) : State :=
  let ready := (s.hq q).staged.takeWhile (fun p => p.behind == 0)
  if ready.isEmpty || !s.linkUsable then s
  else
    let s := s.modHq q (fun x => { x with staged := x.staged.dropWhile (fun p => p.behind == 0) })
    (ready.foldl (fun s p => s.complete q p.slot { ty := 2, status := p.status, info := p.info } p.data) s).stopDone q

/-- Write every staged post that stands behind no Prompt frame, once no Prompt frame waits. -/
def State.flushStaged (s : State) : State :=
  if s.promptWaits then s else (s.hqs.map (·.1)).foldl State.flushQueue s

/-- Stop a queue: HQ_CFG.EN was written 0, or by a Function Level Reset. -/
def State.stopQueue (s : State) (q : Nat) (flr : Bool) : State :=
  if s.flag Fld.HQ_STS_RUN (hqOff q) then
    let waiting := (s.hq q).rx
    let s := s.modLink (fun l => { l with
      stopping := setIns l.stopping q, flr := if flr then setIns l.flr q else l.flr })
    let s := s.modHq q (fun x => { x with rx := [], staged := x.staged.map (fun p => { p with behind := 0 }) })
    (waiting.foldl State.returnFrame s).flushStaged.stopDone q
  else if flr then s.clearQueueRegs q
  else s

/-! ### Reading frames and blocks for the host -/

/-- `n` bytes at a physical number as the host receives them: those of an uncorrectable word are free values
(05 R161, R333). (log 14, DESIGN CHOICE) -/
def State.hostBytes (s : State) (a n : Nat) : List Byte × State :=
  if s.badRead a n then
    let bs := (List.range n).map (fun i =>
      if s.eccU.contains (eccWord (a + i)) then Config.badByte (s.freeCtr + i) else s.byte (a + i))
    (bs, (({ s with freeCtr := s.freeCtr + n }).reportBad a n).correct a n)
  else (s.bytes a n, s.correct a n)

/-- `n` bytes from a data address lie wholly in the frame buffer, the Session Store or one cluster memory. (log 65, DEDUCED) -/
def blockPlace (a n : Nat) : Bool :=
  dRegion a == dRegion (a + (n - 1)) && (match dRegion a with
    | .frame => true
    | .session => true
    | .glob _ => true
    | _ => false)

/-- The data address of a block reference: SPACE in [31:28], offset bits [27:6] (HQ_POST, TY_PUSH). -/
def blockRef (v : Word32) : Option Nat :=
  let off := bitsGet v 6 22 * 64
  match bitsGet v 28 4 with
  | 0 => some (frameBase + off)
  | 1 => some (sessionBase + off)
  | 2 => some (0x1000000000 + off)
  | _ => none

/-! ### Posts (R340, R341) -/

/-- The block of a post, where it is valid: the bytes to copy, by place and length, and USER. -/
def State.postBlock (s : State) (v : Word32) : Option (Nat × Nat × List Byte) :=
  match blockRef v with
  | none => none
  | some a =>
    if !blockPlace a 64 || s.badRead a 64 then none
    else
      let b := s.bytes a 64
      let len := leNat (b.take 4)
      let src := leNat (slice b 8 8)
      if 9216 < len || slice b 4 4 != List.replicate 4 0 || slice b 48 16 != List.replicate 16 0 ||
          (len != 0 && !blockPlace src len) then none
      else some (src, len, slice b 16 32)

/-- The device reads a block: its correctable words are corrected, and an uncorrectable one is reported (05 R158, R161). -/
def State.readBlock (s : State) (v : Word32) : State :=
  match blockRef v with
  | some a => if blockPlace a 64 then (s.reportBad a 64).correct a 64 else s
  | none => s

/-- Bytes of posts that are staged (R347). -/
def State.stagedBytes (s : State) : Nat := (s.hqs.map (fun kx => (kx.2.staged.map (·.data.length)).sum)).sum

/-- A fabric target from which a post is read is frozen (05 R182). -/
def State.blockFrozen (s : State) (a : Nat) : Bool :=
  match dRegion a with
  | .frame => s.targetFrozen 9 false
  | .session => s.targetFrozen 8 false
  | .glob cl => s.targetFrozen (cl / 8) false || s.arbFrozen (.crossbar (BitVec.ofNat 3 (cl / 8))) || s.clusterFrozen cl
  | _ => false

/-- A write to HQ_POST waits: while the target of its block or of its data is frozen, or while staging has no room for it (R341,
R347). (log 150, DEDUCED) -/
def State.postStops (s : State) (q : Nat) (v : Word32) : Bool :=
  match blockRef v with
  | none => false
  | some a =>
    s.blockFrozen a || (match s.postBlock v with
      | some (src, len, _) => (len != 0 && s.blockFrozen src) ||
          (s.hqMoves q && s.promptWaits && decide (65536 < s.stagedBytes + len))
      | none => false)

/-- A write to HQ_POST: checked, then a POST completion, or discarded. Behind Prompt frames that wait its data is staged. (log 65, DEDUCED; log 150, DEDUCED) -/
def State.hqPost (s : State) (q : Nat) (v : Word32) : State :=
  let s := s.readBlock v
  match s.postBlock v with
  | some (src, len, user) =>
    if s.hqRun q && s.hqMoves q && decide (s.nslot q len ≤ s.cqRoom q) then
      let bad := s.badRead src len
      let d := if len = 0 then ([], s) else s.hostBytes src len
      let r := d.2.cqAllot q (s.nslot q len)
      let st := if bad then 5 else 0
      if r.2.promptWaits || !(r.2.hq q).staged.isEmpty then
        r.2.modHq q (fun x => { x with staged := x.staged ++
          [⟨r.1, st, user, d.1, (x.rx.filter (fun y => y.slot.isSome)).length⟩] })
      else r.2.complete q r.1 { ty := 2, status := st, info := user } d.1
    else s.put Fld.HQ_STS_PDISC 1 (hqOff q)
  | none => s.put Fld.HQ_STS_PDISC 1 (hqOff q)

/-! ### Doorbells (R342) -/

/-- Entries between two positions of a ring of `n`. -/
def ringDist (n a b : Nat) : Nat := (b + n - a) % n

def State.dbErr (s : State) (q : Nat) : State := s.put Fld.HQ_STS_DBERR 1 (hqOff q)

/-- WHICH 0. In software mode a write that leaves the SQ not empty sets QUE of the queue's thread (R339). -/
def State.dbSqTail (s : State) (q i : Nat) : State :=
  let o := hqOff q
  if s.cfg Fld.HQ_CFG_SQSZ o = 0 ∨ s.sqSize q ≤ i then s.dbErr q
  else
    let s := s.put Fld.HQ_SQPOS_TAIL i o
    if s.on Fld.HQ_CFG_SWQ o && decide (i ≠ s.get Fld.HQ_SQPOS_HEAD o) then s.setQue (s.cfg Fld.HQ_CFG_THREAD o) else s

/-- WHICH 1. -/
def State.dbCqHead (s : State) (q i : Nat) : State :=
  let o := hqOff q
  let n := s.cqSize q
  let h := s.get Fld.HQ_CQPOS_HEAD o
  if n ≤ i ∨ ringDist n h (s.get Fld.HQ_CQPOS_TAIL o) < ringDist n h i then s.dbErr q
  else s.put Fld.HQ_CQPOS_HEAD i o

/-- WHICH 2. -/
def State.dbSqHead (s : State) (q i : Nat) : State :=
  let o := hqOff q
  let n := s.sqSize q
  let h := s.get Fld.HQ_SQPOS_HEAD o
  if !s.on Fld.HQ_CFG_SWQ o || s.cfg Fld.HQ_CFG_SQSZ o == 0 || decide (n ≤ i) ||
      decide (ringDist n h (s.get Fld.HQ_SQPOS_TAIL o) < ringDist n h i) then s.dbErr q
  else s.put Fld.HQ_SQPOS_HEAD i o

/-- A write to HQ_DB. -/
def State.doorbell (s : State) (q : Nat) (v : Word32) : State :=
  let i := bitsGet v 0 16
  match bitsGet v 16 2 with
  | 0 => s.dbSqTail q i
  | 1 => s.dbCqHead q i
  | 2 => s.dbSqHead q i
  | _ => s.dbErr q

/-! ### Submission descriptors (R337, R338) -/

def descOp (d : List Byte) : Nat := (byteAt d 0).toNat
def descCid (d : List Byte) : Nat := leNat (slice d 2 2)
def descLen (d : List Byte) : Nat := leNat (slice d 4 2)
def descPort (d : List Byte) : Nat := (byteAt d 6).toNat
def descCls (d : List Byte) : Nat := (byteAt d 7).toNat
def descAddr (d : List Byte) : Nat := leNat (slice d 8 8)
def descDest (d : List Byte) : Nat := leNat (slice d 16 4)

/-- The status that step 1 gives a descriptor; 0 where the check passes. (log 62, DEDUCED) -/
def State.descCheck (s : State) (d : List Byte) : Nat :=
  let op := descOp d
  let len := descLen d
  if 2 < op ∨ 2 ≤ (byteAt d 1).toNat ∨ 8 ≤ descPort d ∨ 4 ≤ descCls d ∨ slice d 24 40 ≠ List.replicate 40 0 then 3
  else if op = 2 ∧ (descCls d = 0 ∨ 2 ≤ descDest d / 2 ^ 28) then 3
  else if op = 1 ∧ (len < 14 ∨ 9216 < len ∨ (descCls d = 0 ∧ 2048 < len)) then 1
  else if op = 2 ∧ (len = 0 ∨ 9216 < len) then 1
  else if op = 1 ∧ !s.portInService (descPort d) then 2
  else 0

/-- Step 5: SQHEAD advances, and a completion is written where CMPL is 1 or STATUS is not 0. (log 63, DEDUCED) -/
def State.descDone (s : State) (q : Nat) (d : List Byte) (status : Nat) : State :=
  let o := hqOff q
  let s := s.modHq q (fun x => { x with desc := none, failed := false, reading := none, got := none })
  let s := s.put Fld.HQ_SQPOS_HEAD ((s.get Fld.HQ_SQPOS_HEAD o + 1) % s.sqSize q) o
  let s :=
    if status ≠ 0 ∨ (byteAt d 1).getLsbD 0 then
      let r := s.cqAllot q 1
      r.2.complete q r.1 { ty := 4, status := status, op := descOp d, cid := descCid d } []
    else s
  s.stopDone q

/-- A transfer of the queue in progress goes on: its function may move data, or the queue stops and finishes it. -/
def State.hqActs (s : State) (q : Nat) : Bool := s.linkUsable && (s.hqMoves q || s.link.stopping.contains q)

/-- The completion of a descriptor, where one is to be written, finds an entry (R338 step 5). -/
def State.descRoom (s : State) (q : Nat) (d : List Byte) (status : Nat) : Bool :=
  (status == 0 && !(byteAt d 1).getLsbD 0) || decide (1 ≤ s.cqRoom q)

/-- Tags that a read of `n` bytes at an address takes: one for each request, at most 64 at a time for one queue (R347). (log 114, DEDUCED) -/
def State.tagsFor (s : State) (q a n : Nat) : Nat := min 64 (s.readCuts (q / 2048) a n).length

/-- The engines hold tags for a read: of the 512 reserved for them, and of those that the function's tag width allows (R347;
05 R185). -/
def State.tagsFree (s : State) (q n : Nat) : Bool :=
  decide (s.engineTags + n ≤ 512) && decide (s.tagsOf (q / 2048) + n ≤ s.tagLimit (q / 2048))

/-- The engine sends a read for a queue, with the queue's function as requester. -/
def State.engineRead (s : State) (q a n : Nat) : State :=
  (s.modHq q (fun x => { x with reading := some (s.now, s.tagsFor q a n) })).sendRead (q / 2048) a n

/-- A read of `n` bytes as it ended: a completion of another length is a failed read. -/
def ended (n : Nat) (failed : Bool) (read : Option (List Byte)) : Option (List Byte) :=
  if failed then none else read.bind (fun bs => if bs.length = n then some bs else none)

/-- The engine can take a queue's next descriptor: in hardware mode, with one in the SQ and a tag for its read. -/
def State.sqReady (s : State) (q : Nat) : Bool :=
  let o := hqOff q
  s.hqRun q && s.hqMoves q && !s.on Fld.HQ_CFG_SWQ o && s.cfg Fld.HQ_CFG_SQSZ o != 0 &&
    decide (s.get Fld.HQ_SQPOS_HEAD o ≠ s.get Fld.HQ_SQPOS_TAIL o) && s.tagsFree q 1

/-- A queue that stops takes no further descriptor: one whose read is still outstanding is let go (R344). -/
def State.letGo (s : State) (q : Nat) : State :=
  (s.modHq q (fun x => { x with reading := none, failed := false })).stopDone q

/-- SQ_DESCRIPTOR: the engine sends the read of the queue's next descriptor; given again, it takes what the read brought and checks
it. One whose check passes is held for its own command, one whose check fails until its completion can be written. A read that
fails gives STATUS 4. (log 62, DEDUCED; log 64, DESIGN CHOICE) -/
def execSqDescriptor (q : QueueId) (read : Option (List Byte)) (s : State) : Host.Outcome State Fault Refusal :=
  let n := q.toNat
  let x := s.hq n
  if s.promptWaits then .next s
  else
    match x.desc with
    | some (d, st) => if st ≠ 0 ∧ s.hqActs n ∧ s.descRoom n d st then device (s.descDone n d st) else .next s
    | none =>
      if x.reading.isSome || x.failed then
        if s.link.stopping.contains n then device (s.letGo n)
        else if !s.hqActs n then .next s
        else match ended 64 x.failed read with
          | none =>
            if s.descRoom n [] 4 then device ((s.put Fld.HQ_STS_DMAERR 1 (hqOff n)).descDone n [] 4)
            else .next (s.modHq n (fun y => { y with reading := none, failed := true }))
          | some d =>
            let st := s.descCheck d
            if st ≠ 0 ∧ s.descRoom n d st then device (s.descDone n d st)
            else device (s.modHq n (fun y => { y with desc := some (d, st), reading := none }))
      else if s.sqReady n then
        device (s.engineRead n (s.sqEntryAddr n (s.get Fld.HQ_SQPOS_HEAD (hqOff n))) 64)
      else .next s

/-- The descriptor of the queue that awaits the command of operation `op`. -/
def State.descOf (s : State) (q op : Nat) : Option (List Byte) :=
  match (s.hq q).desc with
  | some (d, st) => if st = 0 ∧ descOp d = op ∧ s.hqActs q ∧ !s.promptWaits then some d else none
  | none => none

/-- The read of a descriptor's data failed (R338 step 3): the cells allotted to it return to free space. (log 63, DEDUCED) -/
def State.descFail (s : State) (q : Nat) (d : List Byte) : State :=
  let s := match (s.hq q).got with
    | some g => s.freeFrame (256 * g.cell)
    | none => s
  (s.put Fld.HQ_STS_DMAERR 1 (hqOff q)).descDone q d 4

/-- An engine's read ends as failed by itself: its completion is written where it can be, else once it can. (log 63, DEDUCED) -/
def State.engineFail (s : State) (q : Nat) : State :=
  let x := s.hq q
  let d := (x.desc.map (·.1)).getD []
  if x.desc.isNone && s.link.stopping.contains q then s.letGo q
  else if s.hqActs q && s.descRoom q d 4 then s.descFail q d
  else s.modHq q (fun y => { y with reading := none, failed := true })

/-- Steps 2 and 3 of a descriptor: with the cells, and what else it needs, the data is read. -/
def State.descStart (s : State) (q : Nat) (d : List Byte) (g : Allotted) : State :=
  ((s.allotCells (descCls d) g.cell (descLen d)).modHq q (fun x => { x with got := some g })).engineRead q (descAddr d) (descLen d)

/-- Step 3 ends: what the data became, or a failed read. Its completion, where one is to be written, waits for an entry; the
data's write to the frame buffer waits while that is frozen (05 R182). (log 63, DEDUCED) -/
def State.descEnd (s : State) (q : Nat) (d : List Byte) (read : Option (List Byte)) (status : Nat)
    (act : State → List Byte → State) : Host.Outcome State Fault Refusal :=
  match ended (descLen d) (s.hq q).failed read with
  | none =>
    if s.descRoom q d 4 then device (s.descFail q d)
    else .next (s.modHq q (fun y => { y with reading := none, failed := true }))
  | some bs =>
    if s.targetFrozen 9 false || !s.descRoom q d status then .next s else device ((act s bs).descDone q d status)

/-- TX: waits for cells and for a place in the egress queue, reads the host's data, and queues it as an egress frame. -/
def execTx (q : QueueId) (cell : Nat) (read : Option (List Byte)) (s : State) : Host.Outcome State Fault Refusal :=
  let n := q.toNat
  match s.descOf n 1 with
  | none => .next s
  | some d =>
    let c := descCls d
    let p := descPort d
    match (s.hq n).got with
    | none =>
      (match s.findCells cell (cellsOf (descLen d)) with
      | none => .next s
      | some at_ =>
        if s.fits c (cellsOf (descLen d)) && decide (s.egressUsed p c < egressSize) &&
            s.tagsFree n (s.tagsFor n (descAddr d) (descLen d)) then
          device (s.descStart n d { cell := at_, tx := some (p, c) })
        else .next s)
    | some g => s.descEnd n d read 0 (fun s bs =>
      let s := s.store none (frameBase + 256 * g.cell) bs
      let s := s.modHq n (fun x => { x with got := none })
      let s := s.enqueueTx p c { addr := frameBase + 256 * g.cell, len := bs.length, src := .queue n, at_ := s.now }
      s.freeFrame (256 * g.cell))

/-- The header of a message that a host queue places (R338 step 4). -/
def State.msgHeader (s : State) (d : List Byte) (cell : Nat) : Header :=
  let ses := leNat (slice d 20 4)
  { fboff := BitVec.ofNat 32 (256 * cell), len := BitVec.ofNat 16 (descLen d), cls := BitVec.ofNat 2 (descCls d),
    noSess := ses == 0xFFFFFFFF, session := BitVec.ofNat 32 ses, rxts := s.tb.now, node := 0xFE }

/-- MSG: waits for cells, and for class 1 a place of the held store, reads the host's data, and places it as a message. A header that
a full mailbox drops gives STATUS 6. -/
def execMsg (q : QueueId) (cell : Nat) (read : Option (List Byte)) (s : State) : Host.Outcome State Fault Refusal :=
  let n := q.toNat
  match s.descOf n 2 with
  | none => .next s
  | some d =>
    let c := descCls d
    match (s.hq n).got with
    | none =>
      (match s.findCells cell (cellsOf (descLen d)) with
      | none => .next s
      | some at_ =>
        if s.fits c (cellsOf (descLen d)) && s.placeOk c (s.resolveDest c 3 (descDest d)) &&
            s.tagsFree n (s.tagsFor n (descAddr d) (descLen d)) then
          device (s.descStart n d { cell := at_, place := c == 1 })
        else .next s)
    | some g =>
      let code := s.resolveDest c 3 (descDest d)
      let h := s.msgHeader d g.cell
      s.descEnd n d read (if s.destDrops code h then 6 else 0) (fun s bs =>
        ((s.store none (frameBase + 256 * g.cell) bs).modHq n (fun x => { x with got := none })).deliver 3 code h)

/-- SQ_NOP: the descriptor does nothing but complete. -/
def execSqNop (q : QueueId) (s : State) : Host.Outcome State Fault Refusal :=
  let n := q.toNat
  match s.descOf n 0 with
  | some d => if s.descRoom n d 0 then device (s.descDone n d 0) else .next s
  | none => .next s

/-! ### RX completions (R334, R335) -/

/-- The frame that the engine takes next: a Prompt frame before all others. -/
def nextRx (rx : List RxWait) : Option RxWait :=
  match rx.find? (fun x => x.hdr.cls == 0) with
  | some x => some x
  | none => rx.head?

/-- A Prompt frame of a queue has been sent: the posts that it kept back stand behind one less. -/
def State.promptSent (s : State) (q : Nat) : State :=
  s.modHq q (fun x => { x with staged := x.staged.map (fun p => { p with behind := p.behind - 1 }) })

/-- RX_COMPLETION: the engine writes the next waiting frame to the host, a Prompt frame before all other work (R345); its cells
return to free space. While the frame buffer's target is frozen its read waits (05 R182). -/
def execRxCompletion (q : QueueId) (s : State) : Host.Outcome State Fault Refusal :=
  let n := q.toNat
  if !s.hqMoves n || s.targetFrozen 9 false then .next s
  else
    match nextRx (s.hq n).rx with
    | none => .next s
    | some x =>
      if x.slot.isNone && s.promptWaits then .next s
      else
      let len := x.hdr.len.toNat
      let off := x.hdr.fboff.toNat
      let rest := s.modHq n (fun h => { h with rx := h.rx.erase x })
      let send (slot : Nat × Bool) (s : State) : State :=
        let bad := s.badRead (frameBase + off) len
        let d := s.hostBytes (frameBase + off) len
        (d.2.complete n slot { ty := 1, status := if bad then 5 else 0, info := Header.bytes { x.hdr with fboff := 0 } }
          d.1).freeFrame off
      match x.slot with
      | some slot => device ((send slot (rest.flushQueue n)).promptSent n).flushStaged
      | none =>
        if s.nslot n len ≤ s.cqRoom n then
          let r := rest.cqAllot n (s.nslot n len)
          device (send r.1 r.2)
        else if x.hdr.cls = 1 then .next s
        else device (((rest.bump Fld.HQ_STS_DROP 1 (hqOff n)).unmeasure off).freeFrame off)

/-! ### MSI-X (09 R314, R315) -/

/-- MSIX_HOLD_OFF: the hold-off has passed since the first held event. -/
def execMsixHoldOff (q : QueueId) (s : State) : Host.Outcome State Fault Refusal :=
  let n := q.toNat
  let v := s.vec n
  let hold := s.cfg Fld.HQ_MOD_HOLD (hqOff n)
  match v.heldAt with
  | some t =>
    if hold ≠ 0 ∧ t + 64 * hold ≤ s.now then device ((s.setVec n { v with cnt := 0, heldAt := none }).msixSend n)
    else .next s
  | none => .next s

/-- Send the pending message of a vector that may send now. -/
def State.msixRetry (s : State) (q : Nat) : State := if (s.vec q).pend then s.msixSend q else s

/-- MSIX_UNMASK: the vector's mask bit is cleared, and its pending message is sent where it may be. -/
def execMsixUnmask (q : QueueId) (s : State) : Host.Outcome State Fault Refusal :=
  let n := q.toNat
  device ((s.modVec n (fun v => { v with ctrl := v.ctrl &&& 0xFFFFFFFE#32 })).msixRetry n)

/-- The vectors of a function that pend. -/
def State.pendingVecs (s : State) (f : Nat) : List Nat :=
  (s.vecs.filter (fun kv => decide (kv.1 / 2048 = f) && kv.2.pend)).map (·.1)

/-! ### Function Level Reset (R344) -/

/-- The queues of a function that the state lists, or whose registers it lists. -/
def State.queuesOf (s : State) (f : Nat) : List Nat :=
  ((s.hqs.map (·.1)) ++ (s.regs.filter (fun kv => decide (Reg.HQ_BASE ≤ kv.1) && decide (kv.1 < Reg.HQ_BASE + 0x80000))).map
    (fun kv => (kv.1 - Reg.HQ_BASE) / 32)).dedup.filter (fun q => q / 2048 == f)

/-- Every queue of the function stops, its MSI-X table is cleared, and its configuration state returns to reset. -/
def State.resetFunction (s : State) (n : Nat) : State :=
  let s := (s.queuesOf n).foldl (fun s q => s.stopQueue q true) s
  { s with vecs := s.vecs.filter (fun kv => kv.1 / 2048 != n) }.setFunc n {}

/-- FUNCTION_LEVEL_RESET. (log 67, PRESUMED) -/
def execFunctionLevelReset (f : FnId) (s : State) : Host.Outcome State Fault Refusal :=
  device (s.resetFunction f.toNat)

end Sys2Proof.Machine
end

