-- ==== Sys2Proof/Machine/Link.lean ====
section
/-! DEFINITION. The states of the host link (10_host_link_and_queues.md R320 to R322, R336; 13 R413). -/

namespace Sys2Proof.Machine

/-- GL_LINK_STS.STATE. -/
def State.linkState (s : State) : Nat := s.get Fld.GL_LINK_STS_STATE

/-- The engine drops each Prompt frame whose first entry has not been sent (R336). (log 66, DEDUCED) -/
def State.dropQueuedPrompt (s : State) : State :=
  (s.hqs.map (·.1)).foldl (fun s q =>
    let gone := (s.hq q).rx.filter (fun x => x.slot.isSome)
    let s := s.modHq q (fun x => { x with
      rx := x.rx.filter (fun y => y.slot.isNone), staged := x.staged.map (fun p => { p with behind := 0 }) })
    gone.foldl (fun s x => (s.dropHeader x.hdr Fld.PO_DROP_P_COUNT).condEvent 0) s) s

/-- Messages that waited for the link are sent (09 R314). (log 70, DEDUCED) -/
def State.sendHeldMsix (s : State) : State :=
  ((s.vecs.filter (fun kv => kv.2.pend)).map (·.1)).foldl State.msixRetry s

/-- What waited for the link to leave L1 is sent, in order, once it is Active; another state ends it (10 R322). -/
def State.endHeld (s : State) (active : Bool) : State :=
  let out := if active then s.link.held.map (·.what) else []
  ({ s with emitted := s.emitted ++ out }).modLink (fun l => { l with held := [], exitAt := none })

/-- The link changes to another state: source 26 is asserted; what a state out of use ends, ends. -/
def State.linkTo (s : State) (st : Nat) : State :=
  if s.linkState = st then s
  else
    let was := s.linkUsable
    let s := (s.put Fld.GL_LINK_STS_STATE st).modLink (fun l => { l with since := s.now })
    let s := (s.edgeIn 26).endHeld (st == 2)
    let s := if was && !s.linkUsable then s.dropQueuedPrompt else s
    if !was && s.linkUsable then s.sendHeldMsix.flushStaged else s

/-- No request is outstanding in either direction (R321). -/
def State.linkIdle (s : State) : Bool :=
  s.threads.all (fun kv => kv.2.hostRd.isNone && kv.2.far.isNone) && s.link.bars.isEmpty &&
    s.hqs.all (fun kv => kv.2.desc.isNone && kv.2.reading.isNone && kv.2.staged.isEmpty)

/-- L1 (R321). (log 127, DEDUCED) -/
def execL1 (s : State) : Host.Outcome State Fault Refusal :=
  if s.linkState = 2 ∧ s.dstate = 4 ∧ s.flag Fld.GL_LINK_CTL_L1EN ∧ !s.flag Fld.GL_LINK_STS_L1BLK ∧ s.linkIdle then
    device (s.linkTo 4)
  else .next s

/-- L1_EXIT (R320): traffic from either end; the requests made meanwhile are sent (R322). (log 127, DEDUCED) -/
def execL1Exit (s : State) : Host.Outcome State Fault Refusal :=
  if s.linkState = 4 then device (s.linkTo 2) else .next s

/-- LINKERROR (R320): training is tried again 10 ms after LinkError was entered. -/
def execLinkError (s : State) : Host.Outcome State Fault Refusal :=
  if s.linkState = 6 ∧ s.link.since + 10000000 ≤ s.now then
    device ((s.modLink (fun l => { l with attempts := 0 })).linkTo 1)
  else .next s

/-- LINK_HOT_RESET (13 R413): every function as under a Function Level Reset; the link trains again. Requests of the partner die that
wait are gone. -/
def execLinkHotReset (s : State) : Host.Outcome State Fault Refusal :=
  if !s.dieOn then .next s
  else device (((foldN s (List.range 8) State.resetFunction).modLink (fun l => { l with attempts := 0, bars := [] })).linkTo 0)

/-- GL_LINK_CTL.RETRAIN is written 1, or errors ask for it: the link goes from Active to Retrain. (log 69, DEDUCED) -/
def State.startRetrain (s : State) : State :=
  if s.linkState = 2 then
    (((s.bump Fld.GL_LINK_RETRAIN_COUNT).modLink (fun l => { l with attempts := 0 })).linkTo 3)
  else s

end Sys2Proof.Machine
end

