-- ==== Sys2Proof/Machine/Timebase.lean ====
section
/-! DEFINITION. The Timebase and the crystal (11_tally_and_timebase.md R372 to R382; 12 R398). -/

namespace Sys2Proof.Machine

/-! ### Status and records -/

/-- TB_STS changes: Crier source 21 is asserted at each change (09 R294). (log 76, DEDUCED) -/
def State.tbStatus (s : State) (f : Word32 → Word32) : State :=
  let w := s.reg Reg.TB_STS
  if f w = w then s else (s.setReg Reg.TB_STS (f w)).edgeIn 21

/-- A Timebase event record (R370, type 0x14). -/
def State.tbRecord (s : State) (kind : Nat) (v : Word) : State :=
  s.record 0x14 1 (leBytes 8 kind ++ leBytes 8 v.toNat)

/-- Discipline is established (R376, R380, R382). -/
def State.discipline (s : State) : State :=
  if s.flag Fld.TB_STS_LOCKED then s
  else
    let s := s.modTb (fun x => { x with xmarks := [], disciplined := true })
    let s := (s.put Fld.TB_UNC_NS 0).put Fld.TB_XMEAS_PER 0
    (s.tbStatus (fun w => bitsSet (bitsSet (bitsSet w 2 1 1) 3 1 0) 4 1 0)).tbRecord 4 0

/-- Discipline is lost; three more good edges establish it again. -/
def State.undiscipline (s : State) : State :=
  if s.flag Fld.TB_STS_LOCKED then
    let s := (s.modTb (fun x => { x with xmarks := [], ppsGood := 0 })).put Fld.TB_XMEAS_PER 0
    (s.tbStatus (fun w => bitsSet w 2 1 0)).tbRecord 5 0
  else s

/-! ### Steps, sets and slews (R374) -/

/-- The PLL is locked: the counter has ticks. -/
def State.tbTicks (s : State) : Bool := s.flag Fld.TB_STS_PLLLOCK

/-- The counter jumps by a signed value: so does the time that a Metered run reads at its beat boundaries (08 R269). -/
def State.tbJump (s : State) (v : Word) : State :=
  let f (kv : Nat × Core) : Nat × Core := (kv.1, { kv.2 with runT0 := kv.2.runT0 + v })
  ({ s with cores := s.cores.map f }).modTb
    (fun x => { x with now := x.now + v })

/-- Add a signed value to the counter. -/
def State.tbStepNow (s : State) (v : Word) : State := (s.tbJump v).tbRecord 1 v

/-- Replace the integer nanoseconds and zero the fraction. -/
def State.tbSetNow (s : State) (v : Word) : State :=
  let s := ((s.tbJump (v - s.tb.now)).modTb (fun x => { x with frac := 0 })).tbRecord 2 v
  s.tbStatus (fun w => bitsSet w 4 1 0)

/-- A step (false) or a set (true) acts at one tick. -/
def State.tbAct (s : State) (act : Bool × Word) : State := if act.1 then s.tbSetNow act.2 else s.tbStepNow act.2

/-- A step or a set is written: it acts, or is held until the PLL locks and, at a wake, the Timebase is set, in place of an
earlier one of its pair. -/
def State.tbWrite (s : State) (set : Bool) (v : Word) : State :=
  if s.tbTicks && s.tb.onEdge != .set then s.tbAct (set, v)
  else s.modTb (fun x => { x with heldAct := x.heldAct.filter (fun a => a.1 != set) ++ [(set, v)] })

/-- TB_SLEW is set to an offset in ns. -/
def State.tbSlew (s : State) (v : Word32) : State :=
  let s := (s.setReg Reg.TB_SLEW v).modTb (fun x => { x with slewAcc := 0 })
  s.tbStatus (fun w => bitsSet w 5 1 (b2n (v ≠ 0)))

/-- SLEW_COMPLETE (R374): no offset is left. -/
def execSlewComplete (s : State) : Host.Outcome State Fault Refusal :=
  if s.reg Reg.TB_SLEW = 0 then device (s.tbStatus (fun w => bitsSet w 5 1 0)) else .next s

/-- A write of TB_DISC (R376). (log 76, DEDUCED) -/
def State.tbDisc (s : State) (v : Word32) : State :=
  if v.getLsbD 1 then s.undiscipline else if v.getLsbD 0 then s.discipline else s

/-- A write of TB_CTL that sets MODE to 1: the next edge is the first (R375). -/
def State.tbMode (s : State) (old : Word32) : State :=
  if !old.getLsbD 0 && s.flag Fld.TB_CTL_MODE then
    s.modTb (fun x => { x with ppsFirst := true, ppsRej := 0, ppsGood := 0 })
  else s

/-! ### PLL and reference (R372, R374, R379) -/

/-- At a wake the Timebase is set to the value saved at Dark entry plus the time that the crystal credits (R379). (log 74, DEDUCED) -/
def State.tbCoast (s : State) (c : Coast) : State :=
  let per := s.get Fld.TB_XPER_PER
  let ticks := (s.tb.xtal - c.count).toNat
  let credit := ticks * per
  let total := c.value.toNat * 2 ^ 32 + c.frac.toNat + credit * 2 ^ 16
  let unc := (credit * s.get Fld.TB_XUNC_PPB + (65536 * 1000000000 - 1)) / (65536 * 1000000000) + 50 + c.slew
  let s := s.modTb (fun x => { x with
    now := BitVec.ofNat 64 (total / 2 ^ 32), frac := BitVec.ofNat 32 total, coast := none })
  let s := if s.tb.disciplined then s.put Fld.TB_UNC_NS (min 0xFFFFFFFF unc) else s
  let s := (s.setReg Reg.TB_DARK_LO (BitVec.ofNat 32 (credit / 65536))).setReg Reg.TB_DARK_HI
    (BitVec.ofNat 32 (credit / 65536 / 2 ^ 32))
  ((s.undiscipline).tbStatus (fun w => bitsSet w 3 1 1)).tbRecord 3 (BitVec.ofNat 64 (credit / 65536))

/-- Held steps and sets act, in the order in which they were written (R374). -/
def State.tbHeld (s : State) : State := s.tb.heldAct.foldl State.tbAct (s.modTb (fun x => { x with heldAct := [] }))

/-- The PLL locks, and a beat series begins (04 R146). At a wake the Timebase is set at the next crystal edge (R379); else held
steps and sets act. (log 73, DEDUCED; log 74, DEDUCED) -/
def State.tbLock (s : State) : State :=
  if s.tbTicks then s
  else
    let s := (s.tbStatus (fun w => bitsSet w 0 2 3)).newSeries (s.now * 1000)
    if s.tb.coast.isSome then s.modTb (fun x => { x with onEdge := .set }) else s.tbHeld

/-- The Timebase is to be saved at the next crystal edge, and its PLL then stops; where it has saved values that no wake has
used, they stand and the PLL stops at once (R378). (log 73, DEDUCED) -/
def State.tbSave (s : State) : State :=
  if s.tb.coast.isSome then (s.modTb (fun x => { x with onEdge := .nothing })).put Fld.TB_STS_PLLLOCK 0
  else s.modTb (fun x => { x with onEdge := .save })

/-- What a rising edge of the crystal does. At a wake the rails are switched on and the link's exit from L2 begins with the
setting of the Timebase (R378, R379; 12 R399 step 5). -/
def State.tbEdge (s : State) : State :=
  match s.tb.onEdge with
  | .nothing => s
  | .save =>
    (s.modTb (fun x => { x with
      onEdge := .nothing, coast := some ⟨x.now, x.frac, x.xtal, (s.reg Reg.TB_SLEW).toInt.natAbs⟩ })).put Fld.TB_STS_PLLLOCK 0
  | .set =>
    let s := match s.tb.coast with
      | some c => s.tbCoast c
      | none => s
    ((s.modTb (fun x => { x with onEdge := .nothing })).tbHeld.linkTo 1).railsOn

/-- REFERENCE_LOST (R372): the reference is lost or regained; the PLL holds its last frequency meanwhile. -/
def execReferenceLost (lost : Bool) (s : State) : Host.Outcome State Fault Refusal :=
  if lost = s.flag Fld.TB_STS_REFOK then
    device ((s.tbStatus (fun w => bitsSet w 1 1 (b2n (!lost)))).tbRecord (if lost then 7 else 8) 0)
  else .next s

/-! ### PPS (R375, R377) -/

/-- A capture less the nearest whole multiple of 10^9 ns, in (-5 × 10^8, 5 × 10^8]. -/
def ppsError (cap : Word) : Int :=
  let r := cap.toNat % 1000000000
  if r ≤ 500000000 then r else (r : Int) - 1000000000

/-- round(-e × 2^32 / (4 × 10^9)); no e gives an exact half. (log 76, DEDUCED) -/
def ppsRate (e : Int) : Int := (-e * 2 ^ 32 * 2 + 4000000000) / 8000000000

/-- A number kept in the range of 32-bit two's complement. (log 76, DEDUCED) -/
def clamp32 (v : Int) : Int := max (-2147483648) (min 2147483647 v)

/-- An accepted edge (R375). (log 75, DEDUCED) -/
def State.ppsAccept (s : State) (cap : Word) : State :=
  let e := ppsError cap
  let s := (s.setReg Reg.TB_PPSCAP_LO (cap.setWidth 32)).setReg Reg.TB_PPSCAP_HI ((cap >>> 32).setWidth 32)
  let s := s.setReg Reg.TB_PPSERR (BitVec.ofInt 32 e)
  let s := if s.get Fld.TB_PPSCFG_STEPLIM * 1000 < e.natAbs then s.tbWrite false (BitVec.ofInt 64 (-e))
    else s.tbSlew (BitVec.ofInt 32 (-e))
  let s := s.setReg Reg.TB_RATE (BitVec.ofInt 32 (clamp32 ((s.reg Reg.TB_RATE).toInt + ppsRate e)))
  let good := if e.natAbs ≤ 4 * s.get Fld.TB_PPSCFG_LOCK then s.tb.ppsGood + 1 else 0
  let s := s.modTb (fun x => { x with
    ppsAt := some x.elapsed, ppsCap := cap, ppsRej := 0, ppsGood := good, ppsFirst := false })
  let s := (s.edgeIn 22).tbStatus (fun w => bitsSet w 6 1 1)
  if 3 ≤ good then s.discipline else s

/-- A rejected edge: after three in a row the next is accepted as a first; the run of good edges ends. -/
def State.ppsReject (s : State) (cap : Word) : State :=
  let s := s.modTb (fun x => { x with
    ppsRej := x.ppsRej + 1, ppsGood := 0, ppsFirst := decide (3 ≤ x.ppsRej + 1) })
  (s.bump Fld.TB_CNT_PPSREJ_COUNT).tbRecord 6 (BitVec.ofInt 64 (ppsError cap))

/-- PPS_EDGE (R375): with MODE 0 the selected edge is only captured. -/
def execPpsEdge (rising : Bool) (s : State) : Host.Outcome State Fault Refusal :=
  let cap := s.tb.now
  if !s.dieOn || rising == s.flag Fld.TB_CTL_PPSPOL then .next s
  else if !s.flag Fld.TB_CTL_MODE then
    device (((s.setReg Reg.TB_PPSCAP_LO (cap.setWidth 32)).setReg Reg.TB_PPSCAP_HI ((cap >>> 32).setWidth 32)).edgeIn 22)
  else
    let win := 1000 * s.get Fld.TB_PPSCFG_WIN
    let fits := match s.tb.ppsAt with
      | some t => decide (t + 1000000000 ≤ s.now + win) && decide (s.now ≤ t + 1000000000 + win)
      | none => false
    device (if s.tb.ppsFirst || fits then s.ppsAccept cap else s.ppsReject cap)

/-- No edge has been accepted for `ns`. -/
def State.ppsSilent (s : State) (ns : Nat) : Bool :=
  match s.tb.ppsAt with
  | some t => decide (t + ns ≤ s.now)
  | none => true

/-- PPS_LOSS (R375): with MODE 1, LOCKED falls when no edge has been accepted for 3.5 s. -/
def execPpsLoss (s : State) : Host.Outcome State Fault Refusal :=
  if s.flag Fld.TB_CTL_MODE && s.ppsSilent 3500000000 then device s.undiscipline else .next s

/-- PPSOK_EXPIRY (R375). -/
def execPpsokExpiry (s : State) : Host.Outcome State Fault Refusal :=
  if s.ppsSilent 1500000000 then device (s.tbStatus (fun w => bitsSet w 6 1 0)) else .next s

/-! ### A nanosecond (R372, R374, R381; 12 R398) -/

/-- The rate correction in effect. -/
def State.tbRate (s : State) : Int := max (-2147484) (min 2147484 (s.reg Reg.TB_RATE).toInt)

/-- What the slew adds at this tick, in 2^-32 ns: 2^32 over 10,000 ticks. -/
def State.slewInc (s : State) : Int :=
  let k := s.tb.slewAcc
  let inc : Int := (2 ^ 32 * (k + 1) / 10000 - 2 ^ 32 * k / 10000 : Nat)
  let v := (s.reg Reg.TB_SLEW).toInt
  if v = 0 then 0 else if 0 < v then inc else -inc

/-- The remaining offset after this tick. -/
def State.slewTick (s : State) : State :=
  let v := s.reg Reg.TB_SLEW
  if v = 0 then s
  else if s.tb.slewAcc + 1 < 10000 then s.modTb (fun x => { x with slewAcc := x.slewAcc + 1 })
  else (s.setReg Reg.TB_SLEW (if v.toInt < 0 then v + 1 else v - 1)).modTb (fun x => { x with slewAcc := 0 })

/-- One tick of the Timebase PLL. (log 72, DEDUCED) -/
def State.tbTick (s : State) : State :=
  let total := (s.tb.frac.toNat + (2 ^ 32 + s.tbRate + s.slewInc)).toNat
  let n := total / 2 ^ 32
  (s.modTb (fun x => { x with
    now := x.now + BitVec.ofNat 64 n, elapsed := x.elapsed + n, frac := BitVec.ofNat 32 total })).slewTick

/-- A crystal tick under LOCKED: TB_XMEAS follows the last 32,768 ticks (R381). (log 75, DEDUCED) -/
def State.xtalMeasure (s : State) : State :=
  if !s.flag Fld.TB_STS_LOCKED then s
  else
    let t := s.tb.elapsed * 2 ^ 32 + s.tb.frac.toNat
    let s := match s.tb.xmarks[32767]? with
      | some t0 => s.put Fld.TB_XMEAS_PER ((t - t0) / 32768 / 2 ^ 16)
      | none => s
    s.modTb (fun x => { x with xmarks := (t :: x.xmarks).take 32768 })

/-- The crystal gains 32,768 parts of 10^9 of a tick in each nanosecond. (log 5, DESIGN CHOICE; log 77, DESIGN CHOICE) -/
def State.xtalTick (s : State) : State :=
  let a := s.tb.xtalAcc + 32768
  if a < 1000000000 then s.modTb (fun x => { x with xtalAcc := a })
  else (s.modTb (fun x => { x with xtalAcc := a - 1000000000, xtal := x.xtal + 1 })).xtalMeasure.tbEdge

/-- A nanosecond passes with no command waiting: the crystal goes on; the Timebase goes on while its PLL is locked. (log 5, DESIGN CHOICE; log 72, DEDUCED; log 124, DESIGN CHOICE) -/
def State.tick (s : State) : State :=
  let s := s.noteQuiet.noteBusy.xtalTick
  if s.tbTicks then s.tbTick else s.modTb (fun x => { x with elapsed := x.elapsed + 1 })

end Sys2Proof.Machine
end

