-- ==== Sys2Proof/Machine/Reset.lean ====
section
/-! DEFINITION. What each reset keeps, and what the die holds after it (12_power_clocks_lamplighter.md R395, R396, R401,
R403; 13_boot_attar_ledger.md R413 to R415, R420). -/

namespace Sys2Proof.Machine

/-- Registers that Tywetin fuses (10; 13): no reset changes them. (log 1, DESIGN CHOICE) -/
def isFused (a : Nat) : Bool :=
  a == Reg.GL_SEC || a == Reg.GL_PCIID || a == Reg.GL_PCISS || a == Reg.AT_ID ||
    (decide (Reg.AT_PKH ≤ a) && decide (a < Reg.AT_PKH + 48))

/-- Registers that survive Dark and WARMRST_N (12 R396); a substitution stays in effect until PORST_N (07 R252). (log 144, DEDUCED) -/
def isKept (a : Nat) : Bool :=
  (decide (Reg.LL_STS ≤ a) && decide (a < 0x71000) && a != Reg.LL_PMCMD && a != Reg.LL_PMDATA) ||
  (decide (Reg.CR_WAKE ≤ a) && decide (a < Reg.CR_WAKE + 256)) ||
  a == Reg.TB_RATE || a == Reg.TB_XPER || a == Reg.TB_XUNC ||
  (decide (Reg.AS_RETCORE ≤ a) && decide (a < Reg.AS_RETCORE + 64)) ||
  (decide (Reg.AS_RETCL ≤ a) && decide (a < Reg.AS_RETCL + 8)) || a == Reg.AS_RETRG || a == Reg.AS_PORTOOS ||
  (decide (Reg.PS_SUB ≤ a) && decide (a < Reg.PS_SUB + 64))

/-- What a warm reset keeps: the Timebase's registers as well (11 R382). -/
def isKeptWarm (a : Nat) : Bool := isKept a || (decide (Reg.TB_CTL ≤ a) && decide (a < 0x50000))

/-- What the straps set: PO_DEVNUM.DIE and LL_PMSTS.NOMST (12 R403, R410). (log 2, DESIGN CHOICE) -/
def State.applyStraps (s : State) : State :=
  (s.put Fld.PO_DEVNUM_DIE (s.get Fld.LL_STRAP_DIE)).put Fld.LL_PMSTS_NOMST (1 - s.get Fld.LL_STRAP_PMMST)

/-- Retired regions keep the Retired state (01 R19; 12 R386). -/
def State.applyRetired (s : State) : State :=
  foldN s (List.range 8) (fun s r => if s.regionRetired r then s.put Fld.RG_PSTS_STATE 6 (rgOff r) else s)

/-- Every block at its reset values, but for the registers that `keep` names, fused ones, and what is passed. (log 90, DEDUCED) -/
def State.fresh (s : State) (keep : Nat → Bool) (tb : Timebase) (p : Power) (a : Assay) : State :=
  let f (t : Tbl Word32) : Tbl Word32 := t.filter (fun kv => keep kv.1 || isFused kv.1)
  let z : State := {
    pending := s.pending, regs := f s.regs, eff := f s.eff, hold := f s.hold, snap := f s.snap, tb := tb, power := p,
    assay := a, fuses := s.fuses, pins := s.pins, emitted := s.emitted, freeCtr := s.freeCtr }
  ((((z.put Fld.AT_ID_PATCHREV 0).put Fld.LL_PMSTS_BUSY 0).put Fld.LL_PMSTS_ALERT (b2n z.pins.pmalertLow)).applyStraps).applyRetired

/-- What the Lamplighter keeps beside its registers through Dark and a warm reset. -/
def State.keptPower (s : State) : Power :=
  { supplyOk := s.power.supplyOk, faults := s.power.faults, resetLow := s.power.resetLow, dynAddr := s.power.dynAddr,
    ibiOn := s.power.ibiOn, sideOff := s.power.sideOff, alarmed := s.power.alarmed, upAt := s.now }

/-- Retired memory rows and the spares that serve them. -/
def State.keptAssay (s : State) : Assay := { spares := s.assay.spares, withdrawn := s.assay.withdrawn }

/-- The state that a power-on reset leaves; `low` names what still holds the die in reset. (log 91, DEDUCED) -/
def State.powerOn (s : State) (low : List Nat) : State :=
  s.fresh (fun a => a == Reg.LL_RST_CAUSE) { elapsed := s.tb.elapsed }
    { supplyOk := s.power.supplyOk, resetLow := low, upAt := s.now } {}

/-- The state that a warm reset leaves. A device that was Banked leaves that state: the rails' VLIT is written (12 R410), and
goes on through the release of WARMRST_N. (log 91, DEDUCED) -/
def State.warm (s : State) (low : List Nat) : State :=
  let held := s.power.resetLow.contains 1
  let p := { s.keptPower with
    resetLow := low, faults := [], rails := if held then s.power.rails else [], pmCur := if held then s.power.pmCur else none,
    tries := if held then s.power.tries else 0 }
  let tb := { s.tb with onEdge := .nothing }
  let z := (((s.fresh isKeptWarm tb p s.keptAssay).put Fld.LL_STS_DSTATE 3).put Fld.LL_STS_VIOSW 1).put Fld.LL_STS_LDOLP 0
  if s.dstate = 4 then z.railVolts false else z.pmBusy

/-- BOOTSEL at the release of a reset (13 R420). (log 98, DEDUCED) -/
def State.sampleBoot (s : State) (bootsel : Bool) : State :=
  ({ s with pins := { s.pins with bootsel := bootsel } }).put Fld.LG_BOOT_DEBUG
    (b2n (bootsel && !s.flag Fld.GL_SEC_DBGLOCK))

/-- POWER_ON_RESET (13 R413): PORST_N is released, the Lamplighter starts again, or VIN_AON arrives. A Lamplighter that starts
after VIN_AON stood below 1.62 V keeps the cause latches and sets AONPOR; VIN_AON that arrives after a loss has cleared
them (12 R401). (log 143, DEDUCED) -/
def execPowerOnReset (why : PowerOnCause) (straps : BitVec 8) (bootsel : Bool) (s : State) :
    Host.Outcome State Fault Refusal :=
  let gone := match why with
    | .porst => [0]
    | .lamplighter => [2, 3]
    | .vinAon => [2, 3]
  let dropped := s.power.resetLow.contains 3
  let s := s.powerOn (s.power.resetLow.filter (fun x => !gone.contains x))
  let s := ((s.setReg Reg.LL_STRAP (straps.setWidth 32)).applyStraps).sampleBoot bootsel
  .next (match why with
    | .porst => s.put Fld.LL_RST_CAUSE_PORST 1
    | .lamplighter => (if dropped then s.put Fld.LL_RST_CAUSE_AONPOR 1 else s).lampEvent 6
    | .vinAon => (s.setReg Reg.LL_RST_CAUSE 1).lampEvent 6)

/-- WARM_RESET (13 R413): WARMRST_N is released. -/
def execWarmReset (bootsel : Bool) (s : State) : Host.Outcome State Fault Refusal :=
  let low := s.power.resetLow.filter (· != 1)
  if s.dstate < 3 then .next s
  else if !low.isEmpty then .next (s.modPower (fun x => { x with resetLow := low }))
  else .next (((s.warm []).put Fld.LL_RST_CAUSE_WARM 1).sampleBoot bootsel)

/-- RESET_ASSERT (13 R414): while a reset pin is low the die is held in reset. (log 91, DEDUCED) -/
def execResetAssert (isWarm : Bool) (s : State) : Host.Outcome State Fault Refusal :=
  if isWarm then
    let s := s.put Fld.LL_RST_CAUSE_WARM 1
    if s.dstate < 3 then .next s else .next (s.warm (setIns s.power.resetLow 1))
  else .next ((s.powerOn (setIns s.power.resetLow 0)).put Fld.LL_RST_CAUSE_PORST 1)

/-- BROWN_OUT (12 R401): the Lamplighter loses its supply; POWER_ON_RESET follows when it starts again. (log 143, DEDUCED) -/
def execBrownOut (why : BrownOutKind) (s : State) : Host.Outcome State Fault Refusal :=
  let s := match why with
    | .ldo => if s.flag Fld.LL_STS_LDOLP then s.put Fld.LL_RST_CAUSE_BOLP 1 else s.put Fld.LL_RST_CAUSE_BOHP 1
    | .vinAon => s
  let low := setIns s.power.resetLow 2
  .next (s.powerOn (if why = .vinAon then setIns low 3 else low))

/-! ### The memory clear (13 R415, R416) -/

/-- Clear the bytes of a range, and any error mark in it. -/
def State.clearMem (s : State) (inside : Nat → Bool) : State :=
  { s with
    mem := s.mem.filter (fun c => !inside c.1)
    eccC := s.eccC.filter (fun a => !inside a)
    eccU := s.eccU.filter (fun a => !inside a) }

/-- The bytes of a region's core SRAMs and cluster memories. -/
def inRegion (r a : Nat) : Bool :=
  (decide (dsramBase (64 * r) ≤ a) && decide (a < dsramBase (64 * r + 64))) ||
  (decide (isramBase (64 * r) ≤ a) && decide (a < isramBase (64 * r + 64))) ||
  (decide (clusterBase (8 * r) ≤ a) && decide (a < clusterBase (8 * r) + 0x2000000))

/-- The bytes that boot step 5 clears: region 0, the frame buffer and the Session Store. -/
def bootCleared (a : Nat) : Bool :=
  inRegion 0 a || (decide (sessionBase ≤ a) && decide (a < dsramBase 0))

/-- MEMORY_CLEAR: boot steps 5 and 6; region 0's Attar copies hold the empty master. (log 4, DESIGN CHOICE) -/
def execMemoryClear (romOk : Bool) (s : State) : Host.Outcome State Fault Refusal :=
  if !s.boot.clearing || !s.dieOn then .next s
  else
    let s := (s.clearMem bootCleared).modBoot (fun b => { b with clearing := false })
    let s := foldN s ((List.range 8).filter (fun cl => !s.clusterRetired cl)) (fun s cl => s.setLoaded cl true)
    if romOk then device (s.bootState 1 0)
    else
      let s := (s.bootState 3 7).modPower (fun x => { x with faults := setIns x.faults 3 })
      device ((s.modThr steward (fun th => { th with tstate := .halted })).haltRefresh 0)

end Sys2Proof.Machine
end

