-- ==== Sys2Proof/Machine/TallyCmds.lean ====
section
/-! DEFINITION. The Tally's measures and its ring's reader: sensors, ADC, control escapes, PWM, histograms, TY_POP,
TY_DROP, TY_PUSH and the sub-ring enables (11_tally_and_timebase.md R352 to R371). -/

namespace Sys2Proof.Machine

/-! ### The ring's reader (R365 to R367) -/

/-- Where the reader stands: TY_STS.INREC and RPRIO. -/
def State.setReader (s : State) (r : Option Nat) : State :=
  let s := s.modTally (fun x => { x with reader := r, broken := none })
  (s.put Fld.TY_STS_INREC (b2n r.isSome)).put Fld.TY_STS_RPRIO (r.getD 0)

/-- An item is returned: it is copied to TY_ITEM0 to TY_ITEM7, and its header word is the value read. -/
def State.returnItem (s : State) (it : List Word32) : Word32 × State :=
  (it.headD 0, foldN s (List.range 8) (fun s i => s.setReg (Reg.TY_ITEM + 4 * i) (it.getD i 0)))

/-- The synthetic item of a record of priority `p` of which `n` items were discarded (R366). -/
def brokenItem (p n : Nat) : List Word32 :=
  BitVec.ofNat 32 (1 + 2 + 4 + 8 * p + 128 + 65536) :: BitVec.ofNat 32 n :: List.replicate 6 0

/-- Take the item at RP of sub-ring `p`. -/
def State.popItem (s : State) (p : Nat) : Word32 × State :=
  let r := s.ring p
  match r.items with
  | [] => (0, s)
  | it :: rest =>
    let s := (s.setRing p { r with items := rest, rp := r.rp + 1 }).ringLevel p
    (s.setReader (if itemLast it then none else some p)).returnItem it

/-- A read of TY_POP (R365, R366). -/
def State.tyPop (s : State) : Word32 × State :=
  match s.tally.reader with
  | some p =>
    match s.tally.broken with
    | some n => (s.setReader none).returnItem (brokenItem p n)
    | none => s.popItem p
  | none =>
    match (List.range 4).find? (fun p => !(s.ring p).items.isEmpty) with
    | some p => s.popItem p
    | none => (0, s)

/-- A write of 1 to TY_DROP (R367). (log 81, DEDUCED) -/
def State.tyDrop (s : State) : State :=
  match s.tally.reader with
  | none => s
  | some p =>
    if s.tally.broken.isSome then s.setReader none
    else
      let r := s.ring p
      let n := oldestLen r.items
      ((s.setRing p { r with items := r.items.drop n, rp := r.rp + n }).ringLevel p).setReader none

/-! ### Software records (R369) -/

/-- A write to TY_PUSH: the block is read, and its items are written as one record. (log 81, DEDUCED) -/
def State.tyPush (s : State) (v : Word32) : State :=
  let p := bitsGet v 0 2
  let n := bitsGet v 2 3 + 1
  let bad := s.put Fld.TY_STS_PUSHERR 1
  match blockRef v with
  | none => bad
  | some a =>
    if !blockPlace a (32 * n) then bad
    else
      let r := s.hostBytes a (32 * n)
      let ty := (byteAt r.1 1).toNat
      if ty < 0xC0 then r.2.put Fld.TY_STS_PUSHERR 1
      else if !r.2.ringOn p then r.2.ringLost p n
      else r.2.ringItems p (recordItems p ty n ((List.range n).flatMap (fun i => slice r.1 (32 * i + 4) 28)))

/-! ### Sub-ring enables (R361, R371) -/

/-- First item and size of a sub-ring. -/
def State.ringSpan (s : State) (p : Nat) : Nat × Nat := (256 * s.get Fld.TY_RCFG_BASE (4 * p), s.ringSize p)

/-- The enable of sub-ring `p` is refused; `on` lists the enabled ones. -/
def State.ringRefused (s : State) (on : List Nat) (p : Nat) : Bool :=
  let l := s.get Fld.TY_RCFG_LOG2 (4 * p)
  let a := s.ringSpan p
  decide (l < 8) || decide (16 < l) || a.1 % a.2 != 0 || decide (65536 < a.1 + a.2) ||
    on.any (fun q => q != p && decide (a.1 < (s.ringSpan q).1 + (s.ringSpan q).2) &&
      decide ((s.ringSpan q).1 < a.1 + a.2))

/-- A sub-ring is emptied; a record that the reader is inside ends. -/
def State.ringEmpty (s : State) (p : Nat) : State :=
  let s := (s.setRing p {}).ringLevel p
  if s.tally.reader == some p then s.setReader none else s

/-- One enable bit of a write of TY_CTL. -/
def State.ringEnable (s : State) (new : Nat) (p : Nat) : State :=
  let en := s.get Fld.TY_CTL_EN
  let on := (List.range 4).filter (fun q => bitOf en q && bitOf new q)
  match bitOf en p, bitOf new p with
  | false, true =>
    if s.ringRefused on p then s.put Fld.TY_STS_CFGERR 1
    else (s.put Fld.TY_CTL_EN (en + 2 ^ p)).ringEmpty p
  | true, false => (s.put Fld.TY_CTL_EN (en - 2 ^ p)).ringEmpty p
  | _, _ => s

/-- A write of TY_CTL.EN. (log 81, DEDUCED) -/
def State.tyCtl (s : State) (new : Nat) : State := foldN s (List.range 4) (fun s p => s.ringEnable new p)

/-! ### Sensors (R352, R353) -/

/-- A sensor's word: value and VALID. -/
def sensorWord (v : Option Nat) : Word32 :=
  match v with
  | some n => BitVec.ofNat 32 (n + 2 ^ 15)
  | none => 0

/-- One junction temperature; sensors above 135 degrees are noted with the time since when (12 R397). -/
def State.setTemp (s : State) (i : Nat) (v : Option (BitVec 12)) : State :=
  let s := s.setReg (Reg.TY_TEMP + 4 * i) (sensorWord (v.map (·.toNat)))
  let hot := match v with
    | some x => decide (1080 < x.toInt)
    | none => false
  s.modPower (fun x => { x with
    hotAt := if hot then (if (tblGet x.hotAt i).isSome then x.hotAt else tblPut x.hotAt i s.now) else tblDel x.hotAt i })

/-- SENSOR_REFRESH (R352): every reading of the temperature and supply sensors; the TEMP and SUPPLY conditions follow. -/
def execSensorRefresh (m : SensorInputs) (s : State) : Host.Outcome State Fault Refusal :=
  if !s.dieOn then .next s
  else
  let s := foldN s (List.range 16) (fun s i => s.setTemp i ((m.temps[i]?).join))
  let s := foldN s (List.range 8) (fun s r =>
    s.setReg (Reg.TY_VSNS + 4 * r) (sensorWord (((m.vsns[r]?).join).map (·.toNat))))
  device (s.modPower (fun x => { x with supplyOk := m.supplyOk }))

/-- A temperature as a sensor record carries it. -/
def State.tempBytes (s : State) (i : Nat) : List Byte :=
  if s.flag Fld.TY_TEMP_VALID (4 * i) then
    leBytes 2 (BitVec.ofInt 16 (signedOf 12 (s.get Fld.TY_TEMP_VAL (4 * i)))).toNat
  else [0x00, 0x80]

/-- SENSOR_RECORD (R353): PER µs have passed since the last. -/
def execSensorRecord (s : State) : Host.Outcome State Fault Refusal :=
  let per := s.get Fld.TY_SCFG_PER
  if !s.dieOn ∨ per = 0 ∨ s.now < s.tally.sensorAt + 1000 * per then .next s
  else
    let body := (List.range 16).flatMap s.tempBytes ++
      (List.range 8).flatMap (fun r => leBytes 2 (s.get Fld.TY_VSNS_VAL (4 * r)))
    device ((s.record 0x01 2 body).modTally (fun x => { x with sensorAt := s.now }))

/-! ### ADC (R354) -/

def State.adcChan (s : State) (c : Nat) : AdcChan := (tblGet s.tally.adc c).getD {}
def State.setAdc (s : State) (c : Nat) (x : AdcChan) : State :=
  s.modTally (fun t => { t with adc := tblPut t.adc c x })

/-- The channel that the ADC converts next: the enabled channels in ascending order, cyclically. -/
def State.adcDue (s : State) : Option Nat :=
  ((List.range 16).map (fun k => (s.tally.adcNext + k) % 16)).find? (fun c => bitOf (s.get Fld.TY_ADCCTL_CHEN) c)

/-- Bits CHEN that a write of TY_ADCCTL raised: each such channel starts with no result. With the first bit the ADC starts, at
the lowest channel. -/
def State.adcStart (s : State) (old : Word32) : State :=
  let s := if bitsGet old 0 16 = 0 then s.modTally (fun t => { t with adcNext := 0 }) else s
  foldN s (List.range 16) (fun s c =>
    if bitOf (s.get Fld.TY_ADCCTL_CHEN) c && !old.getLsbD c then
      (s.setAdc c {}).put Fld.TY_ADC_VALID 0 (4 * c)
    else s)

/-- An ADC-limit record. -/
def State.adcLimitRecord (s : State) (c kind v : Nat) : State :=
  let x := s.adcChan c
  (s.setAdc c { x with limit := kind % 3 }).record 0x06 1 ([BitVec.ofNat 8 c, BitVec.ofNat 8 kind] ++ leBytes 2 v)

/-- Compare a result with the channel's limits. (log 79, DEDUCED) -/
def State.adcLimits (s : State) (c v : Nat) : State :=
  let lo := s.get Fld.TY_ADCLIM_LO (4 * c)
  let hi := s.get Fld.TY_ADCLIM_HI (4 * c)
  if !s.flag Fld.TY_ADCLIM_EN (4 * c) then s.setAdc c { s.adcChan c with limit := 0 }
  else
    let k := (s.adcChan c).limit
    let s := if (k = 1 ∧ lo + 8 ≤ v) ∨ (k = 2 ∧ v + 8 ≤ hi) then s.adcLimitRecord c 3 v else s
    let k := (s.adcChan c).limit
    if k = 0 ∧ v < lo then s.adcLimitRecord c 1 v
    else if k = 0 ∧ hi < v then s.adcLimitRecord c 2 v
    else s

/-- The average of 2^AVG conversions: where it is no whole number, its rounding is a free choice (R354 gives none). (log 78, DESIGN CHOICE) -/
def State.adcAverage (s : State) (sum n : Nat) : Nat × State :=
  if sum % n = 0 then (sum / n, s)
  else
    let r := s.free
    (sum / n + r.1.toNat % 2, r.2)

/-- ADC_CONVERSION (R354): one conversion of the channel whose turn it is; the last of 2^AVG writes the result. -/
def execAdcConversion (ch : BitVec 4) (value : BitVec 12) (s : State) : Host.Outcome State Fault Refusal :=
  let c := ch.toNat
  if !s.dieOn || s.adcDue != some c then .next s
  else
    let s := s.modTally (fun t => { t with adcNext := (c + 1) % 16 })
    let n := 2 ^ min 4 (s.get Fld.TY_ADCCTL_AVG)
    let x := s.adcChan c
    let x := { x with sum := x.sum + value.toNat, count := x.count + 1 }
    if x.count < n then .next (s.setAdc c x)
    else
      let r := s.adcAverage x.sum x.count
      let s := r.2.setAdc c { x with sum := 0, count := 0 }
      let s := (s.put Fld.TY_ADC_VALUE r.1 (4 * c)).put Fld.TY_ADC_VALID 1 (4 * c)
      device (s.adcLimits c r.1)

/-- ADC_RECORD (R354): RECPER ms have passed since the last. -/
def execAdcRecord (s : State) : Host.Outcome State Fault Refusal :=
  let per := s.get Fld.TY_ADCCTL_RECPER
  if !s.dieOn ∨ per = 0 ∨ s.now < s.tally.adcRecAt + 1000000 * per then .next s
  else
    let body := (List.range 16).flatMap (fun c =>
      leBytes 2 (if bitOf (s.get Fld.TY_ADCCTL_CHEN) c then s.get Fld.TY_ADC_VALUE (4 * c) else 0xFFFF))
    device ((s.record 0x02 2 body).modTally (fun x => { x with adcRecAt := s.now }))

/-! ### Control escapes, capture and PWM (R355 to R357) -/

/-- Outputs are held: before the first commit, in Safe Hold, and while a reset is asserted (13 R414, R436; 08 R290). -/
def State.outputsHeld (s : State) : Bool :=
  !s.flag Fld.LG_STS_OUT || s.safeHold || !s.power.resetLow.isEmpty

/-- The level at PPS_OUT (R377); low while outputs are held (14 R438). (log 128, DEDUCED) -/
def State.ppsOut (s : State) : Bool :=
  s.flag Fld.TB_CTL_PPSOUT && s.tbTicks && !s.outputsHeld &&
    decide (s.tb.now.toNat % 1000000000 < 1000 * max 1 (s.get Fld.TB_PPSCFG_OUTW))

/-- Whether the device drives TDO, whose hold level is Released and whose supply is VIO_SW (14 R438). -/
def State.tdoDriven (s : State) : Bool := s.flag Fld.LL_STS_VIOSW && !s.outputsHeld

/-- The level of the trace escapes, if they are driven: low, with trace disabled (14 R441). -/
def State.traceLevel (s : State) : Option Bool := if s.flag Fld.LL_STS_VIOSW then some false else none

/-- The hold level of control escape `e` (14, escape table). -/
def ceHold (e : Nat) : Bool := decide (64 ≤ e)

/-- The level that PWM generator `g` drives; none while it cannot run and its escapes drive their hold levels. (log 80, DEDUCED) -/
def State.pwmLevel (s : State) (g : Nat) : Option Bool :=
  let per := s.cfg Fld.TY_PWM_PER_NS (4 * g)
  if !s.tbTicks then none
  else some (per != 0 && decide (s.tb.now.toNat % max 16 per < s.cfg Fld.TY_PWM_HIGH_NS (4 * g)))

/-- The level that the device drives at control escape `e`, if it drives it. -/
def State.ceDrive (s : State) (e : Nat) : Option Bool :=
  let o := 4 * e
  match s.get Fld.TY_CE_MODE o with
  | 1 => some (if s.outputsHeld then ceHold e else s.flag Fld.TY_CE_OUT o)
  | 3 => some (if s.outputsHeld then ceHold e else (s.pwmLevel (s.get Fld.TY_CE_GEN o)).getD (ceHold e))
  | _ => none

/-- The level at control escape `e`. -/
def State.ceLevel (s : State) (e : Nat) : Bool := (s.ceDrive e).getD (s.pins.ceHigh.contains e)

/-- The board drives a level at control escape `e`. -/
def State.setCe (s : State) (e : Nat) (high : Bool) : State :=
  { s with pins := { s.pins with
      ceHigh := if high then setIns s.pins.ceHigh e else s.pins.ceHigh.filter (· != e) } }

def State.cap (s : State) (e : Nat) : Capture := (tblGet s.tally.caps e).getD {}
def State.setCap (s : State) (e : Nat) (x : Capture) : State :=
  s.modTally (fun t => { t with caps := tblPut t.caps e x })

/-- The capture record of an edge, or its count in the next record's MERGED. -/
def State.capRecord (s : State) (e : Nat) (rising : Bool) : State :=
  let x := s.cap e
  if !s.flag Fld.TY_CE_REC (4 * e) then s
  else if (match x.recAt with
      | some t => decide (t + 1000 ≤ s.now)
      | none => true) then
    (s.setCap e { x with merged := 0, recAt := some s.now }).record 0x03 1
      ([BitVec.ofNat 8 e, if rising then 1 else 2] ++ leBytes 2 (min 0xFFFF x.merged) ++ leBytes 8 s.tb.now.toNat)
  else s.setCap e { x with merged := x.merged + 1 }

/-- An edge at an escape in capture mode (R356). -/
def State.captureEdge (s : State) (e : Nat) (rising : Bool) : State :=
  let o := 4 * e
  if s.get Fld.TY_CE_MODE o != 2 || !bitOf (s.get Fld.TY_CE_EDGE o) (if rising then 0 else 1) || !s.tbTicks then s
  else if !(s.arrives (32 + e)).1 then (s.arrives (32 + e)).2
  else
    let s := (s.arrives (32 + e)).2
    let t := s.tb.now
    let s := if (s.cap e).unread then s.put Fld.TY_CE_OVR 1 o else s
    let s := (s.setReg (Reg.TY_CAP_LO + 8 * e) (t.setWidth 32)).setReg (Reg.TY_CAP_HI + 8 * e) ((t >>> 32).setWidth 32)
    let s := (s.put Fld.TY_CE_LASTEDGE (b2n rising) o).setCap e { s.cap e with unread := true }
    (s.edge (32 + e)).capRecord e rising

/-- CAPTURE (R356). -/
def execCapture (e : BitVec 7) (rising : Bool) (s : State) : Host.Outcome State Fault Refusal :=
  if 96 ≤ e.toNat then .next s else device ((s.setCe e.toNat rising).captureEdge e.toNat rising)

/-- PER and HIGH of a generator take effect. -/
def State.pwmTake (s : State) (g : Nat) : State :=
  let o := 4 * g
  (s.setEff (Reg.TY_PWM_PER + o) (s.reg (Reg.TY_PWM_PER + o))).setEff (Reg.TY_PWM_HIGH + o) (s.reg (Reg.TY_PWM_HIGH + o))

/-- What was written to a generator is not in effect yet. -/
def State.pwmWaits (s : State) (g : Nat) : Bool :=
  let o := 4 * g
  s.effReg (Reg.TY_PWM_PER + o) != s.reg (Reg.TY_PWM_PER + o) || s.effReg (Reg.TY_PWM_HIGH + o) != s.reg (Reg.TY_PWM_HIGH + o)

/-- The Timebase, having gone on from `was`, has come to a boundary of the period in effect; a generator whose PER is 0 has none to
wait for. (log 80, DEDUCED) -/
def State.pwmBoundary (s : State) (g : Nat) (was : Word) : Bool :=
  let per := s.cfg Fld.TY_PWM_PER_NS (4 * g)
  s.tbTicks && (per == 0 || decide (was.toNat / max 16 per ≠ s.tb.now.toNat / max 16 per))

/-- PWM_PERIOD (R357): PER and HIGH of a generator take effect at a period boundary. -/
def execPwmPeriod (g : BitVec 3) (s : State) : Host.Outcome State Fault Refusal :=
  .next (if s.pwmBoundary g.toNat (s.tb.now - 1) then s.pwmTake g.toNat else s)

/-- The generators at whose boundary the Timebase has come take what was written to them. -/
def State.pwmTick (s : State) (was : Word) : State :=
  foldN s (List.range 8) (fun s g => if s.pwmWaits g && s.pwmBoundary g was then s.pwmTake g else s)

/-! ### Histograms (R360) -/

/-- Copy the live bins of a histogram to its snapshot and clear them. -/
def State.snapshot (s : State) (h : Nat) : State :=
  let bins := s.liveBins h
  let s := foldN s (List.range 32) (fun s k => s.setReg (Reg.TY_HBIN + 128 * h + 4 * k) (BitVec.ofNat 32 (bins.getD k 0)))
  let s := s.modTally (fun x => { x with hists := tblDel x.hists h })
  if s.flag Fld.TY_HCFG_REC (4 * h) then
    s.record 0x04 5 ([BitVec.ofNat 8 h, BitVec.ofNat 8 (s.get Fld.TY_HCFG_SHIFT (4 * h)), 0, 0] ++
      bins.flatMap (fun b => leBytes 4 b))
  else s

/-- Write of TY_HCTL.SNAP. -/
def State.snapMany (s : State) (m : Nat) : State :=
  foldN s (List.range 5) (fun s h => if bitOf m h then s.snapshot h else s)

/-- A write of TY_HCFG_h that changes SHIFT clears the live bins. -/
def State.histCfg (s : State) (h : Nat) (old : Word32) : State :=
  if bitsGet old 0 5 = s.get Fld.TY_HCFG_SHIFT (4 * h) then s
  else s.modTally (fun x => { x with hists := tblDel x.hists h })

/-- SNAPSHOT_PERIOD (R360): PER ms have passed since the last. -/
def execSnapshotPeriod (s : State) : Host.Outcome State Fault Refusal :=
  let per := s.get Fld.TY_HCTL_PER
  if !s.dieOn ∨ per = 0 ∨ s.now < s.tally.snapAt + 1000000 * per then .next s
  else device ((s.snapMany 31).modTally (fun x => { x with snapAt := s.now }))

end Sys2Proof.Machine
end

