-- ==== Sys2Proof/Machine/Power.lean ====
section
/-! DEFINITION. Region power states, Dark, waking, the Lamplighter's events and the PMBus
(12_power_clocks_lamplighter.md R383 to R412; 13 R415). -/

namespace Sys2Proof.Machine

/-! ### Regions (R386 to R392) -/

/-- IDLE_TIMER (R389): region 0 always gates with retention. (log 15, DESIGN CHOICE) -/
def execIdleTimer (r : RegionId) (s : State) : Host.Outcome State Fault Refusal :=
  let n := r.toNat
  let idle := s.get Fld.RG_PCTL_IDLE (rgOff n)
  match tblGet s.power.quietAt n with
  | some t =>
    if idle ≠ 0 ∧ s.dieOn ∧ s.regionQuiet n ∧ t + 1000 * idle ≤ s.now then
      device (s.startGating n (n == 0 || s.flag Fld.RG_PCTL_RET (rgOff n)))
    else .next s
  | none => .next s

/-- A Gated region starts to leave Gated; the wake is counted (R391). -/
def State.leaveGated (s : State) (r : Nat) : State :=
  let ret := s.pstate r == 3
  ((s.bump Fld.RG_PSTS_WAKES 1 (rgOff r)).put Fld.RG_PSTS_STATE 5 (rgOff r)).modPower (fun x => { x with
    leaving := tblPut x.leaving r (s.now, ret), wakeReq := x.wakeReq.filter (· != r) })

/-- A wake that was asked for takes effect, unless the region is shed (R391). -/
def State.wakeNow (s : State) (r : Nat) : State :=
  if s.power.wakeReq.contains r && !s.bellows.shed.contains r && (s.pstate r == 3 || s.pstate r == 4) then
    s.leaveGated r
  else s

/-- The Attar copies of a region that lost its supply. -/
def State.loseCopies (s : State) (r : Nat) : State :=
  foldN s ((List.range 8).map (fun k => 8 * r + k)) (fun s cl =>
    (s.setLoaded cl false).modAttar (fun x => { x with copies := tblDel x.copies cl }))

/-- GATED_ENTRY (R390): the granted requests of the region's arbiters are complete; a wake asked for meanwhile acts at
once (01 R33). -/
def execGatedEntry (r : RegionId) (s : State) : Host.Outcome State Fault Refusal :=
  let n := r.toNat
  match tblGet s.power.gating n with
  | some (_, ret) =>
    if s.arbs.any (fun kx => arbRegion kx.1 == some n && !kx.2.out.isEmpty) then .next s
    else
      let s := (s.put Fld.RG_PSTS_STATE (if ret then 3 else 4) (rgOff n)).modPower (fun x => { x with
        gating := tblDel x.gating n })
      device ((if ret then s else s.loseCopies n).wakeNow n)
  | none => .next s

/-- REGION_WAKE (R391). -/
def execRegionWake (r : RegionId) (s : State) : Host.Outcome State Fault Refusal := device (s.wakeNow r.toNat)

/-- Registers of a region's CO blocks. -/
def inCoBlocks (r a : Nat) : Bool :=
  decide (0x200000 + 0x40000 * r ≤ a) && decide (a < 0x240000 + 0x40000 * r) && decide (a % 0x8000 < 0x4000)

/-- What a region holds after it was switched off (R392): memories cleared, caches invalid, mailboxes
empty, threads Disabled. (log 92, DEDUCED) -/
def State.regionLost (s : State) (r : Nat) : State :=
  let s := s.clearMem (inRegion r)
  let ts := (s.threads.map (·.1)).filter (fun t => t / 256 == r)
  let s := ts.foldl (fun s t => ((s.releaseClaims t).dropResv t).modCrier (fun c => { c with que := c.que.filter (· != t) })) s
  let s := { s with
    threads := s.threads.filter (fun kv => kv.1 / 256 != r)
    cores := s.cores.filter (fun kv => kv.1 / 64 != r)
    caches := s.caches.filter (fun kv => kv.1 / 64 != r)
    regs := s.regs.filter (fun kv => !inCoBlocks r kv.1)
    eff := s.eff.filter (fun kv => !inCoBlocks r kv.1) }
  let s := foldN s ((List.range 8).map (fun k => 8 * r + k)) State.haltRefresh
  ts.foldl State.msgRefresh s

/-- LEAVING_GATED (R391, R392): the region reaches Quiet; copies that it lost or missed are written (13 R427, R429). A region
that was shed meanwhile is gated for the cap (07 R261). -/
def execLeavingGated (r : RegionId) (s : State) : Host.Outcome State Fault Refusal :=
  let n := r.toNat
  match tblGet s.power.leaving n with
  | some (_, ret) =>
    let s := (s.put Fld.RG_PSTS_STATE 0 (rgOff n)).modPower (fun x => { x with
      leaving := tblDel x.leaving n, wakeReq := x.wakeReq.filter (· != n) })
    let s := if ret then s else (s.regionLost n).copyAsk 0 ((List.range 8).map (fun k => 8 * n + k))
    device (if s.bellows.shed.contains n then s.startGating n true else s)
  | none => .next s

/-- A write of 1 to RG_PCTL.WAKE. -/
def State.rgWake (s : State) (r : Nat) : State := s.askWake r

/-! ### Dark entry (R393 to R397) -/

/-- Dark entry is abandoned: admission resumes and the device is Lit, or Banked as R384 gives. -/
def State.abandonDark (s : State) (cause : Nat) : State :=
  ((((s.put Fld.LL_STS_DKREF cause).put Fld.LL_STS_DSTATE 3).modPower (fun x => { x with
    dkStep := 0, bankedAt := none })).lampEvent 4).evalBanked

/-- LL_CMD.DARK, or the device idle timer. Leaving Banked writes the rails' VLIT (R410). -/
def State.darkRequest (s : State) : State :=
  if s.dstate ≠ 3 ∧ s.dstate ≠ 4 then s
  else if s.holding then (s.put Fld.LL_STS_DKREF 1).lampEvent 4
  else
    let s := if s.dstate = 4 then s.railVolts false else s
    (s.put Fld.LL_STS_DSTATE 5).modPower (fun x => { x with dkStep := 1, dkAt := s.now, dkWake := [] })

/-- DEVICE_IDLE_TIMER (R385). -/
def execDeviceIdleTimer (s : State) : Host.Outcome State Fault Refusal :=
  let ms := s.get Fld.LL_DIDLE_MS
  match s.power.bankedAt with
  | some t => if ms ≠ 0 ∧ s.dstate = 4 ∧ t + 1000000 * ms ≤ s.now then device s.darkRequest else .next s
  | none => .next s

/-- Every Prompt and Assured message already admitted is complete (01 R35). -/
def State.messagesDone (s : State) : Bool :=
  s.porter.held.all (fun h => decide (2 ≤ h.cls)) && s.prompt.waiting.isEmpty && s.allPairsIdle &&
  (List.range 8).all (fun p => (s.port p).q0.isEmpty && (s.port p).q1.isEmpty)

/-- The Bulk and Idle frames that remain are discarded and counted (R393 step 3), with what named them. -/
def State.discardRest (s : State) : State :=
  let n (c : Nat) : Nat := (s.porter.held.filter (fun h => h.cls == c)).length
  let s := (s.bump Fld.LL_DKDROP_BULK (n 2)).bump Fld.LL_DKDROP_IDLE (n 3)
  let s := s.modPorter (fun x => { x with
    held := x.held.filter (fun h => decide (h.cls ≤ 1)), store := x.store.filter (fun h => decide (h.hdr.cls.toNat ≤ 1)) })
  let s := foldN s (List.range 8) (fun s p => s.modPort p (fun x => { x with q2 := [], q3 := [] }))
  let s := (s.hqs.map (·.1)).foldl (fun s q => s.modHq q (fun x => { x with rx := x.rx.filter (fun y => decide (y.hdr.cls.toNat ≤ 1)) })) s
  (s.threads.map (·.1)).foldl (fun s t =>
    (s.modThr t (fun th => { th with mailbox := th.mailbox.filter (fun h => decide (h.cls.toNat ≤ 1)) })).msgRefresh t) s

/-- DRAIN (R393 steps 2 to 4): with the messages complete the rest is discarded, the queues stop and the link is asked
for L2; after LL_DRAIN ms entry is abandoned. (log 140, DEDUCED) -/
def execDrain (s : State) : Host.Outcome State Fault Refusal :=
  if s.power.dkStep ≠ 1 then .next s
  else if s.messagesDone then
    let s := s.discardRest
    let s := (s.hqs.map (·.1)).foldl (fun s q => s.stopQueue q false) s
    device (s.modPower (fun x => { x with dkStep := 2, dkAt := s.now }))
  else if s.power.dkAt + 1000000 * max 1 (s.get Fld.LL_DRAIN_MS) ≤ s.now then device (s.abandonDark 2)
  else .next s

/-- L2_TIMEOUT (R393 step 4). -/
def execL2Timeout (s : State) : Host.Outcome State Fault Refusal :=
  if s.power.dkStep = 2 ∧ s.power.dkAt + 1000000 ≤ s.now then device (s.abandonDark 3) else .next s

/-- Steps 5 to 7: the ports stop, the Timebase is saved with its crystal count at the next crystal edge, the PLLs stop, and the
DARKOFF rails are switched off. (log 92, DEDUCED) -/
def State.closeDie (s : State) : State :=
  let s := s.tbSave
  ((s.put Fld.LL_STS_DSTATE 5).modPower (fun x => { x with dkStep := 3, dkAt := s.now })).railsOff

/-- The Lamplighter latches an event of the wake set; one of the same source merges with it (09 R297, R313). -/
def State.latchWake (s : State) (kind src : Nat) : State :=
  if kind ≠ 4 then s
  else if s.crier.latched.contains src then s.bump Fld.CR_CNT_MERGE_COUNT
  else s.modCrier (fun c => { c with latched := setIns c.latched src })

/-- A wake begins (R399 steps 1 and 2). -/
def State.startWake (s : State) (kind src : Nat) : State :=
  let s := (s.put Fld.LL_WKREASON_KIND kind).put Fld.LL_WKREASON_SRC (if kind = 4 then src else 0)
  let s := if kind = 4 then (s.put Fld.CR_STS_WSRC src).put Fld.CR_STS_WVALID 1 else s
  let s := (((s.put Fld.LL_STS_DSTATE 2).put Fld.LL_STS_LDOLP 0).put Fld.LL_STS_VIOSW 1).put Fld.LL_WKFAIL_ATT 0
  s.modPower (fun x => { x with upStep := 1, upAt := s.now, upWake := true, upFails := 0 })

/-- Steps 8 and 9: everything but the Lamplighter is switched off, and the Timebase keeps its value (11 R382); a wake latched
meanwhile begins at once, and the other events of the wake set stay latched (R394; 09 R313). -/
def State.enterDark (s : State) : State :=
  let unset := s.get Fld.TB_STS_UNSET
  let tb : Timebase := {
    now := s.tb.now, frac := s.tb.frac, elapsed := s.tb.elapsed, xtal := s.tb.xtal, xtalAcc := s.tb.xtalAcc, disciplined := s.tb.disciplined,
    coast := s.tb.coast }
  let wake := s.power.dkWake
  let s := s.fresh isKept tb { s.keptPower with upStep := 0 } s.keptAssay
  let s := (((s.put Fld.LL_STS_DSTATE 1).put Fld.LL_STS_LDOLP 1).put Fld.LL_STS_VIOSW 0).put Fld.LL_STS_DKREF 0
  let s := ((s.put Fld.TB_STS_UNSET unset).put Fld.GL_LINK_STS_STATE 5).lampEvent 3
  match wake with
  | (kind, src) :: _ => wake.foldl (fun s x => s.latchWake x.1 x.2) (s.startWake kind src)
  | [] => s

/-- The Timebase is saved and the rail sequences have ended, so that the supplies can be switched off. -/
def State.closed (s : State) : Bool := s.railsDone && s.tb.onEdge != .save

/-- DARK_ENTERED (R393 steps 4 to 9): L2 is reached; the crystal edge that saves the Timebase, and the rails that a sequence
switches off, come first. (log 95, DEDUCED; log 140, DEDUCED) -/
def execDarkEntered (s : State) : Host.Outcome State Fault Refusal :=
  let s := if s.power.dkStep = 2 then (s.linkTo 5).closeDie else s
  if s.power.dkStep = 3 ∧ s.closed then .next s.enterDark else .next s

/-- A shutdown (R397): Dark at once, without steps 1 to 4. Leaving Banked writes the rails' VLIT (R410). (log 94, DESIGN CHOICE) -/
def State.shutdown (s : State) (latch : FieldRef) : State :=
  let s := ((s.put latch 1).modPower (fun x => { x with faults := setIns x.faults 1 })).lampEvent 8
  let s := if s.dstate = 4 then s.railVolts false else s
  let s := if s.power.dkStep = 3 then s else s.closeDie
  if s.closed then s.enterDark else s

/-- THERMAL_SHUTDOWN (R397): a sensor has read above 135 degrees for 100 µs. -/
def execThermalShutdown (s : State) : Host.Outcome State Fault Refusal :=
  if 3 ≤ s.dstate ∧ s.dieOn ∧ s.power.hotAt.any (fun kv => decide (kv.2 + 100000 ≤ s.now)) then
    .next (s.shutdown Fld.LL_RST_CAUSE_THERM)
  else .next s

/-! ### Waking (R398 to R400) -/

/-- A source that can arise in Dark (09 R313). -/
def isDarkSource (n : Nat) : Bool :=
  n == 23 || (decide (32 ≤ n) && decide (n < 48)) || (decide (192 ≤ n) && decide (n < 200))

/-- A valid entry of the wake set names the source. -/
def State.inWakeSet (s : State) (n : Nat) : Bool :=
  isDarkSource n && (List.range 64).any (fun e => s.flag Fld.CR_WAKE_VALID (4 * e) && s.get Fld.CR_WAKE_SRC (4 * e) == n)

/-- LL_WKREASON.KIND and SRC of a wake source that its enable admits. -/
def State.wakeReason (s : State) : WakeKind → Option (Nat × Nat)
  | .addressMatch => if s.flag Fld.LL_CTL_I3CWK && !s.flag Fld.LL_STS_WKF then some (1, 0) else none
  | .command => some (2, 0)
  | .ucie => if s.flag Fld.LL_CTL_SBWK then some (3, 0) else none
  | .wakeSet src => if s.inWakeSet src.toNat then some (4, src.toNat) else none

/-- A wake event: in Dark it wakes the device, or is only noted after a wake that failed twice; while waking the wake
set's events are latched; in Dark entry it abandons steps 1 to 5, and is latched in steps 6 to 9 (R394, R399, R400). -/
def State.wakeUp (s : State) (k : WakeKind) : State :=
  match s.wakeReason k with
  | none => s
  | some (kind, src) =>
    match s.dstate with
    | 1 => if s.flag Fld.LL_STS_WKF then s.put Fld.LL_WKREASON_PEND 1 else (s.startWake kind src).latchWake kind src
    | 2 => s.latchWake kind src
    | 5 =>
      if s.power.dkStep = 3 then s.modPower (fun x => { x with dkWake := x.dkWake ++ [(kind, src)] })
      else s.abandonDark 4
    | _ => s

/-- WAKE_EVENT (R399). -/
def execWakeEvent (k : WakeKind) (s : State) : Host.Outcome State Fault Refusal :=
  if s.power.resetLow.isEmpty then .next (s.wakeUp k) else .next s

/-- WAKE_SET_EVENT (09 R313). -/
def execWakeSetEvent (src : SourceId) (s : State) : Host.Outcome State Fault Refusal :=
  if s.power.resetLow.isEmpty then .next (s.wakeUp (.wakeSet src)) else .next s

/-- A write of 1 to LL_CMD.WAKE: it acts in Dark only. (log 95, DEDUCED) -/
def State.wakeCmd (s : State) : State := if s.dstate = 1 then s.wakeUp .command else s

/-- A write of 1 to LL_CMD.RETRY: the wake runs again from step 1 (R400). -/
def State.retryCmd (s : State) : State :=
  if s.dstate = 1 ∧ s.flag Fld.LL_STS_WKF then
    let s := (s.put Fld.LL_STS_WKF 0).put Fld.LL_WKREASON_PEND 0
    s.startWake (s.get Fld.LL_WKREASON_KIND) (s.get Fld.LL_WKREASON_SRC)
  else s

/-- REG_READY: the die supplies stand; the PLLs start (R399; 13 R415). (log 4, DESIGN CHOICE) -/
def execRegReady (s : State) : Host.Outcome State Fault Refusal :=
  if s.power.upStep = 1 ∧ s.power.resetLow.isEmpty then
    .next (s.modPower (fun x => { x with upStep := 2, upAt := s.now }))
  else .next s

/-- PLL_LOCK (11 R374): both PLLs lock. At a wake the next crystal edge follows (R399 step 5); at boot the steward starts, the
link trains and the memory clear begins (13 R415 steps 3 to 5). (log 4, DESIGN CHOICE; log 73, DEDUCED) -/
def execPllLock (s : State) : Host.Outcome State Fault Refusal :=
  if s.power.upStep ≠ 2 ∨ !s.power.resetLow.isEmpty then .next s
  else
    let s := s.tbLock
    if s.power.upWake then
      .next (s.modPower (fun x => { x with upStep := 3, upAt := s.now }))
    else
      let s := (s.modPower (fun x => { x with upStep := 0, upFails := 0 })).modBoot (fun b => { b with clearing := true })
      device ((s.linkTo 1).level 24 s.pins.pmalertLow)

/-- The rails that a wake has switched on are switched off again, in descending order; those that it has not reached are not
(R400). (log 93, DEDUCED) -/
def State.railsUndo (s : State) : State :=
  let left := s.power.rails.map (·.rail)
  let offs := ((s.railsWith Fld.LL_RAIL_CFG_DARKOFF).filter (fun n => !left.contains n)).map (fun n => s.railTxn n 0x01 1 0 0)
  (s.modPower (fun x => { x with rails := [], delayAt := none })).railSeq offs.reverse

/-- A wake that fails undoes its steps: a Timebase PLL that had locked stops, rails switched on are switched off, and the link
is in L2 (R400). (log 93, DEDUCED) -/
def State.upUndo (s : State) : State :=
  let began := s.power.upStep == 3 && s.tb.onEdge != .set
  let s := if s.tbTicks then s.tbSave else s
  if s.power.upWake then (if began then s.railsUndo else s).linkTo 5 else s

/-- A step of the start of the supplies fails (R400). (log 93, DEDUCED) -/
def State.upFail (s : State) (code : Nat) : State :=
  let s := s.upUndo
  let att := s.power.upFails + 1
  let s := ((s.put Fld.LL_WKFAIL_CODE code).put Fld.LL_WKFAIL_ATT (min 2 att)).put Fld.LL_STS_VIOSW 0
  let s := s.modPower (fun x => { x with upAt := s.now, upFails := att })
  if att < 2 then s.modPower (fun x => { x with upStep := 4 })
  else
    let s := (((s.put Fld.LL_STS_DSTATE 1).put Fld.LL_STS_WKF 1).put Fld.LL_STS_LDOLP 1).put Fld.LL_RST_CAUSE_WKFAIL 1
    (s.modPower (fun x => { x with upStep := 0, faults := setIns x.faults 2 })).lampEvent 2

/-- WAKE_FAILURE (R400): REG_READY has not come within LL_WK_TMO, or a PLL has not locked within 500 µs. -/
def execWakeFailure (code : BitVec 2) (s : State) : Host.Outcome State Fault Refusal :=
  let x := s.power
  let late := match x.upStep with
    | 1 => code == 1 && decide (x.upAt + 1000 * max 50 (s.get Fld.LL_WK_TMO_US) ≤ s.now)
    | 2 => (code == 2 || code == 3) && decide (x.upAt + 500000 ≤ s.now)
    | _ => false
  if late && x.resetLow.isEmpty then .next (s.upFail code.toNat) else .next s

/-- WAKE_RETRY (R400): 1 ms after the first failure the start runs again from step 2. (log 93, DEDUCED) -/
def execWakeRetry (s : State) : Host.Outcome State Fault Refusal :=
  if s.power.upStep = 4 ∧ s.power.upAt + 1000000 ≤ s.now then
    .next ((s.put Fld.LL_STS_VIOSW 1).modPower (fun x => { x with upStep := 1, upAt := s.now }))
  else .next s

/-- WAKE_COMPLETE (R399 step 6): reset is released, the steward starts the boot from step 4, and the events latched
become pending. (log 94, DESIGN CHOICE) -/
def execWakeComplete (s : State) : Host.Outcome State Fault Refusal :=
  if s.power.upStep = 3 ∧ s.railsDone ∧ s.tb.onEdge ≠ .set then
    let latched := s.crier.latched
    let s := (s.modPower (fun x => { x with upStep := 0, upWake := false, upFails := 0, faults := [] })).modBoot
      (fun b => { b with clearing := true })
    let s := (s.modCrier (fun c => { c with latched := [] })).sampleBoot s.pins.bootsel
    let s := (s.put Fld.LL_STS_DSTATE 3).lampEvent 1
    device ((latched.foldl State.edge s).level 24 s.pins.pmalertLow)
  else .next s

/-- VIN_CORE_LOSS (R397): a shutdown; while waking the wake fails. (log 93, DEDUCED) -/
def execVinCoreLoss (s : State) : Host.Outcome State Fault Refusal :=
  let s := s.modPower (fun x => { x with supplyOk := false })
  if !s.power.resetLow.isEmpty then .next s
  else if 3 ≤ s.dstate then .next (s.shutdown Fld.LL_RST_CAUSE_VCORE)
  else if s.dstate = 2 ∧ s.power.upStep ≠ 4 then .next (s.upFail 1)
  else .next s

/-- ALARM (R398): the crystal count equals LL_ALARM, which is not 0. (log 97, DEDUCED) -/
def execAlarm (s : State) : Host.Outcome State Fault Refusal :=
  let a := (s.reg Reg.LL_ALARM_LO).toNat + s.get Fld.LL_ALARM_HI_VAL * 2 ^ 32
  if a = 0 ∨ s.tb.xtal.toNat ≠ a ∨ s.power.alarmed = some a ∨ !s.power.resetLow.isEmpty then .next s
  else
    let s := ((s.modPower (fun x => { x with alarmed := some a })).lampEvent 9).wakeUp (.wakeSet 23#10)
    if s.dieOn then device s else .next s

/-- The board drives a level at WAKEn. (log 95, DEDUCED) -/
def State.setWakePin (s : State) (n : Nat) (high : Bool) : State :=
  { s with pins := { s.pins with
      wakeHigh := if high then setIns s.pins.wakeHigh n else s.pins.wakeHigh.filter (· != n) } }

/-- WAKE_EDGE (R398): POL selects the active edge, and FILT ignores a short pulse. -/
def execWakeEdge (n : BitVec 3) (rising : Bool) (short : Bool) (s : State) : Host.Outcome State Fault Refusal :=
  let k := n.toNat
  let s := s.setWakePin k rising
  let active := rising != bitOf (s.get Fld.LL_WAKECFG_POL) k && !(short && bitOf (s.get Fld.LL_WAKECFG_FILT) k)
  if !active || !s.power.resetLow.isEmpty then .next s
  else if s.dstate = 3 ∨ s.dstate = 4 then device (s.edgeIn (192 + k))
  else .next (s.wakeUp (.wakeSet (BitVec.ofNat 10 (192 + k))))

/-- CONTROL_ESCAPE_EDGE (11 R355, R356; 09 R313; 12 R394): the level at a control escape; in capture mode an edge; in Dark, and
in Dark entry, a wake source. (log 80, DEDUCED) -/
def execControlEscapeEdge (e : BitVec 7) (level : Bool) (s : State) : Host.Outcome State Fault Refusal :=
  let n := e.toNat
  if 96 ≤ n then .next s
  else
    let s := s.setCe n level
    if s.dstate ≤ 2 then .next (if n < 16 then s.wakeUp (.wakeSet (BitVec.ofNat 10 (32 + n))) else s)
    else
      let s := if s.darkening && decide (n < 16) then s.wakeUp (.wakeSet (BitVec.ofNat 10 (32 + n))) else s
      if s.dieOn then device (s.captureEdge n level) else .next s

/-- PMALERT (09 R294): PMALERT_N falls or rises. -/
def execPmalert (low : Bool) (s : State) : Host.Outcome State Fault Refusal :=
  let s := ({ s with pins := { s.pins with pmalertLow := low } }).put Fld.LL_PMSTS_ALERT (b2n low)
  if s.dieOn then device (s.level 24 low) else .next s

/-! ### PMBus (R410, R411) -/

/-- LL_PMCMD is written with GO at 1. (log 96, DEDUCED) -/
def State.pmGo (s : State) : State :=
  let x : PmTxn := ⟨true, 15, s.get Fld.LL_PMCMD_ADDR, 0xFF, s.flag Fld.LL_PMCMD_READ, s.get Fld.LL_PMCMD_CMD,
    min 2 (s.get Fld.LL_PMCMD_LEN), s.get Fld.LL_PMDATA_DATA, s.flag Fld.LL_PMCMD_PEC, 0⟩
  (s.modPower (fun p => { p with hostTxn := some x })).pmNext

/-- A transaction succeeded: data read goes to LL_PMDATA; a rail's DELAY begins. -/
def State.pmDone (s : State) (x : PmTxn) (data : Nat) : State :=
  let s := if x.host && x.read && x.len != 0 then s.put Fld.LL_PMDATA_DATA (data % 256 ^ x.len) else s
  if x.delay = 0 then s else s.modPower (fun p => { p with delayAt := some (x.delay, s.now) })

/-- PMBUS_COMPLETE: the transaction in progress ends; a missing acknowledge or a PEC mismatch is retried twice. No one
answers a die that is not the master. (log 96, DEDUCED; log 122, DESIGN CHOICE) -/
def execPmbusComplete (ok : Bool) (data : BitVec 16) (s : State) : Host.Outcome State Fault Refusal :=
  match s.power.pmCur with
  | none => .next s
  | some x =>
    if ok && s.flag Fld.LL_STRAP_PMMST then
      .next ((s.modPower (fun p => { p with pmCur := none })).pmDone x data.toNat).pmNext
    else if s.power.tries < 2 then .next ((s.modPower (fun p => { p with tries := p.tries + 1 })).pmEmit x)
    else
      let s := ((s.put Fld.LL_PMSTS_ERR 1).put Fld.LL_PMSTS_RAIL x.rail).lampEvent 7
      .next ((s.modPower (fun p => { p with pmCur := none })).pmNext)

/-- RAIL_DELAY: the wait after a rail's switching on ends. (log 122, DESIGN CHOICE) -/
def execRailDelay (s : State) : Host.Outcome State Fault Refusal :=
  match s.power.delayAt with
  | some (ms, t) =>
    if t + 1000000 * ms ≤ s.now then .next ((s.modPower (fun p => { p with delayAt := none })).pmNext) else .next s
  | none => .next s

/-! ### Escapes (R412; 14 R438) -/

/-- The level at PDCn. (log 100, DESIGN CHOICE) -/
def State.pdcLevel (s : State) (n : Nat) : Bool :=
  if !s.flag Fld.LL_STS_VIOSW || !bitOf (s.get Fld.LL_PDC_OE) n then s.pins.pdcHigh.contains n
  else if s.outputsHeld then decide (4 ≤ n)
  else bitOf (if s.dstate = 4 then s.get Fld.LL_PDC_BANKLVL else s.get Fld.LL_PDC_LITLVL) n

/-- FAULT_N is driven low (R397, R400; 13 R416; 08 R290). (log 94, DESIGN CHOICE) -/
def State.faultLow (s : State) : Bool := !s.power.faults.isEmpty || s.safeHold

/-- READY is high while OUT is 1, except while outputs are held (13 R436; 14). (log 99, DEDUCED) -/
def State.readyHigh (s : State) : Bool := !s.outputsHeld

end Sys2Proof.Machine
end

