-- ==== Sys2Proof/Machine/Toll.lean ====
section
/-! DEFINITION. What the Toll arbiters' commands do: a grant, and a wait past the starvation limit
(05_memory_and_fabric.md R174 to R182). -/

namespace Sys2Proof.Machine

/-- TL_WAITMAX of a fabric input (R176). -/
def State.noteWait (s : State) (a : ArbiterId) (w : ArbWait) : State :=
  match a with
  | .fabric _ _ =>
    s.put Fld.TL_WAITMAX_NS (min 65535 (max (s.get Fld.TL_WAITMAX_NS (4 * w.input)) (s.now - w.at_))) (4 * w.input)
  | _ => s

/-- What is left of a granted near-Annex operation: in a Metered cluster a grant is one 64-byte step, and the operation
waits again, as the youngest, for its next (R173). -/
def State.nextStep (s : State) (a : ArbiterId) (w : ArbWait) : List ArbWait :=
  match a with
  | .annex c _ => if s.meteredRole && decide (48 ≤ c.toNat) && decide (1 < w.steps) then
      [{ w with steps := w.steps - 1, at_ := s.now }] else []
  | _ => []

/-- The granted request becomes outstanding, with its entry at a fabric target. -/
def State.grant (s : State) (a : ArbiterId) (x : Arb) (w : ArbWait) : State :=
  let pool := match a with
    | .fabric t ch => ch.toNat == 0 && s.entryFor t.toNat w.cls x.out == some true
    | _ => false
  let again := s.nextStep a w
  (s.setArb (arbKey a) { x with
    waiting := x.waiting.erase w ++ again,
    out := x.out ++ [{ input := w.input, cls := w.cls, pool := pool, thread := w.thread, unit := w.unit }] }).noteWait a w

/-- ARBITER_GRANT (R174, R175): responses are delivered, requests arrive, and one pending request is granted. (log 15, DESIGN CHOICE) -/
def execArbiterGrant (a : ArbiterId) (arrivals : List ArbRequest) (answered : List (BitVec 7)) (s : State) :
    Host.Outcome State Fault Refusal :=
  if !s.dieOn then .next s
  else
  let x := s.arrive a ((s.arb (arbKey a)).answer answered) arrivals
  match s.nextGrant a x with
  | some w => .next (s.grant a x w)
  | none => .next (s.setArb (arbKey a) x)

/-- The arbiter is frozen with no granted request outstanding (R182). (log 120, DEDUCED) -/
def State.drained (s : State) (a : ArbiterId) : Bool := s.arbFrozen a && (s.arb (arbKey a)).out.isEmpty

/-- Crier source 5 follows the starvation flags (09 R294). -/
def State.starveLevel (s : State) : State :=
  s.level 5 ((List.range 3).any (fun n => s.reg (Reg.TL_STARVE + 4 * n) != 0))

/-- STARVATION (R176): a wait at a fabric target exceeds TL_STCFG.LIMIT. -/
def execStarvation (a : ArbiterId) (input : BitVec 7) (s : State) : Host.Outcome State Fault Refusal :=
  let limit := s.get Fld.TL_STCFG_LIMIT
  match a with
  | .fabric _ _ =>
    match (s.arb (arbKey a)).waiting.find? (fun w => w.input == input.toNat) with
    | some w =>
      if limit != 0 && decide (w.at_ + limit < s.now) then
        let r := Reg.TL_STARVE + 4 * (w.input / 32)
        device (s.setReg r (bitsSet (s.reg r) (w.input % 32) 1 1)).starveLevel
      else .next s
    | none => .next s
  | _ => .next s

end Sys2Proof.Machine
end

