-- ==== Sys2Proof/Machine/Commit.lean ====
section
/-! DEFINITION. Commit groups, the Ledger's status and the start of outputs (13_boot_attar_ledger.md R433 to R437). -/

namespace Sys2Proof.Machine

/-! ### LG_STS (R437) -/

/-- Change LG_STS: a change of STATE, OUT or HCAUSE asserts source 6 and sends PF0 vector 0. -/
def State.lgSts (s : State) (f : Word32 → Word32) : State :=
  let w := s.reg Reg.LG_STS
  let s := s.setReg Reg.LG_STS (f w)
  if bitsGet (f w) 0 7 = bitsGet w 0 7 then s else (s.edge 6).msixSend 0

/-- An event that gives HCAUSE a value while OUT is 0. -/
def hcause (c : Nat) (w : Word32) : Word32 := if w.getLsbD 3 then w else bitsSet w 4 3 c

/-- Outputs start: OUT becomes 1 and HCAUSE 0. -/
def outOn (w : Word32) : Word32 := bitsSet (bitsSet w 3 1 1) 4 3 0

/-- Neither HOLD_N nor LG_CTL.HOLD holds the outputs (R436). -/
def State.outputsFree (s : State) : Bool := s.pins.holdN && !s.flag Fld.LG_CTL_HOLD

/-- OUTPUTS_START (R436): after a Ledger commit, both holds have been released. -/
def execOutputsStart (s : State) : Host.Outcome State Fault Refusal :=
  if s.boot.committed ∧ !s.flag Fld.LG_STS_OUT ∧ s.outputsFree then device (s.lgSts outOn) else .next s

/-- HOLD_N (R436): the level at the escape; the start of outputs is OUTPUTS_START. -/
def execHoldN (level : Bool) (s : State) : Host.Outcome State Fault Refusal :=
  .next { s with pins := { s.pins with holdN := level } }

/-! ### Commit groups (R433, R434) -/

/-- The commit group of a register with C fields. -/
def groupOf (d : RegDesc) : Option Nat :=
  let b := d.base
  if b == Reg.TL_CRED then some 0
  else if b == Reg.PO_SHARE || b == Reg.PO_SHED || b == Reg.PO_AXOFF then some 1
  else if b == Reg.PO_DG || b == Reg.PO_GMODE then some 2
  else if b == Reg.PO_DEVNUM then some 3
  else if b == Reg.PS_DIEBUD || b == Reg.PS_PORT || b == Reg.PS_GENT || b == Reg.PS_GBUD || b == Reg.PS_GFB ||
      b == Reg.PS_SPARE then some 4
  else if b == Reg.BW_ENV || b == Reg.BW_MCFG then some 5
  else if b == Reg.GL_WIN_CTL || b == Reg.GL_WIN_SRC_LO || b == Reg.GL_WIN_SRC_HI || b == Reg.GL_WIN_DST_LO ||
      b == Reg.GL_WIN_DST_HI then some 6
  else if b == Reg.AS_CTL then some 7
  else none

/-- Copy the fields of one update category of a register from the last value written to the value in effect. -/
def State.copyFields (s : State) (d : RegDesc) (a : Nat) (u : Upd) : State :=
  let fs := d.fields.filter (fun f => f.upd == u)
  if fs.isEmpty then s
  else s.setEff a (fs.foldl (fun w f => bitsSet w f.lo f.width (bitsGet (s.reg a) f.lo f.width)) (s.effReg a))

/-- Group 0: the reservations of each target leave 16 entries of its buffer (05 R181). -/
def State.credOk (s : State) : Bool :=
  (List.range 12).all (fun t => decide (s.get Fld.TL_CRED_ARES (4 * t) + s.get Fld.TL_CRED_BRES (4 * t) +
    s.get Fld.TL_CRED_IRES (4 * t) ≤ fabricEntries t - 16))

/-- Group 1: the reservations fit the managed units, and XON is greater than XOFF (06 R214). -/
def State.shareOk (s : State) : Bool :=
  decide (((List.range 4).map (fun c => 16 * s.get Fld.PO_SHARE_RES (4 * c))).sum ≤ s.managedCells) &&
    decide (s.get Fld.PO_AXOFF_XOFF < s.get Fld.PO_AXOFF_XON)

/-- Group 5: no MIN exceeds its MAX (07 R255). (log 101, DEDUCED) -/
def State.envOk (s : State) : Bool :=
  (List.range 8).all (fun r => decide (min 90 (s.get Fld.BW_ENV_MIN (4 * r)) ≤ min 90 (s.get Fld.BW_ENV_MAX (4 * r))))

/-- Group 6: the size and the base of each enabled descriptor (10 R327). -/
def State.winOk (s : State) : Bool :=
  (List.range 64).all (fun n =>
    let o := 32 * n
    let size := s.get Fld.GL_WIN_CTL_SIZE o
    let base := 2 ^ 47 + s.get Fld.GL_WIN_SRC_HI_SRC o * 2 ^ 32 + s.get Fld.GL_WIN_SRC_LO_SRC o * 2 ^ 12
    !s.flag Fld.GL_WIN_CTL_EN o || (decide (12 ≤ size) && decide (size ≤ 47) && base % 2 ^ size == 0))

/-- The check of a group's shadow. -/
def State.groupOk (s : State) (g : Nat) : Bool :=
  match g with
  | 0 => s.credOk
  | 1 => s.shareOk
  | 5 => s.envOk
  | 6 => s.winOk
  | _ => true

/-- Fill the Prompt buckets whose registers were written since the PS group's last commit (07 R236). -/
def State.refillWritten (s : State) : State :=
  let w := s.prompt.written
  let s := if w.contains Reg.PS_DIEBUD then s.modPrompt (fun x => { x with die := s.dieFull }) else s
  let s := s.modPrompt (fun x => { x with
    groups := x.groups.filter (fun kv => !w.contains (Reg.PS_GBUD + 16 * kv.1))
    portsB := x.portsB.filter (fun kv => !w.contains (Reg.PS_PORT + 4 * kv.1)) })
  s.modPrompt (fun x => { x with written := [], empty := x.empty.filter (fun b => !s.bucketIsFull b) })

/-- One group takes its shadow. -/
def State.takeGroup (s : State) (g : Nat) : State :=
  let s := if g = 4 then s.fillPrompt else s
  let s := (s.regs.map (·.1)).foldl (fun s a =>
    match findReg a with
    | some (d, _) => if groupOf d == some g then s.copyFields d a .commit else s
    | none => s) s
  if g = 4 then s.refillWritten else if g = 5 then s.hdrCheck else s

/-- Commit the groups of a list, or refuse with the lowest that fails; answers whether it was done. -/
def State.commitGroups (s : State) (gs : List Nat) : Bool × State :=
  match gs.find? (fun g => !s.groupOk g) with
  | some g => (false, s.lgSts (fun w => hcause 6 (bitsSet (bitsSet w 12 1 1) 13 3 g)))
  | none => (true, foldN s gs State.takeGroup)

/-- A write of LG_COMMIT (R434, R435). (log 101, DEDUCED) -/
def State.commit (s : State) (v : Word32) : State :=
  let st := s.get Fld.LG_STS_STATE
  if v.getLsbD 8 then
    if s.flag Fld.LG_STS_OUT && st != 1 then (s.commitGroups (wordBits (v &&& 0xFF#32))).2
    else s.lgSts (fun w => bitsSet w 12 1 1)
  else if st ≠ 2 then s.lgSts (fun w => hcause 5 (bitsSet w 12 1 1))
  else
    let r := s.commitGroups (List.range 8)
    if !r.1 then r.2
    else
      let s := r.2.setReg Reg.LG_SEQ (BitVec.ofNat 32 r.2.ledger.seq)
      let s := if s.boot.committed then s else (s.put Fld.GL_CTL_QUIET 0).modBoot (fun b => { b with committed := true })
      s.lgSts (fun w =>
        let w := bitsSet w 0 3 3
        if w.getLsbD 3 then w else if s.outputsFree then outOn w else bitsSet w 4 3 7)

end Sys2Proof.Machine
end

