-- ==== Sys2Proof/Machine/Aes.lean ====
section
/-! DEFINITION. AES (FIPS 197), the GHASH product (NIST SP 800-38D) and the CMAC subkeys (NIST SP 800-38B), which R102
and R103 name (03_instruction_reference.md). -/

namespace Sys2Proof.Machine

/-! ### GF(2^8) and the S-box -/

/-- Multiply by x modulo x^8 + x^4 + x^3 + x + 1. -/
def xtime (a : Byte) : Byte := if a.getLsbD 7 then (a <<< 1) ^^^ 0x1B#8 else a <<< 1

/-- The product in GF(2^8), taken over the low `n` bits of `b`. -/
def gmulBits : Nat → Byte → Byte → Byte
  | 0, _, _ => 0
  | n + 1, a, b => (if b.getLsbD 0 then a else 0) ^^^ gmulBits n (xtime a) (b >>> 1)

def gmul (a b : Byte) : Byte := gmulBits 8 a b

/-- The inverse, as the 254th power; 0 of 0. -/
def ginv (a : Byte) : Byte :=
  let a2 := gmul a a
  let a3 := gmul a2 a
  let a12 := gmul (gmul a3 a3) (gmul a3 a3)
  let a15 := gmul a12 a3
  let a30 := gmul a15 a15
  let a60 := gmul a30 a30
  let a120 := gmul a60 a60
  let a126 := gmul a120 (gmul a3 a3)
  gmul (gmul a126 a) (gmul a126 a)

/-- The S-box: the inverse, then the affine map. -/
def sbox (a : Byte) : Byte :=
  let b := ginv a
  b ^^^ b.rotateLeft 1 ^^^ b.rotateLeft 2 ^^^ b.rotateLeft 3 ^^^ b.rotateLeft 4 ^^^ 0x63#8

/-! ### Key expansion -/

def xorBytes (a b : List Byte) : List Byte := List.zipWith (· ^^^ ·) a b

/-- The last word of the schedule so far, turned into the word that the next one starts from: `i` is the index of the
next word and `nk` the key's words. -/
def keyWord (nk i : Nat) (rc : Byte) (last : List Byte) : List Byte :=
  if i % nk = 0 then xorBytes (((last.drop 1) ++ (last.take 1)).map sbox) [rc, 0, 0, 0]
  else if nk = 8 ∧ i % nk = 4 then last.map sbox
  else last

/-- Expand `k` further words from word `i` on; the schedule is a list of bytes. -/
def expandKey (nk : Nat) : Nat → Nat → Byte → List Byte → List Byte
  | 0, _, _, ks => ks
  | k + 1, i, rc, ks =>
    let w := xorBytes (slice ks (4 * (i - nk)) 4) (keyWord nk i rc (slice ks (4 * (i - 1)) 4))
    expandKey nk k (i + 1) (if i % nk = 0 then xtime rc else rc) (ks ++ w)

/-- The key schedule: 176 bytes for a 16-byte key, 240 for a 32-byte key. -/
def aesSchedule (key : List Byte) : List Byte :=
  let nk := key.length / 4
  expandKey nk (4 * (nk + 7) - nk) nk 1 key

/-! ### The cipher -/

/-- SubBytes and ShiftRows: byte 4c + r comes from byte 4(c + r) + r. -/
def subShift (st : List Byte) : List Byte :=
  (List.range 16).map (fun i => sbox (byteAt st ((i + 4 * (i % 4)) % 16)))

/-- MixColumns on one column. -/
def mixColumn (c : List Byte) : List Byte :=
  (List.range 4).map (fun r => xtime (byteAt c r) ^^^ (xtime (byteAt c ((r + 1) % 4)) ^^^ byteAt c ((r + 1) % 4)) ^^^
    byteAt c ((r + 2) % 4) ^^^ byteAt c ((r + 3) % 4))

def mixColumns (st : List Byte) : List Byte := (List.range 4).flatMap (fun c => mixColumn (slice st (4 * c) 4))

/-- The rounds after the first key addition, from round `i` on; the last leaves MixColumns out. -/
def aesRounds (ks : List Byte) : Nat → Nat → List Byte → List Byte
  | 0, _, st => st
  | 1, i, st => xorBytes (subShift st) (slice ks (16 * i) 16)
  | k + 2, i, st => aesRounds ks (k + 1) (i + 1) (xorBytes (mixColumns (subShift st)) (slice ks (16 * i) 16))

/-- Encrypt one block; `rounds` is 10 or 14. -/
def aesEncrypt (rounds : Nat) (ks : List Byte) (blk : List Byte) : List Byte :=
  aesRounds ks rounds 1 (xorBytes blk (ks.take 16))

/-! ### GHASH and counters -/

abbrev Blk := BitVec 128

def blkOf (bs : List Byte) : Blk := BitVec.ofNat 128 (beNat bs)
def blkBytes (b : Blk) : List Byte := beBytes 16 b.toNat

/-- The product of GCM: `x`'s bits from the most significant down. -/
def ghashMulBits : Nat → Blk → Blk → Blk → Blk
  | 0, _, _, z => z
  | n + 1, x, v, z =>
    ghashMulBits n (x <<< 1) (if v.getLsbD 0 then (v >>> 1) ^^^ (0xE1#128 <<< 120) else v >>> 1)
      (if x.getLsbD 127 then z ^^^ v else z)

def ghashMul (x y : Blk) : Blk := ghashMulBits 128 x y 0

/-- Add 1 to the low 32 bits of a counter block. -/
def inc32 (b : Blk) : Blk := BitVec.ofNat 128 (b.toNat / 2 ^ 32 * 2 ^ 32 + (b.toNat % 2 ^ 32 + 1) % 2 ^ 32)

/-- A partial block padded with zeros. -/
def padZero (bs : List Byte) : List Byte := bs ++ List.replicate (16 - bs.length) 0

/-! ### CMAC subkeys -/

def dblBlk (b : Blk) : Blk := if b.getLsbD 127 then (b <<< 1) ^^^ 0x87#128 else b <<< 1

/-- A last block that is not full, padded by a one bit and zeros. -/
def padOne (bs : List Byte) : List Byte := padZero (bs ++ [0x80])

end Sys2Proof.Machine
end

