-- ==== Sys2Proof/Machine/Sha.lean ====
section
/-! DEFINITION. SHA-256 and SHA-384 block functions of FIPS 180-4, which R104 names (03_instruction_reference.md). -/

namespace Sys2Proof.Machine

/-- The round constants of SHA-384; those of SHA-256 are the high halves of the first 64. -/
def shaK : List Word :=
  [0x428A2F98D728AE22, 0x7137449123EF65CD, 0xB5C0FBCFEC4D3B2F, 0xE9B5DBA58189DBBC, 0x3956C25BF348B538, 0x59F111F1B605D019, 0x923F82A4AF194F9B, 0xAB1C5ED5DA6D8118] ++
  [0xD807AA98A3030242, 0x12835B0145706FBE, 0x243185BE4EE4B28C, 0x550C7DC3D5FFB4E2, 0x72BE5D74F27B896F, 0x80DEB1FE3B1696B1, 0x9BDC06A725C71235, 0xC19BF174CF692694] ++
  [0xE49B69C19EF14AD2, 0xEFBE4786384F25E3, 0x0FC19DC68B8CD5B5, 0x240CA1CC77AC9C65, 0x2DE92C6F592B0275, 0x4A7484AA6EA6E483, 0x5CB0A9DCBD41FBD4, 0x76F988DA831153B5] ++
  [0x983E5152EE66DFAB, 0xA831C66D2DB43210, 0xB00327C898FB213F, 0xBF597FC7BEEF0EE4, 0xC6E00BF33DA88FC2, 0xD5A79147930AA725, 0x06CA6351E003826F, 0x142929670A0E6E70] ++
  [0x27B70A8546D22FFC, 0x2E1B21385C26C926, 0x4D2C6DFC5AC42AED, 0x53380D139D95B3DF, 0x650A73548BAF63DE, 0x766A0ABB3C77B2A8, 0x81C2C92E47EDAEE6, 0x92722C851482353B] ++
  [0xA2BFE8A14CF10364, 0xA81A664BBC423001, 0xC24B8B70D0F89791, 0xC76C51A30654BE30, 0xD192E819D6EF5218, 0xD69906245565A910, 0xF40E35855771202A, 0x106AA07032BBD1B8] ++
  [0x19A4C116B8D2D0C8, 0x1E376C085141AB53, 0x2748774CDF8EEB99, 0x34B0BCB5E19B48A8, 0x391C0CB3C5C95A63, 0x4ED8AA4AE3418ACB, 0x5B9CCA4F7763E373, 0x682E6FF3D6B2B8A3] ++
  [0x748F82EE5DEFB2FC, 0x78A5636F43172F60, 0x84C87814A1F0AB72, 0x8CC702081A6439EC, 0x90BEFFFA23631E28, 0xA4506CEBDE82BDE9, 0xBEF9A3F7B2C67915, 0xC67178F2E372532B] ++
  [0xCA273ECEEA26619C, 0xD186B8C721C0C207, 0xEADA7DD6CDE0EB1E, 0xF57D4F7FEE6ED178, 0x06F067AA72176FBA, 0x0A637DC5A2C898A6, 0x113F9804BEF90DAE, 0x1B710B35131C471B] ++
  [0x28DB77F523047D84, 0x32CAAB7B40C72493, 0x3C9EBE0A15C9BEBC, 0x431D67C49C100D4C, 0x4CC5D4BECB3E42B6, 0x597F299CFC657E2A, 0x5FCB6FAB3AD6FAEC, 0x6C44198C4A475817]

/-- Fraction bits of the square roots of the first sixteen primes: the high halves of the first eight start SHA-256,
the last eight start SHA-384. -/
def shaRoots : List Word :=
  [0x6A09E667F3BCC908, 0xBB67AE8584CAA73B, 0x3C6EF372FE94F82B, 0xA54FF53A5F1D36F1, 0x510E527FADE682D1, 0x9B05688C2B3E6C1F, 0x1F83D9ABFB41BD6B, 0x5BE0CD19137E2179] ++
  [0xCBBB9D5DC1059ED8, 0x629A292A367CD507, 0x9159015A3070DD17, 0x152FECD8F70E5939, 0x67332667FFC00B31, 0x8EB44A8768581511, 0xDB0C2E0D64F98FA7, 0x47B5481DBEFA4FA4]

/-- The initial hash values. -/
def sha256Init : List Word32 := (shaRoots.take 8).map (fun (w : Word) => BitVec.setWidth 32 (w >>> 32))
def sha384Init : List Word := shaRoots.drop 8

/-- The state of a round: eight words. -/
abbrev Oct (n : Nat) := List (BitVec n)

/-- The rotations and shifts that the two functions differ in: for the two sums and the two schedule functions. -/
structure ShaRot where
  s0 : Nat × Nat × Nat
  s1 : Nat × Nat × Nat
  m0 : Nat × Nat × Nat
  m1 : Nat × Nat × Nat
  deriving DecidableEq, Repr

def rot256 : ShaRot := ⟨(2, 13, 22), (6, 11, 25), (7, 18, 3), (17, 19, 10)⟩
def rot512 : ShaRot := ⟨(28, 34, 39), (14, 18, 41), (1, 8, 7), (19, 61, 6)⟩

def bigSum {n : Nat} (r : Nat × Nat × Nat) (x : BitVec n) : BitVec n :=
  x.rotateRight r.1 ^^^ x.rotateRight r.2.1 ^^^ x.rotateRight r.2.2
def smallSum {n : Nat} (r : Nat × Nat × Nat) (x : BitVec n) : BitVec n :=
  x.rotateRight r.1 ^^^ x.rotateRight r.2.1 ^^^ (x >>> r.2.2)

/-- Extend the message schedule by `k` words; the newest word stands first. -/
def shaExtend {n : Nat} (r : ShaRot) : Nat → List (BitVec n) → List (BitVec n)
  | 0, w => w
  | k + 1, w =>
    shaExtend r k ((smallSum r.m1 (w.getD 1 0) + w.getD 6 0 + smallSum r.m0 (w.getD 14 0) + w.getD 15 0) :: w)

/-- One round. -/
def shaRound {n : Nat} (r : ShaRot) (v : Oct n) (k w : BitVec n) : Oct n :=
  let g (i : Nat) : BitVec n := v.getD i 0
  let t1 := g 7 + bigSum r.s1 (g 4) + ((g 4 &&& g 5) ^^^ (~~~ (g 4) &&& g 6)) + k + w
  let t2 := bigSum r.s0 (g 0) + ((g 0 &&& g 1) ^^^ (g 0 &&& g 2) ^^^ (g 1 &&& g 2))
  [t1 + t2, g 0, g 1, g 2, g 3 + t1, g 4, g 5, g 6]

def shaRounds {n : Nat} (r : ShaRot) : List (BitVec n) → List (BitVec n) → Oct n → Oct n
  | k :: ks, w :: ws, v => shaRounds r ks ws (shaRound r v k w)
  | _, _, v => v

/-- The hash value after one block of sixteen words. -/
def shaBlock {n : Nat} (r : ShaRot) (ks : List (BitVec n)) (h : Oct n) (m : List (BitVec n)) : Oct n :=
  let w := (shaExtend r (ks.length - 16) m.reverse).reverse
  List.zipWith (fun a b => a + b) h (shaRounds r ks w h)

def sha256Block (h m : List Word32) : List Word32 :=
  shaBlock rot256 ((shaK.take 64).map (fun (w : Word) => BitVec.setWidth 32 (w >>> 32))) h m
def sha384Block (h m : List Word) : List Word := shaBlock rot512 shaK h m

/-- Big-endian words of `k` bytes each. -/
def beWords (n k : Nat) : Nat → List Byte → List (BitVec n)
  | 0, _ => []
  | c + 1, bs => BitVec.ofNat n (beNat (bs.take k)) :: beWords n k c (bs.drop k)

/-- Little-endian words of `k` bytes each. -/
def leWords (n k : Nat) : Nat → List Byte → List (BitVec n)
  | 0, _ => []
  | c + 1, bs => BitVec.ofNat n (leNat (bs.take k)) :: leWords n k c (bs.drop k)

/-- The padding of FIPS 180-4 for a message of `len` bytes, to a multiple of `blk` bytes. -/
def shaPad (blk len : Nat) : List Byte :=
  let l := if blk = 64 then 8 else 16
  0x80 :: List.replicate ((2 * blk - 1 - l - len % blk) % blk) 0 ++ beBytes l (8 * len)

/-- Hash the blocks of a padded message. -/
def sha384Blocks : Nat → List Word → List Byte → List Word
  | 0, h, _ => h
  | n + 1, h, bs => sha384Blocks n (sha384Block h (beWords 64 8 16 (bs.take 128))) (bs.drop 128)

/-- SHA-384 of a message. -/
def sha384 (bs : List Byte) : List Byte :=
  let p := bs ++ shaPad 128 bs.length
  ((sha384Blocks (p.length / 128) sha384Init p).take 6).flatMap (fun w => beBytes 8 w.toNat)

end Sys2Proof.Machine
end

