-- ==== Sys2Proof/Machine/Crypto.lean ====
section
/-! DEFINITION. AES-256-GCM decryption of the Attar patch and ECDSA P-384 verification, as FIPS 186-5 and SP 800-38D give
them (13_boot_attar_ledger.md R418, R427). -/

namespace Sys2Proof.Machine

/-! ### AES-256-GCM -/

/-- A byte list cut into blocks of 16, the last one padded with zeros. -/
def gcmBlocks : Nat → List Byte → List Blk
  | 0, _ => []
  | n + 1, bs => blkOf (padZero (bs.take 16)) :: gcmBlocks n (bs.drop 16)

def ghash (h : Blk) (xs : List Blk) : Blk := xs.foldl (fun y x => ghashMul (y ^^^ x) h) 0

/-- The key stream for `n` blocks from a counter block. -/
def ctrStream (ks : List Byte) : Nat → Blk → List Byte
  | 0, _ => []
  | n + 1, c => aesEncrypt 14 ks (blkBytes c) ++ ctrStream ks n (inc32 c)

/-- Decrypt and check the tag: the plaintext, where the tag agrees. -/
def gcmOpen (key iv aad ct tag : List Byte) : Option (List Byte) :=
  let ks := aesSchedule key
  let h := blkOf (aesEncrypt 14 ks (List.replicate 16 0))
  let j0 := blkOf (iv ++ [0, 0, 0, 1])
  let nb (n : Nat) : Nat := (n + 15) / 16
  let lens := BitVec.ofNat 128 (aad.length * 8 * 2 ^ 64 + ct.length * 8)
  let y := ghash h (gcmBlocks (nb aad.length) aad ++ gcmBlocks (nb ct.length) ct ++ [lens])
  let t := xorBytes (blkBytes y) (aesEncrypt 14 ks (blkBytes j0))
  if t = tag then some (xorBytes ct (ctrStream ks (nb ct.length) (inc32 j0))) else none

/-! ### P-384 -/

def p384P : Nat := 2 ^ 384 - 2 ^ 128 - 2 ^ 96 + 2 ^ 32 - 1
def p384N : Nat := 0xffffffffffffffffffffffffffffffffffffffffffffffffc7634d81f4372ddf581a0db248b0a77aecec196accc52973
def p384B : Nat := 0xb3312fa7e23ee7e4988e056be3f82d19181d9c6efe8141120314088f5013875ac656398d8a2ed19d2a85c8edd3ec2aef
def p384G : Nat × Nat :=
  (0xaa87ca22be8b05378eb1c71ef320ad746e1d3b628ba79b9859f741e082542a385502f25dbf55296c3a545e3872760ab7,
   0x3617de4a96262c6f5d9e98bf9292dc29f8f41dbd289a147ce9da3113b5f0b8c00a60b1ce1d7e819d7a431d7c90ea0e5f)

/-- `b ^ e mod m`; `n` bounds the bits of `e`. -/
def powMod (m : Nat) : Nat → Nat → Nat → Nat
  | 0, _, _ => 1 % m
  | n + 1, b, e =>
    let r := powMod m n (b * b % m) (e / 2)
    if e % 2 = 1 then r * b % m else r

/-- The inverse modulo a prime below 2^384. -/
def invMod (m a : Nat) : Nat := powMod m 384 (a % m) (m - 2)

/-- `a - b mod m` for `b < m`. -/
def subMod (m a b : Nat) : Nat := (a + (m - b % m)) % m

/-- The chord or tangent through two points of the curve; none is the point at infinity. -/
def ecAdd (p q : Option (Nat × Nat)) : Option (Nat × Nat) :=
  match p, q with
  | none, q => q
  | p, none => p
  | some (x1, y1), some (x2, y2) =>
    if x1 = x2 ∧ (y1 + y2) % p384P = 0 then none
    else
      let l := if x1 = x2 then subMod p384P (3 * x1 * x1) 3 * invMod p384P (2 * y1) % p384P
        else subMod p384P y2 y1 * invMod p384P (subMod p384P x2 x1) % p384P
      let x3 := subMod p384P (subMod p384P (l * l) x1) x2
      some (x3, subMod p384P (l * subMod p384P x1 x3) y1)

/-- `k` times a point; `n` bounds the bits of `k`. -/
def ecMul : Nat → Nat → Option (Nat × Nat) → Option (Nat × Nat)
  | 0, _, _ => none
  | n + 1, k, p =>
    let r := ecMul n (k / 2) (ecAdd p p)
    if k % 2 = 1 then ecAdd r p else r

/-- A point lies on the curve, with its coordinates in range. -/
def onCurve (q : Nat × Nat) : Bool :=
  decide (q.1 < p384P) && decide (q.2 < p384P) &&
    (q.2 * q.2 % p384P == subMod p384P (q.1 * q.1 * q.1 + p384B) (3 * q.1))

/-- The ECDSA P-384 signature verifies under the key (96 bytes, x then y) over the SHA-384 of a message. -/
def ecdsaOk (key sig msg : List Byte) : Bool :=
  let q := (beNat (key.take 48), beNat (slice key 48 48))
  let r := beNat (sig.take 48)
  let v := beNat (slice sig 48 48)
  if !onCurve q || r = 0 || v = 0 || p384N ≤ r || p384N ≤ v then false
  else
    let w := invMod p384N v
    match ecAdd (ecMul 384 (beNat (sha384 msg) * w % p384N) (some p384G)) (ecMul 384 (r * w % p384N) (some q)) with
    | none => false
    | some (x, _) => x % p384N == r

end Sys2Proof.Machine
end

