-- ==== Sys2Proof/Machine/Boot.lean ====
section
/-! DEFINITION. The boot image, the Attar patch and the checks of a Ledger (13_boot_attar_ledger.md R417 to R422, R427 to
R432). -/

namespace Sys2Proof.Machine

/-- A little-endian field of a byte list. -/
def leAt (bs : List Byte) (i n : Nat) : Nat := leNat (slice bs i n)

/-! ### The boot image (R417 to R421) -/

/-- A section-table entry. -/
structure Section where
  ty   : Nat
  off  : Nat
  len  : Nat
  dest : Nat
  deriving DecidableEq, Repr

def sectionAt (img : List Byte) (i : Nat) : Section :=
  let o := 0x80 + 16 * i
  ⟨leAt img o 1, leAt img (o + 4) 4, leAt img (o + 8) 4, leAt img (o + 12) 4⟩

/-- The sections in use. -/
def sectionsOf (img : List Byte) : List Section := (List.range (min 8 (leAt img 6 2))).map (sectionAt img)

/-- The limits of one section's type. -/
def sectionTypeOk (entry : Nat) (x : Section) : Bool :=
  match x.ty with
  | 1 => decide (x.dest + x.len ≤ 0x8000) && x.dest % 4 == 0 && x.len % 4 == 0 && entry % 4 == 0 &&
      decide (x.dest ≤ entry) && decide (entry < x.dest + x.len)
  | 2 => decide (x.dest + x.len ≤ 0x8000)
  | 3 => decide (x.dest + x.len ≤ 0x40000)
  | 4 => x.off % 64 == 0 && x.dest == 0
  | 5 => x.off % 64 == 0 && x.dest == 0
  | 6 => x.dest == 0
  | _ => false

/-- No two sections overlap. -/
def disjointSections : List Section → Bool
  | [] => true
  | x :: r => r.all (fun y => decide (x.off + x.len ≤ y.off) || decide (y.off + y.len ≤ x.off)) && disjointSections r

/-- The section table obeys every limit (check 5). -/
def sectionsOk (img : List Byte) : Bool :=
  let n := leAt img 6 2
  let xs := sectionsOf img
  let count (t : Nat) : Nat := (xs.filter (fun x => x.ty == t)).length
  decide (1 ≤ n) && decide (n ≤ 8) &&
  ((List.range 8).drop n).all (fun i => (sectionAt img i).ty == 0) &&
  xs.all (fun x => sectionTypeOk (leAt img 0x10 4) x && x.off % 8 == 0 && decide (0x100 ≤ x.off) &&
    decide (x.off + x.len ≤ leAt img 0x0C 4)) &&
  count 1 == 1 && decide (count 2 ≤ 1) && decide (count 3 ≤ 1) && decide (count 4 ≤ 1) && decide (count 5 ≤ 1) &&
  disjointSections xs

/-- The checks of R418 in their order: 0, or ERR of the first that fails. (log 103, DEDUCED) -/
def State.imageErr (s : State) (img : List Byte) : Nat :=
  let len := s.get Fld.LG_BOOTLEN_BYTES
  let sig := leAt img 0x0C 4
  let debug := s.flag Fld.LG_BOOT_DEBUG
  if leAt img 0 4 ≠ 0x84101A0B ∨ leAt img 4 2 ≠ 1 then 1
  else if len < 512 ∨ 0x1000000 < len ∨ leAt img 8 4 ≠ len ∨ sig ≠ len - 96 then 2
  else if !debug && !(s.flag Fld.GL_SEC_RKEY && sha384 (slice img 0x20 96) == s.fuses.rootHash) then 3
  else if !debug && !ecdsaOk (slice img 0x20 96) (slice img sig 96) (img.take sig) then 4
  else if !sectionsOk img then 6
  else 0

/-- A write of 1 to LG_BOOT.GO (R417, R416): the steward's ROM loop acts on it, so the steward is Ready from then on (R466). (log 4, DESIGN CHOICE) -/
def State.bootGo (s : State) : State :=
  let st := s.get Fld.LG_BOOT_STATE
  if (st = 1 ∨ st = 3) ∧ !s.power.faults.contains 3 then
    (s.bootState 2 0).modThr steward (fun th => { th with tstate := .ready, waitAt := none })
  else s

/-- Copy a section of type 1, 2 or 3 to its place. -/
def State.placeSection (s : State) (img : List Byte) (x : Section) : State :=
  let bs := slice img x.off x.len
  match x.ty with
  | 1 => s.store none (isramBase 0 + x.dest) bs
  | 2 => s.store none (dsramBase 0 + x.dest) bs
  | 3 => s.store none (clusterBase 0 + x.dest) bs
  | _ => s

/-- Offset and length of the section of a type in its two registers; 0 where there is none. -/
def State.noteSection (s : State) (xs : List Section) (ty off len : Nat) : State :=
  match xs.find? (fun x => x.ty == ty) with
  | some x => (s.setReg off (BitVec.ofNat 32 x.off)).setReg len (BitVec.ofNat 32 x.len)
  | none => (s.setReg off 0).setReg len 0

/-- The steward executes IFENCE and branches to ENTRY (R421). -/
def State.startFirmware (s : State) (entry len : Nat) : State :=
  ((s.lbClear 0).setCaches 0 { s.cacheOf 0 with ilines := [] }).modThr steward (fun th =>
    let z : Thread := { th with regs := Vector.replicate 32 0 }
    let z := ((z.set 1 (BitVec.ofNat 64 frameBase)).set 2 (BitVec.ofNat 64 len)).set 30 0x8000
    { z with
      st := 8, pc := BitVec.ofNat 32 entry, tstate := .ready, waitAt := none, resume := none, hostGot := [], fetchQ := [] })

/-- VERIFICATION (R418 to R421). (log 4, DESIGN CHOICE) -/
def execVerification (s : State) : Host.Outcome State Fault Refusal :=
  if s.get Fld.LG_BOOT_STATE ≠ 2 ∨ !s.dieOn then .next s
  else
    let r := s.hostBytes frameBase (max 256 (s.get Fld.LG_BOOTLEN_BYTES))
    let img := r.1
    let err := r.2.imageErr img
    if err ≠ 0 then device ((r.2.bootState 3 err).msixSend 0)
    else
      let xs := sectionsOf img
      let s := xs.foldl (fun s x => s.placeSection img x) r.2
      let s := s.noteSection xs 4 Reg.LG_BPATCH_OFF Reg.LG_BPATCH_LEN
      let s := s.noteSection xs 5 Reg.LG_BLDG_OFF Reg.LG_BLDG_LEN
      let s := if xs.any (fun x => x.ty == 5) then s else s.lgSts (hcause 1)
      device ((s.bootState 4 0).startFirmware (leAt img 0x10 4) img.length)

/-! ### The Attar patch (R427) -/

/-- The words of a byte list. (log 14, DESIGN CHOICE) -/
def wordsLe : Nat → List Byte → List Word32
  | 0, _ => []
  | n + 1, bs => BitVec.ofNat 32 (leNat (bs.take 4)) :: wordsLe n (bs.drop 4)

/-- The container's checks in their order: its plaintext, or ERR. (log 104, DEDUCED) -/
def State.openPatch (s : State) (c : List Byte) : Nat × List Byte :=
  let nw := leAt c 8 2
  let len := 0x130 + 128 + 4 * nw + 96
  if leAt c 0 4 ≠ 0x8410A77A then (1, [])
  else if leAt c 4 2 ≠ s.get Fld.AT_ID_ROMREV then (2, [])
  else if 1024 < nw ∨ 32 < leAt c 0x0A 2 ∨ leAt c 0x0C 4 ≠ len ∨ c.length ≠ len then (1, [])
  else
    let key := s.fuses.patchKey ++ List.replicate (32 - s.fuses.patchKey.length) 0
    match gcmOpen (key.take 32) (slice c 0x10 12) (c.take 0x130) (slice c 0x130 (128 + 4 * nw)) (slice c 0x80 16) with
    | some p => (0, p)
    | none => (3, [])

/-- A write of AT_PLOAD: it acts once after each reset. (log 103, DEDUCED; log 104, DEDUCED; log 105, DESIGN CHOICE) -/
def State.patchLoad (s : State) (v : Word32) : State :=
  if s.attar.acted then s.put Fld.AT_STS_ERR 4
  else
    let s := s.modAttar (fun x => { x with acted := true })
    let n := s.get Fld.AT_PLEN_BYTES
    match blockRef v with
    | none => s.put Fld.AT_STS_ERR 1
    | some a =>
      if n < 0x130 ∨ !blockPlace a n then s.put Fld.AT_STS_ERR 1
      else
        let r := s.hostBytes a n
        let p := r.2.openPatch r.1
        if p.1 ≠ 0 then r.2.put Fld.AT_STS_ERR p.1
        else
          let m : AttarCopy := ⟨wordsLe (leAt r.1 8 2) (p.2.drop 128), wordsLe 32 p.2⟩
          let s := ((r.2.modAttar (fun x => { x with master := m })).masterChanged.put Fld.AT_STS_LOADED 1).put Fld.AT_ID_PATCHREV
            (leAt r.1 6 2)
          (s.put Fld.AT_STS_ERR 0).copyAsk 1 (List.range 64)

/-- COPY_WRITE_END (R429): the copy holds the master, and the cores resume; a Metered pair that the write held is free. (log 106, DEDUCED) -/
def execCopyWriteEnd (cl : ClusterId) (s : State) : Host.Outcome State Fault Refusal :=
  let n := cl.toNat
  match s.attar.writing with
  | some (c, why) =>
    if c ≠ n then .next s
    else
      let bad := s.flag Fld.AT_STS_MERR
      let s := s.modAttar (fun x => { x with
        writing := none, copies := if bad then tblDel x.copies n else tblPut x.copies n x.master })
      let s := s.setLoaded n (!bad)
      let s := if why = 2 then s.bump Fld.AT_CNT_RELOAD_COUNT else s
      let s := if s.meteredRole then foldN s (clusterPairs n) State.freePair else s
      device (s.copyPump.reloadBusy)
  | none => .next s

/-! ### The Ledger (R431) -/

/-- Parse `n` records, the last of which is END at the end of the list: none where the structure is wrong. -/
def ledgerRecs : Nat → List Byte → Option (List LedgerRec)
  | 0, _ => none
  | n + 1, bs =>
    let ty := leAt bs 0 1
    let addr := leAt bs 1 3
    let count := leAt bs 4 2
    if bs.length < 8 ∨ leAt bs 6 2 ≠ 0 ∨ addr % 4 ≠ 0 then none
    else if ty = 0xFF then
      (if n = 0 ∧ count = 0 ∧ bs.length = 8 then some [⟨0xFF, addr, 0, []⟩] else none)
    else
      let words := match ty with
        | 1 => if 1 ≤ count then some count else none
        | 2 => if count = 1 then some 2 else none
        | 3 => if 1 ≤ count then some 2 else none
        | _ => none
      match words with
      | none => none
      | some k =>
        let size := 8 + (4 * k + 7) / 8 * 8
        if bs.length < size then none
        else (ledgerRecs n (bs.drop size)).map (fun r => ⟨ty, addr, count, wordsLe k (bs.drop 8)⟩ :: r)

/-- The checks of a Ledger in their order: FAIL, or its records. (log 102, DEDUCED) -/
def State.checkLedger (s : State) (bs : List Byte) : Nat × List LedgerRec :=
  let len := leAt bs 0x0C 4
  if bs.length < 32 ∨ leAt bs 0 4 ≠ 0x84104C47 ∨ leAt bs 4 2 ≠ 1 ∨ len ≠ bs.length ∨ len % 8 ≠ 0 ∨ 0x100000 < len then
    (1, [])
  else
    match ledgerRecs (leAt bs 0x10 4) (bs.drop 32) with
    | none => (1, [])
    | some rs =>
      if (crc32c 0 (splice bs 0x14 [0, 0, 0, 0])).toNat ≠ leAt bs 0x14 4 then (2, [])
      else if leAt bs 8 4 ≤ s.get Fld.LG_SEQ_SEQ then (3, [])
      else (0, rs)

/-- A write of LG_APPLY (R431). (log 102, DEDUCED) -/
def State.apply (s : State) (v : Word32) : State :=
  if s.get Fld.LG_STS_STATE = 1 then s.lgSts (fun w => bitsSet w 16 1 1)
  else
    let s := s.lgSts (fun w => hcause 1 (bitsSet (bitsSet (bitsSet w 0 3 1) 8 3 0) 11 1 0))
    let n := s.get Fld.LG_LLEN_BYTES
    let fail (s : State) (f : Nat) : State := s.lgSts (fun w => hcause f (bitsSet (bitsSet w 0 3 4) 8 3 f))
    match blockRef v with
    | none => fail s 1
    | some a =>
      if n < 32 ∨ !blockPlace a n then fail s 1
      else
        let r := s.hostBytes a n
        let c := r.2.checkLedger r.1
        if c.1 ≠ 0 then fail r.2 c.1
        else r.2.modLedger (fun _ => { recs := c.2, seq := leAt r.1 8 4 })

end Sys2Proof.Machine
end

