-- ==== Sys2Proof/Machine/Branch.lean ====
section
/-! DEFINITION. Branches (03 R77; 02 R62; 04 R120, R121). -/

namespace Sys2Proof.Machine

/-- B and BL: always taken, the target relative to the branch word. -/
def relBody (t : Tid) (off : BitVec 24) (link : Bool) : M Next := do
  let th ← look (fun s => s.thr t.toNat)
  let tgt := branchTarget th.pc off
  change (fun s =>
    let s := if link then s.setG t.toNat 31 ((th.pc + 4).setWidth 64) else s
    if link then s.lbTransfer t.toNat tgt else s.lbTaken t.toNat th.pc tgt)
  pure (.jump tgt)

/-- BR and BLR: the target is the low half of ra, read before lk is written; it must be a word address (02 R62). -/
def regBranchBody (t : Tid) (ra : RegNo) (link : Bool) : M Next := do
  let th ← look (fun s => s.thr t.toNat)
  let tgt : Word32 := (th.get ra).setWidth 32
  if tgt.toNat % 4 ≠ 0 then raiseA xAlign tgt.toNat
  else do
    change (fun s =>
      let s := if link then s.setG t.toNat 31 ((th.pc + 4).setWidth 64) else s
      s.lbTransfer t.toNat tgt)
    pure (.jump tgt)

/-- A conditional branch (03 R77). -/
def condBody (t : Tid) (ra rb : RegNo) (off : BitVec 14) (cond : Word → Word → Bool) : M Next := do
  let th ← look (fun s => s.thr t.toNat)
  let tgt := branchTarget th.pc off
  if cond (th.get ra) (th.get rb) then do
    change (fun s => s.lbTaken t.toNat th.pc tgt)
    pure (.jump tgt)
  else do
    change (fun s => s.lbNotTaken t.toNat th.pc)
    pure .seq

/-- B (03, branch instructions). -/
def execB (t : Tid) (off : BitVec 24) (s : State) : Host.Outcome State Fault Refusal :=
  word t (.b t off) (relBody t off false) s

/-- BL (03, branch instructions). -/
def execBl (t : Tid) (off : BitVec 24) (s : State) : Host.Outcome State Fault Refusal :=
  word t (.bl t off) (relBody t off true) s

/-- BR (03, branch instructions). -/
def execBr (t : Tid) (ra : RegNo) (s : State) : Host.Outcome State Fault Refusal :=
  word t (.br t ra) (regBranchBody t ra false) s

/-- BLR (03, branch instructions). -/
def execBlr (t : Tid) (ra : RegNo) (s : State) : Host.Outcome State Fault Refusal :=
  word t (.blr t ra) (regBranchBody t ra true) s

/-- BEQ (03 R77). -/
def execBeq (t : Tid) (ra rb : RegNo) (off : BitVec 14) (s : State) : Host.Outcome State Fault Refusal :=
  word t (.beq t ra rb off) (condBody t ra rb off (fun a b => a == b)) s

/-- BNE (03 R77). -/
def execBne (t : Tid) (ra rb : RegNo) (off : BitVec 14) (s : State) : Host.Outcome State Fault Refusal :=
  word t (.bne t ra rb off) (condBody t ra rb off (fun a b => a != b)) s

/-- BLT (03 R77). -/
def execBlt (t : Tid) (ra rb : RegNo) (off : BitVec 14) (s : State) : Host.Outcome State Fault Refusal :=
  word t (.blt t ra rb off) (condBody t ra rb off (fun a b => a.slt b)) s

/-- BGE (03 R77). -/
def execBge (t : Tid) (ra rb : RegNo) (off : BitVec 14) (s : State) : Host.Outcome State Fault Refusal :=
  word t (.bge t ra rb off) (condBody t ra rb off (fun a b => !a.slt b)) s

/-- BLTU (03 R77). -/
def execBltu (t : Tid) (ra rb : RegNo) (off : BitVec 14) (s : State) : Host.Outcome State Fault Refusal :=
  word t (.bltu t ra rb off) (condBody t ra rb off (fun a b => a.ult b)) s

/-- BGEU (03 R77). -/
def execBgeu (t : Tid) (ra rb : RegNo) (off : BitVec 14) (s : State) : Host.Outcome State Fault Refusal :=
  word t (.bgeu t ra rb off) (condBody t ra rb off (fun a b => !a.ult b)) s

end Sys2Proof.Machine
end

