-- ==== Sys2Proof/Machine/CrierCmds.lean ====
section
/-! DEFINITION. Writes of the Crier's registers that act, and the end of a moderation hold-off
(09_crier_interrupts.md R296, R304, R306, R310, R317). -/

namespace Sys2Proof.Machine

/-- A write of CR_SWSETw asserts software-set sources (R296). -/
def State.swset (s : State) (w : Nat) (v : Word32) : State :=
  foldN s (wordBits v) (fun s j => s.edge (768 + 32 * w + j))

/-- A write of CR_SWCLRw withdraws them where they are still pending (R296). -/
def State.swclr (s : State) (w : Nat) (v : Word32) : State :=
  foldN s (wordBits v) (fun s j => if (s.src (768 + 32 * w + j)).pend then s.withdraw (768 + 32 * w + j) else s)

/-- Thread `t` writes the complete of a source (R310). -/
def State.endSource (s : State) (t src : Nat) : State :=
  if 256 ≤ src ∧ src < 768 then (if src = 256 + t / 4 then s.endClaim (msgKey t) t true else s)
  else s.endClaim src t true

/-- A write of the threshold of thread `t`: an offer that stands at it is kept to its next boundary (R306). -/
def State.setThreshold (s : State) (t thr : Nat) : State :=
  standOffer t s (s.put Fld.CR_THR_THR thr (16 * t))

/-- MODERATION_HOLD_OFF (R304): the hold-off of a source's first held event has passed. -/
def execModerationHoldOff (src : SourceId) (th : BitVec 2) (s : State) : Host.Outcome State Fault Refusal :=
  let n := src.toNat
  let key := if 256 ≤ n ∧ n < 768 then msgKey (4 * (n - 256) + th.toNat) else n
  let x := s.src key
  let due := s.srcHold key != 0 && decide (x.heldAt.getD s.now + 64 * s.srcHold key ≤ s.now)
  if x.pend && due then .next (s.rescan key).crierScan else .next s

end Sys2Proof.Machine
end

