-- ==== Sys2Proof/Machine/FarAnnex.lean ====
section
/-! DEFINITION. The far Annex (02 R69; 03 R110; 10 R348 to R351). -/

namespace Sys2Proof.Machine

/-- The tag word of a far-Annex request (R348). -/
def farTag (t : Nat) (seq : BitVec 5) (op : BitVec 3) (fn : BitVec 9) : Word32 :=
  BitVec.ofNat 32 (t + seq.toNat * 2 ^ 11 + (0x78 + op.toNat) * 2 ^ 16 + fn.toNat * 2 ^ 23)

/-- The six DWORDs of a far-Annex request. -/
def State.farPayload (s : State) (a b : Word) : List Word32 :=
  [BitVec.ofNat 32 (s.cfg Fld.PO_DEVNUM_DEV % 2 ^ 14 + s.get Fld.PO_DEVNUM_DIE * 65536), 0,
    a.setWidth 32, (a >>> 32).setWidth 32, b.setWidth 32, (b >>> 32).setWidth 32]

/-- A far-Annex opcode may issue: its enable is 1 and the link is active (02 R69, 10 R350). -/
def State.farOk (s : State) (op : BitVec 3) : Bool :=
  bitOf (s.get Fld.ANX_CTL_EN) op.toNat && s.linkUsable && (s.func 0).bme

/-- FARX: the request leaves, and the thread enters far-Annex wait with PC at the word. -/
def farxBody (t : Tid) (op : BitVec 3) (rd ra rb : RegNo) (fn : BitVec 9) : M Next := fun s =>
  let n := t.toNat
  let th := s.thr n
  if !s.farOk op then raiseV xAnnexUnav s
  else
    let tag := farTag n th.farSeq op fn
    let s := s.sendLink (.annex (BitVec.ofNat 16 (s.get Fld.ANX_VID_VID)) tag (s.farPayload (th.get ra) (th.get rb))) none
    let s := s.bump Fld.ANX_CNT_REQ_COUNT
    let s := s.modThr n (fun h => { h with
      tstate := .farWait, far := some { tag := tag, rd := rd, sentAt := s.link.exitAt.getD s.now }, farSeq := h.farSeq + 1 })
    .ok (.jump th.pc) (s.lbDrop n)

/-- FARX (02 R69). -/
def execFarx (t : Tid) (op : BitVec 3) (rd ra rb : RegNo) (fn : BitVec 9)
    (s : State) : Host.Outcome State Fault Refusal :=
  wordElastic t (.farx t op rd ra rb fn) (farxBody t op rd ra rb fn) s

/-- The request that a response answers: the thread it names waits for one with the same SEQ (R349). (log 52, DEDUCED) -/
def State.farMatch (s : State) (vid : BitVec 16) (tag : Word32) : Option FarReq :=
  let t := tag.toNat % 2048
  match (s.thr t).far with
  | some r =>
    if (s.thr t).tstate = .farWait ∧ bitsGet r.tag 11 5 = bitsGet tag 11 5 ∧ vid.toNat = s.get Fld.ANX_VID_VID then
      some r
    else none
  | none => none

/-- FAR_ANNEX_RESPONSE (R349): rd is written and the thread goes on, or the response is discarded as late. (log 52, DEDUCED) -/
def execFarAnnexResponse (vid : BitVec 16) (tag : Word32) (value : Word)
    (s : State) : Host.Outcome State Fault Refusal :=
  let t := tag.toNat % 2048
  match s.farMatch vid tag with
  | some r => device (s.modThr t (fun h =>
      { (h.set r.rd value) with far := none, tstate := .ready, pc := h.pc + 4 }))
  | none => device (s.bump Fld.ANX_CNT_LATE_COUNT)

/-- ANNEX_TIMEOUT (R350): the frame names the far-Annex word. -/
def execAnnexTimeout (t : Tid) (s : State) : Host.Outcome State Fault Refusal :=
  let n := t.toNat
  match (s.thr n).far with
  | some r =>
    if (s.thr n).tstate == .farWait && decide (r.sentAt + 1000 * max 1 (s.get Fld.ANX_TMO_US) ≤ s.now) then
      match takeException n { vector := xAnnexTmo } (s.thr n).pc none (s.bump Fld.ANX_CNT_TMO_COUNT) with
      | .ok _ s' => device s'
      | .error (.wait w) _ => .next (s.park n (.annexTimeout t) w)
      | .error (.raise _) s' => .next s'
    else .next s
  | none => .next s

end Sys2Proof.Machine
end

