-- ==== Sys2Proof/Machine/Regs.lean ====
section
/-! DEFINITION. Reads and writes of the registers of the I/O space, for every requester: access types, update categories,
the pairs, the registers whose value the device computes, and what a write makes happen (00_scope.md R6 to R14;
09 R309, R317; 15 R458 to R462; the field tables of chapters 04 to 13). -/

namespace Sys2Proof.Machine

/-! ### Pairs (00 R7) -/

/-- The _LO registers of the 64-bit pairs; each _HI lies 4 above. -/
def pairLows : List Nat :=
  [Reg.GL_WIN_SRC_LO, Reg.GL_WIN_DST_LO, Reg.TY_CAP_LO, Reg.TB_NOW_LO, Reg.TB_PPSCAP_LO, Reg.TB_DARK_LO, Reg.TB_STEP_LO,
   Reg.TB_SET_LO, Reg.LL_XCNT_LO, Reg.LL_ALARM_LO, Reg.AS_ACCT_LO, Reg.AS_LOG_T_LO, Reg.PT_TXTS_LO, Reg.CO_XADDR0_LO,
   Reg.CO_XADDR1_LO]

/-- The register is the _LO of a pair. -/
def isPairLo (a : Nat) : Bool :=
  match findReg a with
  | some (d, _) => pairLows.contains d.base
  | none => false

/-- The register is the _HI of a pair. -/
def isPairHi (a : Nat) : Bool := decide (4 ≤ a) && isPairLo (a - 4)

def State.pairHold (s : State) (lo : Nat) : Word32 := (tblGet s.hold lo).getD 0
def State.pairSnap (s : State) (lo : Nat) : Word32 := (tblGet s.snap lo).getD 0

/-! ### Values that the device computes -/

/-- The number of a thread state (04 R116). -/
def TState.code : TState → Nat
  | .disabled => 0 | .ready => 1 | .wait => 2 | .farWait => 3 | .halted => 4 | .meteredIdle => 5 | .meteredRun => 6

/-- A word of bits: bit j is `f j`. -/
def bitWord (n : Nat) (f : Nat → Bool) : Nat := ((List.range n).map (fun j => if f j then 2 ^ j else 0)).sum

/-- A source is pending, or claimed; a message source where one of its threads' parts is (CR_PENDw, CR_CLMDw). -/
def State.srcShown (s : State) (n : Nat) (f : Src → Bool) : Bool :=
  if 256 ≤ n ∧ n < 768 then [0, 1, 2, 3].any (fun i => f (s.src (msgKey (4 * (n - 256) + i)))) else f (s.src n)

/-- CO_STS: the bits that follow the core's state. (log 49, DEDUCED) -/
def State.coSts (s : State) (c : Nat) (w : Word32) : Word32 :=
  let w := bitsSet (bitsSet w 0 1 (b2n (s.coreRetired c))) 1 1 (b2n (s.coreMetered c))
  match (s.core c).lb with
  | some l => bitsSet (bitsSet w 2 1 1) 3 2 l.owner
  | none => w

/-- CR_MPEND_n. -/
def State.mpend (s : State) (c : Nat) : Nat :=
  bitWord 4 (fun i => !(s.thr (4 * c + i)).mailbox.isEmpty) + 16 * bitWord 4 (fun i => s.crier.que.contains (4 * c + i)) +
    256 * bitWord 4 (fun i => (s.src (msgKey (4 * c + i))).claimed == some (4 * c + i))

/-- AS_SPDAT for the bank that AS_SPIDX names. -/
def State.spareWord (s : State) : Nat :=
  let b := s.get Fld.AS_SPIDX_BANK
  if 384 ≤ b then 0
  else s.sparesLeft b + 256 * (s.assay.withdrawn.filter (fun u => rowBank u == b)).length

/-- TL_FDRN: both arbiters of a target drained; bit 16 for the escape channel of every target. (log 120, DEDUCED) -/
def State.fabricDrained (s : State) : Nat :=
  bitWord 12 (fun t => s.drained (.fabric (BitVec.ofNat 4 t) 0) && s.drained (.fabric (BitVec.ofNat 4 t) 1)) +
    65536 * b2n ((List.range 12).all (fun t => s.drained (.fabric (BitVec.ofNat 4 t) 2)))

/-- The thread whose registers CR_MYCLAIM, CR_MYCMPL and CR_MYTHR are (09 R317): a Ledger's record acts as a steward thread (13
R432). -/
def ownThread : Requester → Option Nat
  | .core t => some t.toNat
  | .ledger => some steward
  | _ => none

/-- Registers of the Crier whose value is computed. -/
def State.viewCrier (s : State) (rq : Requester) (b i : Nat) (w : Word32) : Word32 :=
  if b = Reg.CR_MYCLAIM then (match ownThread rq with
    | some t => s.claimWord t
    | none => 0)
  else if b = Reg.CR_MYTHR then (match ownThread rq with
    | some t => s.reg (Reg.CR_THR + 16 * t)
    | none => 0)
  else if b = Reg.CR_TCLAIM then s.claimWord i
  else if b = Reg.CR_SCFG then bitsSet w 14 1 (b2n (isLevel i))
  else if b = Reg.CR_PEND then BitVec.ofNat 32 (bitWord 32 (fun j => s.srcShown (32 * i + j) (·.pend)))
  else if b = Reg.CR_CLMD then BitVec.ofNat 32 (bitWord 32 (fun j => s.srcShown (32 * i + j) (·.claimed.isSome)))
  else if b = Reg.CR_SWSET ∨ b = Reg.CR_SWCLR then
    BitVec.ofNat 32 (bitWord 32 (fun j => (s.src (768 + 32 * i + j)).pend))
  else if b = Reg.CR_MPEND then BitVec.ofNat 32 (s.mpend i)
  else w

/-- What a read of register `d`, element `i`, finds, where it is no half of a snapshot: the stored word with the fields
that the device computes. -/
def State.view (s : State) (rq : Requester) (d : RegDesc) (i a : Nat) : Word32 :=
  let w := s.reg a
  let b := d.base
  match a / 0x10000 with
  | 0x03 => if b = Reg.TY_CE then bitsSet w Fld.TY_CE_IN.lo 1 (b2n (s.ceLevel i)) else w
  | 0x04 =>
    if b = Reg.TB_NOW_LO then s.tb.now.setWidth 32
    else if b = Reg.TB_NOW_HI then (s.tb.now >>> 32).setWidth 32
    else w
  | 0x05 => s.viewCrier rq b i w
  | 0x06 => s.viewCrier rq b i w
  | 0x07 =>
    if b = Reg.LL_XCNT_LO then s.tb.xtal.setWidth 32
    else if b = Reg.LL_XCNT_HI then (s.tb.xtal >>> 32).setWidth 32
    else if b = Reg.LL_PDC then bitsSet w 24 8 (bitWord 8 s.pdcLevel)
    else w
  | 0x08 => if b = Reg.AS_SPDAT then BitVec.ofNat 32 s.spareWord else w
  | 0x09 =>
    if b = Reg.TL_CDRN then BitVec.ofNat 32 (bitWord 32 (fun j => s.drained (.cluster (BitVec.ofNat 6 (32 * i + j)))))
    else if b = Reg.TL_RDRN then BitVec.ofNat 32 (bitWord 8 (fun r => s.drained (.crossbar (BitVec.ofNat 3 r))))
    else if b = Reg.TL_FDRN then BitVec.ofNat 32 s.fabricDrained
    else if b = Reg.TL_HOSTRD then BitVec.ofNat 32 (min 3584 s.coreTags + 65536 * min 512 s.engineTags)
    else w
  | 0x0B => if b = Reg.PT_STS then bitsSet w Fld.PT_STS_INSVC.lo 1 (b2n (s.portInService i)) else w
  | 0x0C =>
    if b = Reg.PO_STS then bitsSet w 0 1 (b2n (s.flag Fld.PO_CTL_EN && !s.holding))
    else if b = Reg.PO_USED then BitVec.ofNat 32 (s.classUsed i)
    else w
  | 0x0E =>
    if b = Reg.ANX_STS then BitVec.ofNat 32 (s.threads.filter (fun kv => kv.2.far.isSome)).length else w
  | _ =>
    if b = Reg.CO_STS then s.coSts i w
    else if b = Reg.CO_TSTS then BitVec.ofNat 32 (s.thr i).tstate.code
    else if b = Reg.RG_PSTS then bitsSet w 0 3 (s.pstateRead i)
    else w

/-! ### Reads (00 R7, R8) -/

/-- The bits of a field. -/
def fieldMask (f : RegField) : Word32 := BitVec.ofNat 32 ((2 ^ f.width - 1) * 2 ^ f.lo)

/-- A register after a read: its RC fields are cleared; CO_SLACK.MINPS then holds 0xFFF, which it reads as while none is
measured. (log 113, DEDUCED) -/
def clearRead (d : RegDesc) (w : Word32) : Word32 :=
  if d.base = Reg.CO_SLACK then 0xFFF#32
  else d.fields.foldl (fun w f => if f.acc == .rc then w &&& ~~~ fieldMask f else w) w

/-- A read of a register: the word it finds, and the state after it. -/
def State.readReg (s : State) (rq : Requester) (d : RegDesc) (i a : Nat) : Word32 × State :=
  if d.base = Reg.TY_POP then s.tyPop
  else if d.base = Reg.PT_TXTSID then s.readTxtsid i
  else if pairLows.contains d.base then
    let hi := match findReg (a + 4) with
      | some (e, j) => s.view rq e j (a + 4)
      | none => 0
    let v := s.view rq d i a
    let s := { s with snap := tblPut s.snap a hi }
    if d.base = Reg.TB_NOW_LO then (v, s.put Fld.TB_NOWF_FRAC (s.tb.frac.toNat / 65536))
    else if d.base = Reg.TY_CAP_LO then (v, s.setCap i { s.cap i with unread := false })
    else (v, s)
  else if isPairHi a then (s.pairSnap (a - 4), s)
  else
    let v := s.view rq d i a
    (v, if d.fields.any (fun f => f.acc == .rc) then s.setReg a (clearRead d (s.reg a)) else s)

/-! ### Writes: access types and update categories (00 R8, R9, R11, R14) -/

/-- The block of an S field is stopped, in the sense that the field's Meaning gives; for PS_CTL.ROLE the conditions of
07 R239 and R240 for the value written. -/
def State.stoppedFor (s : State) (b i : Nat) (v : Word32) : Bool :=
  if b = Reg.TY_RCFG then !s.ringOn i
  else if b = Reg.PT_CTL then !s.flag Fld.PT_CTL_EN (ptOff i)
  else if b = Reg.PT_LANECFG then (List.range 8).all (fun p => !s.flag Fld.PT_CTL_EN (ptOff p))
  else if b = Reg.PO_FBSW then !s.flag Fld.PO_CTL_EN && s.porter.held.isEmpty
  else if b = Reg.HQ_BASE ∨ b = Reg.HQ_CFG then !s.flag Fld.HQ_STS_RUN (hqOff i)
  else if b = Reg.PS_CTL then (if v.getLsbD 2 then s.roleUpOk else s.roleDownOk)
  else !s.flag Fld.PS_STS_RUN

/-- The new value of one field of a register that is written. (log 113, DEDUCED) -/
def writeField (stopped : Bool) (v w : Word32) (f : RegField) : Word32 :=
  match f.acc with
  | .rw =>
    if f.upd == .stopped && !stopped then w else bitsSet w f.lo f.width (bitsGet v f.lo f.width)
  | .w1c => w &&& ~~~ (v &&& fieldMask f)
  | .w1s => w ||| (v &&& fieldMask f)
  | .ro | .wo | .rc => w

/-- The write would change an S field. -/
def changesStopped (d : RegDesc) (v w : Word32) : Bool :=
  d.fields.any (fun f => f.acc == .rw && f.upd == .stopped && bitsGet v f.lo f.width != bitsGet w f.lo f.width)

/-- Store a write under its fields' access types and update categories: a change of an S field while the block runs is
discarded and sets LG_STS.WR_IGNORED. (log 113, DEDUCED) -/
def State.storeReg (s : State) (d : RegDesc) (i a : Nat) (v : Word32) : State :=
  let w := s.reg a
  let ok := s.stoppedFor d.base i v
  let s := s.setReg a (d.fields.foldl (writeField ok v) w)
  if !ok && changesStopped d v w then s.put Fld.LG_STS_WR_IGNORED 1 else s

/-! ### What a write makes happen -/

/-- Writes of the GL and LG blocks. -/
def State.afterLedger (s : State) (b : Nat) (v : Word32) : State :=
  if b = Reg.GL_LINK_CTL then (if v.getLsbD 3 then s.startRetrain else s)
  else if b = Reg.LG_BOOT then (if v.getLsbD 8 then s.bootGo else s)
  else if b = Reg.LG_APPLY then s.apply v
  else if b = Reg.LG_COMMIT then s.commit v
  else s

/-- Writes of the TY block; `old` is the register before the write. -/
def State.afterTally (s : State) (b i : Nat) (old v : Word32) : State :=
  if b = Reg.TY_DROP then (if v.getLsbD 0 then s.tyDrop else s)
  else if b = Reg.TY_PUSH then s.tyPush v
  else if b = Reg.TY_RCFG then s.ringLevel i
  else if b = Reg.TY_ADCCTL then s.adcStart old
  else if b = Reg.TY_HCTL then s.snapMany (bitsGet v 0 5)
  else if b = Reg.TY_HCFG then s.histCfg i old
  else if b = Reg.TY_CM_CFG ∨ b = Reg.TY_CM_RATE ∨ b = Reg.TY_CM_BURST then s.fillMeter (1024 + i) (b == Reg.TY_CM_CFG)
  else if b = Reg.TY_SM_CFG ∨ b = Reg.TY_SM_RATE ∨ b = Reg.TY_SM_BURST then s.fillMeter i (b == Reg.TY_SM_CFG)
  else s

/-- Writes of the CR block. -/
def State.afterCrier (s : State) (rq : Requester) (b i : Nat) (v : Word32) : State :=
  if b = Reg.CR_MYCMPL then (match ownThread rq with
    | some t => s.endSource t (bitsGet v 0 10)
    | none => s)
  else if b = Reg.CR_MYTHR then (match ownThread rq with
    | some t => s.setThreshold t (bitsGet v 0 4)
    | none => s)
  else if b = Reg.CR_THR then s.setThreshold i (bitsGet v 0 4)
  else if b = Reg.CR_TCMPL then s.endSource i (bitsGet v 0 10)
  else if b = Reg.CR_SWSET then s.swset i v
  else if b = Reg.CR_SWCLR then s.swclr i v
  else if b = Reg.CR_SCFG then (if 256 ≤ i then s.put Fld.CR_SCFG_HNOTE 0 (8 * i) else s).crierScan
  else if b = Reg.CR_SMOD ∨ b = Reg.CR_GRP then s.crierScan
  else s

/-- Writes of the LL block. -/
def State.afterLamp (s : State) (b : Nat) (v : Word32) : State :=
  if b = Reg.LL_CMD then
    let s := if v.getLsbD 0 then s.darkRequest else s
    let s := if v.getLsbD 1 then s.wakeCmd else s
    if v.getLsbD 2 then s.retryCmd else s
  else if b = Reg.LL_PMCMD then (if v.getLsbD 19 then s.pmGo else s)
  else if b = Reg.LL_ALARM_LO then s.modPower (fun x => { x with alarmed := none })
  else s

/-- Writes of the AS, TL and AT blocks. A RESUME that comes by another route than the RESUME command takes the outcome of
its test from a free value. -/
def State.afterAssay (s : State) (b : Nat) (v : Word32) : State :=
  if b = Reg.AS_TREQ then s.orderTest v
  else if b = Reg.AS_HOLD then
    (if v.getLsbD 0 && s.safeHold then
      let r := s.free
      r.2.holdResume (r.1.getLsbD 0)
    else s)
  else if b = Reg.TL_STARVE ∨ b = Reg.TL_STARVE2 then s.starveLevel
  else if b = Reg.AT_CTL then s.reload v
  else if b = Reg.AT_PLOAD then s.patchLoad v
  else s

/-- Writes of the PS block. A new beat or slot series starts at the next boundary of the present one (04 R146, 07 R242). -/
def State.afterPrompt (s : State) (b a : Nat) (old v : Word32) : State :=
  if b = Reg.PS_CTL then (s.setRole (s.flag Fld.PS_CTL_ROLE)).hdrCheck
  else if b = Reg.PS_BANK then s.put Fld.PS_STS_SWPEND (b2n (s.get Fld.PS_BANK_SEL != s.activeBank))
  else if b = Reg.PS_BEAT then (if s.flag Fld.PS_STS_RUN then s else s.newSeries (s.nextBeat (beatOf (bitsGet old 0 11))))
  else if b = Reg.PS_SLOT then (if s.flag Fld.PS_STS_RUN then s else s.newSeries (s.nextBeat s.beatPs))
  else if b = Reg.PS_CHK then (if v.getLsbD 0 then s.checkGo else s)
  else if b = Reg.PS_DIEBUD ∨ b = Reg.PS_GBUD ∨ b = Reg.PS_PORT then
    s.modPrompt (fun x => { x with written := setIns x.written a })
  else s

/-- Writes of the HQ, RG and CO blocks. -/
def State.afterCore (s : State) (b i : Nat) (v : Word32) : State :=
  if b = Reg.HQ_CFG then (if v.getLsbD 0 then s.startQueue i else s.stopQueue i false)
  else if b = Reg.HQ_DB then s.doorbell i v
  else if b = Reg.HQ_POST then s.hqPost i v
  else if b = Reg.HQ_MOD then s.msixRelease i
  else if b = Reg.RG_PCTL then
    let s := if i = 0 then s.put Fld.RG_PCTL_RET 1 else s
    if v.getLsbD 17 then s.rgWake i else s
  else if b = Reg.CO_CTL then s.coreUpdate i
  else if b = Reg.CO_TCTL then (if v.getLsbD 0 then s.resetThread i else s)
  else s

/-- What a write of register base `b`, element `i`, makes happen once its fields are stored. -/
def State.afterWrite (s : State) (rq : Requester) (b i a : Nat) (old v : Word32) : State :=
  match a / 0x10000 with
  | 0x00 => s.afterLedger b v
  | 0x01 => s.afterLedger b v
  | 0x03 => s.afterTally b i old v
  | 0x04 =>
    if b = Reg.TB_CTL then s.tbMode old
    else if b = Reg.TB_DISC then s.tbDisc v
    else if b = Reg.TB_SLEW then s.tbSlew v
    else s
  | 0x05 => s.afterCrier rq b i v
  | 0x06 => s.afterCrier rq b i v
  | 0x07 => s.afterLamp b v
  | 0x08 => s.afterAssay b v
  | 0x09 => s.afterAssay b v
  | 0x0A => s.afterAssay b v
  | 0x0B => if b = Reg.PT_CTL then s.portEn i else s
  | 0x0D => s.afterPrompt b a old v
  | 0x02 => if b = Reg.BW_WARN then s.hdrCheck else s
  | 0x0C => s
  | 0x0E => s
  | _ => s.afterCore b i v

/-! ### Writes that are discarded whole -/

/-- The core of a CO block, or the region of an RG block, is retired (15 R462). -/
def State.blockRetired (s : State) (a : Nat) : Bool :=
  if a < 0x200000 ∨ 0x400000 ≤ a then false
  else
    let r := (a - 0x200000) / 0x40000
    if a % 0x8000 < 0x4000 then s.coreRetired (64 * r + (a - 0x200000) % 0x40000 / 0x8000 * 8 + a % 0x8000 / 0x800)
    else s.regionRetired r

/-- A write that is discarded: to a retired block, to the graph or slot bank in use, which is counted (06 R199; 07 R243),
to LL_PMCMD while BUSY (12 R411), and to its registers that Dark does not keep (12 R405). -/
def State.writeDiscarded (s : State) (b a : Nat) : Option State :=
  if s.blockRetired a then some s
  else if a / 0x2000 * 0x2000 = (if s.cfg Fld.PO_CTL_GBANK = 0 then Reg.PO_GA else Reg.PO_GB) then
    some (s.bump Fld.PO_STS_WRDISC)
  else if (b = Reg.PS_BA ∧ s.activeBank = 0) ∨ (b = Reg.PS_BB ∧ s.activeBank = 1) then some (s.bump Fld.PS_STS_WRDISC)
  else if b = Reg.LL_PMCMD ∧ (s.flag Fld.LL_PMSTS_BUSY ∨ s.dstate = 1) then some s
  else if b = Reg.LL_PMDATA ∧ s.dstate = 1 then some s
  else none

/-- Registers that a write does not store as it comes: what it makes happen sets what a read finds. -/
def actsOnly (b : Nat) : Bool :=
  b == Reg.CR_MYTHR || b == Reg.CR_THR || b == Reg.CR_SWSET || b == Reg.CR_SWCLR || b == Reg.TB_SLEW

/-- A write of TY_CTL.EN acts bit by bit (11 R361). Other registers store their fields, then act. -/
def State.writePlain (s : State) (rq : Requester) (d : RegDesc) (i a : Nat) (v : Word32) : State :=
  if d.base = Reg.TY_CTL then s.tyCtl (bitsGet v 0 4)
  else
    let old := s.reg a
    (if actsOnly d.base then s else s.storeReg d i a v).afterWrite rq d.base i a old v

/-- A write of a pair's _LO: the held _HI and the new _LO act as one update (00 R7; 11 R374). -/
def State.writePair (s : State) (rq : Requester) (d : RegDesc) (i a : Nat) (v : Word32) : State :=
  let hi := s.pairHold a
  if d.base = Reg.TB_STEP_LO then s.tbWrite false (hi ++ v)
  else if d.base = Reg.TB_SET_LO then s.tbWrite true (hi ++ v)
  else
    let s := match findReg (a + 4) with
      | some (e, j) => s.storeReg e j (a + 4) hi
      | none => s
    s.writePlain rq d i a v

/-- A write of a register: the state after it. -/
def State.writeReg (s : State) (rq : Requester) (d : RegDesc) (i a : Nat) (v : Word32) : State :=
  match s.writeDiscarded d.base a with
  | some s => s
  | none =>
    if pairLows.contains d.base then s.writePair rq d i a v
    else if isPairHi a then { s with hold := tblPut s.hold (a - 4) v }
    else s.writePlain rq d i a v

/-! ### The routes (15 R458 to R460) -/

/-- The register that a requester reaches at an I/O address; none where nothing lies there for it (00 R10; 15 R459,
R460). The own-core window stands for the CO block of the executing core. (log 22, DEDUCED) -/
def reach (rq : Requester) (a : Nat) : Option (RegDesc × Nat × Nat) :=
  let b := match rq with
    | .core t => if 0xFF0000 ≤ a ∧ a < 0xFF0800 then Reg.CO_ID + coOff (t.toNat / 4) + (a - 0xFF0000) else a
    | _ => a
  (findReg b).map (fun r => (r.1, r.2, b))

/-- The registers that a route leads to. (log 22, DEDUCED) -/
def routeOk (rq : Requester) (a : Nat) : Bool :=
  match rq with
  | .core _ => true
  | .ledger => true
  | .pf f => f == 0 || (decide (0x100000 + 0x10000 * f.toNat ≤ a) && decide (a < 0x110000 + 0x10000 * f.toNat))
  | .sideband => (decide (0x70000 ≤ a) && decide (a < 0x71000)) ||
      (decide (Reg.CR_WAKE ≤ a) && decide (a < Reg.CR_WAKE + 256))

/-- The Gated region whose wake an access to a CO or CL block must wait for (12 R391; 15 R460). (log 23, DESIGN CHOICE) -/
def State.blockAsleep (s : State) (a : Nat) : Option Nat :=
  if 0x200000 ≤ a ∧ a < 0x400000 ∧ a % 0x8000 < 0x6000 then
    let r := (a - 0x200000) / 0x40000
    if s.gated r then some r else none
  else none

end Sys2Proof.Machine
end

