-- ==== Sys2Proof/Machine/IoOps.lean ====
section
/-! DEFINITION. The I/O and instruction-space words, and a register access by any requester (02 R55 to R59; 03 R91, R92,
R96; 04 R153; 05 R182; 10 R324, R325; 12 R391, R395, R405; 15 R458 to R462). -/

namespace Sys2Proof.Machine

/-! ### Accesses of a core -/

/-- A thread may access the page of an I/O address (02 R58). -/
def State.pageOpen (s : State) (t a : Nat) : Bool :=
  let p := a % 0x1000000 / 0x10000
  (s.thr t).priv || p == 0xFF || bitOf (s.reg (Reg.CO_IOPERM + coOff (t / 4) + 4 * (p / 32))).toNat (p % 32)

/-- Registers that a service thread may not write (04 R153). -/
def stewardOnly (b : Nat) : Bool := b == Reg.CO_CTL || b == Reg.CO_IOPERM || b == Reg.CO_TCTL

/-- The address of an IN, OUT, IND or OUTD, whose access moves `n` bytes (02 R59); its bits above 23 are checked after
the page (02 R43). -/
def ioAddr (sum : Word) (n : Nat) : M Nat := do
  let a := sum.toNat
  if a % n ≠ 0 then raiseA xAlign a else pure a

/-- The checks of the sum that an access of two registers forms (02 R43, R58, R59). (log 119, DEDUCED) -/
def ioSum (t a : Nat) : M Unit := fun s =>
  if !s.pageOpen t a then .error (.raise { vector := xPrivilege }) s
  else if 2 ^ 24 ≤ a then .error (.raise { vector := xIoFault, addr0 := some (BitVec.ofNat 64 a) }) s
  else .ok () s

/-- The checks of a core's access to a register (02 R58; 00 R10; 04 R153): the register that it reaches. -/
def ioCheck (t a : Nat) (write : Bool) : M (RegDesc × Nat × Nat) := fun s =>
  if !s.pageOpen t a then .error (.raise { vector := xPrivilege }) s
  else if 2 ^ 24 ≤ a then .error (.raise { vector := xIoFault, addr0 := some (BitVec.ofNat 64 a) }) s
  else
    match reach (.core (BitVec.ofNat 11 t)) a with
    | none => .error (.raise { vector := xIoFault, addr0 := some (BitVec.ofNat 64 a) }) s
    | some p =>
      if write && stewardOnly p.1.base && !(s.thr t).priv then
        .error (.raise { vector := xIoFault, addr0 := some (BitVec.ofNat 64 a) }) s
      else .ok p s

/-- An access waits for the wake of a Gated region, for a core slot, and at the arbiter of fabric target 11; the own-core
window passes no fabric (12 R391; 04 R118; 05 R182). -/
def ioReady (t a : Nat) : M Unit := fun s =>
  match s.blockAsleep a with
  | some r => .error (.wait (.region r)) s
  | none => if a < 0xFF0000 then grantAll t [s.fabricFor t 11] true () s else .ok () s

/-- An access that the page and the sum allow waits until it can be made. -/
def ioOpen (t a : Nat) : M Unit := do
  if (← look (fun s => s.pageOpen t a && decide (a < 2 ^ 24))) then ioReady t a

/-- A core's register access: `f` acts on the register that the address reaches. -/
def ioAct {α : Type} (t a : Nat) (write : Bool) (f : RegDesc → Nat → Nat → State → α × State) : M α := do
  ioOpen t a
  let p ← ioCheck t a write
  fun s => let r := f p.1 p.2.1 p.2.2 s; .ok r.1 r.2

/-- Read one register. -/
def ioRead (t a : Nat) : M Word32 :=
  ioAct t a false (fun d i b s => s.readReg (.core (BitVec.ofNat 11 t)) d i b)

/-- The write of `v` to an I/O address is one to HQ_POST that waits (10 R341, R347). -/
def State.postWaits (s : State) (a : Nat) (v : Word32) : Bool :=
  match findReg a with
  | some (d, i) => d.base == Reg.HQ_POST && s.postStops i v
  | none => false

/-- A write to HQ_POST waits until the post can be staged (10 R341, R347). -/
def postReady (a : Nat) (v : Word32) : M Unit := fun s =>
  if s.postWaits a v then .error (.wait .turn) s else .ok () s

/-- Write one register. -/
def ioWrite (t a : Nat) (v : Word32) : M Unit := do
  ioOpen t a
  let _ ← ioCheck t a true
  postReady a v
  ioAct t a true (fun d i b s => ((), (s.writeReg (.core (BitVec.ofNat 11 t)) d i b v).settle))

/-- After a write: a thread that the write has reset goes on where the reset put it. (log 112, DEDUCED) -/
def afterOut (t : Nat) (th : Thread) : M Next := fun s =>
  let h := s.thr t
  if h.regs = th.regs ∧ h.pc = th.pc ∧ h.tstate = th.tstate then .ok .seq s else .ok (.jump h.pc) s

/-- A captured OUT or OUTD (08 R266). -/
def outEntry (a : Nat) (mask : BitVec 8) (v : Word) : CbEntry := ⟨4, mask, BitVec.ofNat 48 a, v, 0⟩

def inBody (t : Tid) (rd ra : RegNo) (imm : BitVec 14) : M Next := do
  let n := t.toNat
  let th ← look (fun s => s.thr n)
  let a ← ioAddr (th.get ra + imm.signExtend 64) 4
  let v ← ioRead n a
  change (fun s => s.setG n rd (v.setWidth 64))
  pure .seq

/-- IND: both halves are checked before either acts (03 R70, R91). -/
def indBody (t : Tid) (rd ra : RegNo) (imm : BitVec 14) : M Next := do
  let n := t.toNat
  let th ← look (fun s => s.thr n)
  let a ← ioAddr (th.get ra + imm.signExtend 64) 8
  ioOpen n a
  let _ ← ioCheck n a false
  let _ ← ioCheck n (a + 4) false
  let lo ← ioRead n a
  let hi ← ioRead n (a + 4)
  change (fun s => s.setG n rd (hi ++ lo))
  pure .seq

def outBody (t : Tid) (rs ra : RegNo) (imm : BitVec 14) : M Next := do
  let n := t.toNat
  let th ← look (fun s => s.thr n)
  let a ← ioAddr (th.get ra + imm.signExtend 64) 4
  let v := (th.get rs).setWidth 32
  if th.mode then
    let _ ← ioCheck n a true
    capture (n / 4) [outEntry a 0x0F (v.setWidth 64)]
    pure .seq
  else
    ioWrite n a v
    afterOut n th

/-- OUTD: both halves are checked, the higher first, before either acts (03 R70, R91). (log 119, DEDUCED) -/
def outdBody (t : Tid) (rs ra : RegNo) (imm : BitVec 14) : M Next := do
  let n := t.toNat
  let th ← look (fun s => s.thr n)
  let a ← ioAddr (th.get ra + imm.signExtend 64) 8
  ioSum n a
  let v := th.get rs
  if th.mode then
    let _ ← ioCheck n (a + 4) true
    let _ ← ioCheck n a true
    capture (n / 4) [outEntry a 0xFF v]
    pure .seq
  else
    ioOpen n a
    let _ ← ioCheck n (a + 4) true
    let _ ← ioCheck n a true
    ioWrite n (a + 4) ((v >>> 32).setWidth 32)
    ioWrite n a (v.setWidth 32)
    afterOut n th

def execIoIn (t : Tid) (rd ra : RegNo) (imm : BitVec 14) (s : State) : Host.Outcome State Fault Refusal :=
  word t (.ioIn t rd ra imm) (inBody t rd ra imm) s
def execInd (t : Tid) (rd ra : RegNo) (imm : BitVec 14) (s : State) : Host.Outcome State Fault Refusal :=
  word t (.ind t rd ra imm) (indBody t rd ra imm) s
def execOut (t : Tid) (rs ra : RegNo) (imm : BitVec 14) (s : State) : Host.Outcome State Fault Refusal :=
  word t (.out t rs ra imm) (outBody t rs ra imm) s
def execOutd (t : Tid) (rs ra : RegNo) (imm : BitVec 14) (s : State) : Host.Outcome State Fault Refusal :=
  word t (.outd t rs ra imm) (outdBody t rs ra imm) s

/-! ### Instruction space (03 R92) -/

/-- The instruction address of an ILOAD or ISTORE. (log 141, DESIGN CHOICE) -/
def instrAddr (sum : Word) : M Nat := do
  let a := sum.toNat % 2 ^ 32
  if a % 4 ≠ 0 then raiseA xAlign a else pure a

def iloadBody (t : Tid) (rd ra : RegNo) (imm : BitVec 14) : M Next := do
  let n := t.toNat
  let th ← look (fun s => s.thr n)
  let a ← instrAddr (th.get ra + imm.signExtend 64)
  let w ← readInstr n a false
  change (fun s => s.setG n rd (w.setWidth 64))
  pure .seq

/-- ISTORE: fetch queues and an engaged loop keep the word as they hold it, the loop until its next loop branch; the
core's instruction cache takes the new one (04 R121, R123). -/
def istoreBody (t : Tid) (rs ra : RegNo) (imm : BitVec 14) : M Next := do
  let n := t.toNat
  let th ← look (fun s => s.thr n)
  let a ← instrAddr (th.get ra + imm.signExtend 64)
  let old ← look (fun s => s.peekInstr n a)
  writeInstr n a ((th.get rs).setWidth 32)
  change (fun s => if th.mode then s
    else ((s.queueKeep n a old).iUpdate (n / 4) a ((th.get rs).setWidth 32)).lbStore (n / 4) (BitVec.ofNat 32 a))
  pure .seq

def execIload (t : Tid) (rd ra : RegNo) (imm : BitVec 14) (s : State) : Host.Outcome State Fault Refusal :=
  word t (.iload t rd ra imm) (iloadBody t rd ra imm) s
def execIstore (t : Tid) (rs ra : RegNo) (imm : BitVec 14) (s : State) : Host.Outcome State Fault Refusal :=
  word t (.istore t rs ra imm) (istoreBody t rs ra imm) s

/-! ### A register access by any requester -/

/-- The requester can make an access now: a thread that may issue and is not Metered, whose accesses are captured; a
host function while the die and its link are usable; the sideband while the Lamplighter has its supply (12 R395,
R405). (log 21, DESIGN CHOICE) -/
def State.routeLive (s : State) : Requester → Bool
  | .core t => s.canIssue t.toNat && !(s.thr t.toNat).mode
  | .pf _ => s.dieOn && s.linkUsable
  | .sideband => !s.power.resetLow.contains 2
  | .ledger => s.dieOn

/-- The device looks at itself again while the die acts. -/
def State.settleOn (s : State) : State := if s.dieOn then s.settle else s

/-- A requester's access to the register at an I/O address: none where it does not take place. An access that waits for
a region's wake asks for it and does not take place. (log 21, DESIGN CHOICE; log 23, DESIGN CHOICE) -/
def State.access {α : Type} (s : State) (rq : Requester) (a : Nat) (write : Bool)
    (f : RegDesc → Nat → Nat → State → α × State) : Option α × State :=
  if !s.routeLive rq then (none, s)
  else
    match rq with
    | .core t =>
      match ioAct t.toNat a write f s with
      | .ok v s' => (some v, s')
      | .error (.wait (.region r)) _ => (none, s.askWake r)
      | .error _ _ => (none, s)
    | _ =>
      match (if routeOk rq a then s.blockAsleep a else none), (if routeOk rq a then reach rq a else none) with
      | some r, _ => (none, s.askWake r)
      | none, some p => let r := f p.1 p.2.1 p.2.2 s; (some r.1, r.2)
      | none, none => (none, s)

/-- A write of a register by a requester; one to HQ_POST that waits does not take place. -/
def State.performWrite (s : State) (rq : Requester) (a : Nat) (v : Word32) : State :=
  if s.postWaits a v then s
  else (s.access rq a true (fun d i b s => ((), (s.writeReg rq d i b v).settleOn))).2

/-- What a read finds where no register lies: all ones for a BAR, 0 for the sideband (00 R10; 15 R459). -/
def absentWord : Requester → Word32
  | .sideband => 0
  | _ => 0xFFFFFFFF#32

/-- A read of a register by a requester, whose answer is recorded. A core that reads no register gets no answer (its word
raises I/O-fault), nor does an access that waits. -/
def State.performRead (s : State) (rq : Requester) (a : Nat) : State :=
  let r := s.access rq a false (fun d i b s => s.readReg rq d i b)
  match r.1, rq with
  | some v, _ => r.2.emit (.reply rq (BitVec.ofNat 24 a).toNat v)
  | none, .core _ => r.2
  | none, _ =>
    if s.routeLive rq && (s.blockAsleep a).isNone then r.2.emit (.reply rq (BitVec.ofNat 24 a).toNat (absentWord rq))
    else r.2

end Sys2Proof.Machine
end

