-- ==== Sys2Proof/Machine/Integer.lean ====
section
/-! DEFINITION. Integer instructions (03_instruction_reference.md R72, R73; 02 R61). -/

namespace Sys2Proof.Machine

/-- Write a result computed from the thread's registers to rd (03 R72). -/
def setRd (t : Tid) (rd : RegNo) (v : Thread → Word) : M Next := fun s =>
  .ok .seq (s.setG t.toNat rd (v (s.thr t.toNat)))

/-- A result of ra and rb. -/
def alu3 (t : Tid) (rd ra rb : RegNo) (f : Word → Word → Word) : M Next :=
  setRd t rd (fun th => f (th.get ra) (th.get rb))

/-- A 32-bit result of the low halves of ra and rb, sign-extended (03 R72). -/
def aluW (t : Tid) (rd ra rb : RegNo) (f : Word32 → Word32 → Word32) : M Next :=
  setRd t rd (fun th => sextW (f ((th.get ra).setWidth 32) ((th.get rb).setWidth 32)))

/-- A result of ra alone. -/
def alu2 (t : Tid) (rd ra : RegNo) (f : Word → Word) : M Next := setRd t rd (fun th => f (th.get ra))

/-- A sign-extended immediate (02 R61). -/
def simm (imm : BitVec 14) : Word := imm.signExtend 64
/-- A zero-extended immediate (02 R61). -/
def zimm (imm : BitVec 14) : Word := imm.setWidth 64

/-- ADD (03 R72). -/
def execAdd (t : Tid) (rd ra rb : RegNo) (s : State) : Host.Outcome State Fault Refusal :=
  word t (.add t rd ra rb) (alu3 t rd ra rb (fun a b => a + b)) s

/-- SUB (03 R72). -/
def execSub (t : Tid) (rd ra rb : RegNo) (s : State) : Host.Outcome State Fault Refusal :=
  word t (.sub t rd ra rb) (alu3 t rd ra rb (fun a b => a - b)) s

/-- AND (03 R72). -/
def execAnd (t : Tid) (rd ra rb : RegNo) (s : State) : Host.Outcome State Fault Refusal :=
  word t (.and t rd ra rb) (alu3 t rd ra rb (fun a b => a &&& b)) s

/-- OR (03 R72). -/
def execOr (t : Tid) (rd ra rb : RegNo) (s : State) : Host.Outcome State Fault Refusal :=
  word t (.or t rd ra rb) (alu3 t rd ra rb (fun a b => a ||| b)) s

/-- XOR (03 R72). -/
def execXor (t : Tid) (rd ra rb : RegNo) (s : State) : Host.Outcome State Fault Refusal :=
  word t (.xor t rd ra rb) (alu3 t rd ra rb (fun a b => a ^^^ b)) s

/-- ANDN (03 R72). -/
def execAndn (t : Tid) (rd ra rb : RegNo) (s : State) : Host.Outcome State Fault Refusal :=
  word t (.andn t rd ra rb) (alu3 t rd ra rb (fun a b => a &&& ~~~ b)) s

/-- SHL (03 R72). -/
def execShl (t : Tid) (rd ra rb : RegNo) (s : State) : Host.Outcome State Fault Refusal :=
  word t (.shl t rd ra rb) (alu3 t rd ra rb (fun a b => a <<< (b.toNat % 64))) s

/-- SHR (03 R72). -/
def execShr (t : Tid) (rd ra rb : RegNo) (s : State) : Host.Outcome State Fault Refusal :=
  word t (.shr t rd ra rb) (alu3 t rd ra rb (fun a b => a >>> (b.toNat % 64))) s

/-- SAR (03 R72). -/
def execSar (t : Tid) (rd ra rb : RegNo) (s : State) : Host.Outcome State Fault Refusal :=
  word t (.sar t rd ra rb) (alu3 t rd ra rb (fun a b => a.sshiftRight (b.toNat % 64))) s

/-- ROR (03 R72). -/
def execRor (t : Tid) (rd ra rb : RegNo) (s : State) : Host.Outcome State Fault Refusal :=
  word t (.ror t rd ra rb) (alu3 t rd ra rb (fun a b => a.rotateRight (b.toNat % 64))) s

/-- SLT (03 R72). -/
def execSlt (t : Tid) (rd ra rb : RegNo) (s : State) : Host.Outcome State Fault Refusal :=
  word t (.slt t rd ra rb) (alu3 t rd ra rb (fun a b => boolWord (a.slt b))) s

/-- SLTU (03 R72). -/
def execSltu (t : Tid) (rd ra rb : RegNo) (s : State) : Host.Outcome State Fault Refusal :=
  word t (.sltu t rd ra rb) (alu3 t rd ra rb (fun a b => boolWord (a.ult b))) s

/-- MIN (03 R72). -/
def execMin (t : Tid) (rd ra rb : RegNo) (s : State) : Host.Outcome State Fault Refusal :=
  word t (.min t rd ra rb) (alu3 t rd ra rb (minS)) s

/-- MAX (03 R72). -/
def execMax (t : Tid) (rd ra rb : RegNo) (s : State) : Host.Outcome State Fault Refusal :=
  word t (.max t rd ra rb) (alu3 t rd ra rb (maxS)) s

/-- MINU (03 R72). -/
def execMinu (t : Tid) (rd ra rb : RegNo) (s : State) : Host.Outcome State Fault Refusal :=
  word t (.minu t rd ra rb) (alu3 t rd ra rb (minU)) s

/-- MAXU (03 R72). -/
def execMaxu (t : Tid) (rd ra rb : RegNo) (s : State) : Host.Outcome State Fault Refusal :=
  word t (.maxu t rd ra rb) (alu3 t rd ra rb (maxU)) s

/-- MUL (03 R72). -/
def execMul (t : Tid) (rd ra rb : RegNo) (s : State) : Host.Outcome State Fault Refusal :=
  word t (.mul t rd ra rb) (alu3 t rd ra rb (fun a b => a * b)) s

/-- MULH (03 R72). -/
def execMulh (t : Tid) (rd ra rb : RegNo) (s : State) : Host.Outcome State Fault Refusal :=
  word t (.mulh t rd ra rb) (alu3 t rd ra rb (mulhS)) s

/-- MULHU (03 R72). -/
def execMulhu (t : Tid) (rd ra rb : RegNo) (s : State) : Host.Outcome State Fault Refusal :=
  word t (.mulhu t rd ra rb) (alu3 t rd ra rb (mulhU)) s

/-- DIV (03 R73). -/
def execDiv (t : Tid) (rd ra rb : RegNo) (s : State) : Host.Outcome State Fault Refusal :=
  word t (.div t rd ra rb) (alu3 t rd ra rb (divS)) s

/-- DIVU (03 R73). -/
def execDivu (t : Tid) (rd ra rb : RegNo) (s : State) : Host.Outcome State Fault Refusal :=
  word t (.divu t rd ra rb) (alu3 t rd ra rb (divU)) s

/-- REM (03 R73). -/
def execRem (t : Tid) (rd ra rb : RegNo) (s : State) : Host.Outcome State Fault Refusal :=
  word t (.rem t rd ra rb) (alu3 t rd ra rb (remS)) s

/-- REMU (03 R73). -/
def execRemu (t : Tid) (rd ra rb : RegNo) (s : State) : Host.Outcome State Fault Refusal :=
  word t (.remu t rd ra rb) (alu3 t rd ra rb (remU)) s

/-- ADDW (03 R72). -/
def execAddw (t : Tid) (rd ra rb : RegNo) (s : State) : Host.Outcome State Fault Refusal :=
  word t (.addw t rd ra rb) (aluW t rd ra rb (fun a b => a + b)) s

/-- SUBW (03 R72). -/
def execSubw (t : Tid) (rd ra rb : RegNo) (s : State) : Host.Outcome State Fault Refusal :=
  word t (.subw t rd ra rb) (aluW t rd ra rb (fun a b => a - b)) s

/-- SHLW (03 R72). -/
def execShlw (t : Tid) (rd ra rb : RegNo) (s : State) : Host.Outcome State Fault Refusal :=
  word t (.shlw t rd ra rb) (aluW t rd ra rb (fun a b => a <<< (b.toNat % 32))) s

/-- SHRW (03 R72). -/
def execShrw (t : Tid) (rd ra rb : RegNo) (s : State) : Host.Outcome State Fault Refusal :=
  word t (.shrw t rd ra rb) (aluW t rd ra rb (fun a b => a >>> (b.toNat % 32))) s

/-- SARW (03 R72). -/
def execSarw (t : Tid) (rd ra rb : RegNo) (s : State) : Host.Outcome State Fault Refusal :=
  word t (.sarw t rd ra rb) (aluW t rd ra rb (fun a b => a.sshiftRight (b.toNat % 32))) s

/-- MULW (03 R72). -/
def execMulw (t : Tid) (rd ra rb : RegNo) (s : State) : Host.Outcome State Fault Refusal :=
  word t (.mulw t rd ra rb) (aluW t rd ra rb (fun a b => a * b)) s

/-- CLZ (03, BITOP functions). -/
def execClz (t : Tid) (rd ra : RegNo) (s : State) : Host.Outcome State Fault Refusal :=
  word t (.clz t rd ra) (alu2 t rd ra (fun a => BitVec.ofNat 64 (clzNat a))) s

/-- CTZ (03, BITOP functions). -/
def execCtz (t : Tid) (rd ra : RegNo) (s : State) : Host.Outcome State Fault Refusal :=
  word t (.ctz t rd ra) (alu2 t rd ra (fun a => BitVec.ofNat 64 (ctzNat a))) s

/-- POPC (03, BITOP functions). -/
def execPopc (t : Tid) (rd ra : RegNo) (s : State) : Host.Outcome State Fault Refusal :=
  word t (.popc t rd ra) (alu2 t rd ra (fun a => BitVec.ofNat 64 (popNat a))) s

/-- BSWAP (03, BITOP functions). -/
def execBswap (t : Tid) (rd ra : RegNo) (s : State) : Host.Outcome State Fault Refusal :=
  word t (.bswap t rd ra) (alu2 t rd ra (bswapW)) s

/-- SEXTB (03, BITOP functions). -/
def execSextb (t : Tid) (rd ra : RegNo) (s : State) : Host.Outcome State Fault Refusal :=
  word t (.sextb t rd ra) (alu2 t rd ra (fun a => (a.setWidth 8).signExtend 64)) s

/-- SEXTH (03, BITOP functions). -/
def execSexth (t : Tid) (rd ra : RegNo) (s : State) : Host.Outcome State Fault Refusal :=
  word t (.sexth t rd ra) (alu2 t rd ra (fun a => (a.setWidth 16).signExtend 64)) s

/-- ZEXTB (03, BITOP functions). -/
def execZextb (t : Tid) (rd ra : RegNo) (s : State) : Host.Outcome State Fault Refusal :=
  word t (.zextb t rd ra) (alu2 t rd ra (fun a => (a.setWidth 8).setWidth 64)) s

/-- ZEXTH (03, BITOP functions). -/
def execZexth (t : Tid) (rd ra : RegNo) (s : State) : Host.Outcome State Fault Refusal :=
  word t (.zexth t rd ra) (alu2 t rd ra (fun a => (a.setWidth 16).setWidth 64)) s

/-- ADDI (03, register-immediate operations; 02 R61). -/
def execAddi (t : Tid) (rd ra : RegNo) (imm : BitVec 14) (s : State) : Host.Outcome State Fault Refusal :=
  word t (.addi t rd ra imm) (alu2 t rd ra (fun a => a + simm imm)) s

/-- ANDI (03, register-immediate operations; 02 R61). -/
def execAndi (t : Tid) (rd ra : RegNo) (imm : BitVec 14) (s : State) : Host.Outcome State Fault Refusal :=
  word t (.andi t rd ra imm) (alu2 t rd ra (fun a => a &&& zimm imm)) s

/-- ORI (03, register-immediate operations; 02 R61). -/
def execOri (t : Tid) (rd ra : RegNo) (imm : BitVec 14) (s : State) : Host.Outcome State Fault Refusal :=
  word t (.ori t rd ra imm) (alu2 t rd ra (fun a => a ||| zimm imm)) s

/-- XORI (03, register-immediate operations; 02 R61). -/
def execXori (t : Tid) (rd ra : RegNo) (imm : BitVec 14) (s : State) : Host.Outcome State Fault Refusal :=
  word t (.xori t rd ra imm) (alu2 t rd ra (fun a => a ^^^ zimm imm)) s

/-- SLTI (03, register-immediate operations; 02 R61). -/
def execSlti (t : Tid) (rd ra : RegNo) (imm : BitVec 14) (s : State) : Host.Outcome State Fault Refusal :=
  word t (.slti t rd ra imm) (alu2 t rd ra (fun a => boolWord (a.slt (simm imm)))) s

/-- SLTIU (03, register-immediate operations; 02 R61). -/
def execSltiu (t : Tid) (rd ra : RegNo) (imm : BitVec 14) (s : State) : Host.Outcome State Fault Refusal :=
  word t (.sltiu t rd ra imm) (alu2 t rd ra (fun a => boolWord (a.ult (simm imm)))) s

/-- MULI (03, register-immediate operations; 02 R61). -/
def execMuli (t : Tid) (rd ra : RegNo) (imm : BitVec 14) (s : State) : Host.Outcome State Fault Refusal :=
  word t (.muli t rd ra imm) (alu2 t rd ra (fun a => a * simm imm)) s

/-- ADDWI (03, register-immediate operations; 02 R61). -/
def execAddwi (t : Tid) (rd ra : RegNo) (imm : BitVec 14) (s : State) : Host.Outcome State Fault Refusal :=
  word t (.addwi t rd ra imm) (alu2 t rd ra (fun a => sextW ((a + simm imm).setWidth 32))) s

/-- SHLI (03, register-immediate operations; 02 R61). -/
def execShli (t : Tid) (rd ra : RegNo) (count : BitVec 6) (s : State) : Host.Outcome State Fault Refusal :=
  word t (.shli t rd ra count) (alu2 t rd ra (fun a => a <<< count.toNat)) s

/-- SHRI (03, register-immediate operations; 02 R61). -/
def execShri (t : Tid) (rd ra : RegNo) (count : BitVec 6) (s : State) : Host.Outcome State Fault Refusal :=
  word t (.shri t rd ra count) (alu2 t rd ra (fun a => a >>> count.toNat)) s

/-- SARI (03, register-immediate operations; 02 R61). -/
def execSari (t : Tid) (rd ra : RegNo) (count : BitVec 6) (s : State) : Host.Outcome State Fault Refusal :=
  word t (.sari t rd ra count) (alu2 t rd ra (fun a => a.sshiftRight count.toNat)) s

/-- RORI (03, register-immediate operations; 02 R61). -/
def execRori (t : Tid) (rd ra : RegNo) (count : BitVec 6) (s : State) : Host.Outcome State Fault Refusal :=
  word t (.rori t rd ra count) (alu2 t rd ra (fun a => a.rotateRight count.toNat)) s

/-- MOVI (03; 02 R61). -/
def execMovi (t : Tid) (rd : RegNo) (imm : BitVec 19) (s : State) : Host.Outcome State Fault Refusal :=
  word t (.movi t rd imm) (setRd t rd (fun _ => imm.signExtend 64)) s

/-- ORH: rd is both source and destination (03; 02 R61). -/
def execOrh (t : Tid) (rd : RegNo) (half : BitVec 2) (imm : BitVec 16) (s : State) : Host.Outcome State Fault Refusal :=
  word t (.orh t rd half imm) (setRd t rd (fun th => th.get rd ||| (imm.setWidth 64 <<< (16 * half.toNat)))) s

/-- ADDPC (03; 02 R61). -/
def execAddpc (t : Tid) (rd : RegNo) (imm : BitVec 19) (s : State) : Host.Outcome State Fault Refusal :=
  word t (.addpc t rd imm) (setRd t rd (fun th => th.pc.setWidth 64 + imm.signExtend 64 * 4)) s

/-- NOP (02 R65). -/
def execNop (t : Tid) (s : State) : Host.Outcome State Fault Refusal := word t (.nop t) (pure .seq) s

end Sys2Proof.Machine
end

