-- ==== Sys2Proof/Machine/Decimal.lean ====
section
/-! DEFINITION. Packed decimal arithmetic and conversions (03_instruction_reference.md R108, R109). -/

namespace Sys2Proof.Machine

/-- Digit `i` of a packed operand, counted from the least significant: nibble `i + 1`. -/
def pkDigit (v : Word) (i : Nat) : Nat := v.toNat / 16 ^ (i + 1) % 16
def pkSign (v : Word) : Nat := v.toNat % 16
def pkNegative (v : Word) : Bool := pkSign v == 0xB || pkSign v == 0xD

/-- DCHK: 0, the position of the lowest invalid digit, or 16 (R108). (log 136, DESIGN CHOICE) -/
def pkCheck (v : Word) : Nat :=
  match (List.range 15).find? (fun i => decide (9 < pkDigit v i)) with
  | some i => i + 1
  | none => if pkSign v < 10 then 16 else 0

def pkValid (v : Word) : Bool := pkCheck v == 0

/-- The magnitude. -/
def pkMag (v : Word) : Nat := ((List.range 15).map (fun i => pkDigit v i * 10 ^ i)).sum

/-- The number that a valid operand stands for. -/
def pkVal (v : Word) : Int := if pkNegative v then -(pkMag v : Int) else pkMag v

/-- The largest magnitude. -/
def pkLimit : Nat := 999999999999999

/-- All bits 1: the result of an invalid operand and of a result too large. -/
abbrev allOnes : Word := 0xFFFFFFFFFFFFFFFF

/-- Pack a number; zero carries sign 0xC. -/
def pkOf (x : Int) : Word :=
  if pkLimit < x.natAbs then allOnes
  else BitVec.ofNat 64 (((List.range 15).map (fun i => x.natAbs / 10 ^ i % 10 * 16 ^ (i + 1))).sum +
    (if x < 0 then 0xD else 0xC))

/-- DADD, DSUB, DMUL. -/
def pkOp (f : Int → Int → Int) (a b : Word) : Word :=
  if pkValid a && pkValid b then pkOf (f (pkVal a) (pkVal b)) else allOnes

/-- DCMP. -/
def pkCmp (a b : Word) : Word :=
  if pkValid a && pkValid b then (if pkVal a < pkVal b then -1 else if pkVal a = pkVal b then 0 else 1) else 2

/-- P2B. -/
def pkToBin (v : Word) : Word := if pkValid v then BitVec.ofInt 64 (pkVal v) else 0x8000000000000000

/-- A number from its digits, most significant first. -/
def fromDigits (ds : List Nat) : Nat := ds.foldl (fun a d => a * 10 + d) 0

/-- A2P (R109). -/
def ascToPk (bs : List Byte) : Word :=
  if bs.all (fun b => decide (0x30 ≤ b.toNat) && decide (b.toNat ≤ 0x39)) then
    pkOf (fromDigits (bs.map (fun b => b.toNat - 0x30)))
  else allOnes

/-- E2P (R109): the zone of the last digit may be 0xC or 0xD. -/
def ebcToPk (bs : List Byte) : Word :=
  let n := bs.length
  let zone (i : Nat) : Nat := (byteAt bs i).toNat / 16
  let ok := (List.range n).all (fun i => decide ((byteAt bs i).toNat % 16 ≤ 9) &&
    (zone i == 0xF || (i + 1 == n && (zone i == 0xC || zone i == 0xD))))
  if ok then
    let m : Int := fromDigits (bs.map (fun b => b.toNat % 16))
    pkOf (if zone (n - 1) == 0xD then -m else m)
  else allOnes

/-- Decimal digits of a number, most significant first, at least one; `fuel` bounds their count. -/
def decDigits : Nat → Nat → List Nat
  | 0, _ => []
  | f + 1, n => if n < 10 then [n] else decDigits f (n / 10) ++ [n % 10]

/-- P2A: the bytes written (R109). -/
def pkToAsc (v : Word) : List Byte :=
  (if pkVal v < 0 then [0x2D] else []) ++ (decDigits 15 (pkMag v)).map (fun d => BitVec.ofNat 8 (0x30 + d))

/-- P2E: the bytes written (R109). -/
def pkToEbc (v : Word) : List Byte :=
  let ds := decDigits 15 (pkMag v)
  ds.dropLast.map (fun d => BitVec.ofNat 8 (0xF0 + d)) ++
    [BitVec.ofNat 8 ((if pkVal v < 0 then 0xD0 else 0xF0) + ds.getLastD 0)]

end Sys2Proof.Machine
end

