-- ==== Sys2Proof/Machine/NearAnnex.lean ====
section
/-! DEFINITION. Near-Annex operations (02 R68; 03 R96, R99 to R109). -/

namespace Sys2Proof.Machine

/-! ### Operand blocks (R99) -/

/-- Read a block of `n` bytes, each part in its own region. -/
def blockRead (t a n : Nat) : M (List Byte) :=
  let k := firstHalf a n
  if k = n then readHalf t a n
  else do
    let x ← readHalf t a k
    let y ← readHalf t ((a + k) % 2 ^ 64) (n - k)
    pure (x ++ y)

/-- A partial write that would meet an uncorrectable word (05 R160). -/
def checkDie (t a n phys : Nat) : M Unit := fun s =>
  if !isCaptured s t a && s.badWrite phys n then
    .error (.raise { vector := xEcc, addr0 := some (BitVec.ofNat 64 a) }) (s.reportBad phys n)
  else .ok () s

/-- The checks of a write of `n` bytes in one region, made before any effect. -/
def checkHalf (t a n : Nat) : M Unit := do
  let p ← place t a n true false
  match p with
  | .die phys => checkDie t a n phys
  | .host _ => pure ()

/-- The checks of a block's write. -/
def blockCheck (t a n : Nat) : M Unit :=
  let k := firstHalf a n
  if k = n then checkHalf t a n
  else do
    checkHalf t a k
    checkHalf t ((a + k) % 2 ^ 64) (n - k)

/-- Write a block that has been checked. -/
def blockWrite (t a : Nat) (bs : List Byte) : M Unit :=
  let k := firstHalf a bs.length
  if k = bs.length then writeHalf t a bs
  else do
    writeHalf t a (bs.take k)
    writeHalf t ((a + k) % 2 ^ 64) (bs.drop k)

/-- Check all of an operation's outputs, then write them. -/
def outputs (t : Nat) (ws : List (Nat × List Byte)) : M Unit := do
  ws.forM (fun w => blockCheck t w.1 w.2.length)
  roomFor t ws
  ws.forM (fun w => blockWrite t w.1 w.2)

/-- End an operation: its outputs, then rd. -/
def annexEnd (t : Nat) (rd : RegNo) (ws : List (Nat × List Byte)) (v : Word) : M Next := do
  outputs t ws
  change (fun s => s.setG t rd v)
  pure .seq

/-- The checks of a block's addresses. -/
def blockPermit (t a n : Nat) (write : Bool) : M Unit :=
  let k := firstHalf a n
  if k = n then permitted t a n write
  else do
    permitted t a k write
    permitted t ((a + k) % 2 ^ 64) (n - k) write

/-- An operation waits for a core slot, and at its cluster's near-Annex arbiter for its opcode unit (04 R118; 05 R173,
R185). -/
def annexTurn (t u : Nat) : M Unit := fun s =>
  let a : ArbiterId := .annex (BitVec.ofNat 6 (t / 32)) 0
  if !s.slotFree t && !(s.thr t).waiting.isSome then .error (.wait .turn) s
  else if s.passes t a u then .ok () s
  else .error (.wait (.grant a u)) s

/-- Before a unit starts: the checks of the addresses of every operand block, which come before any byte of them is read
(02 R43, R69), then the unit's turn. Each block is given with its length, and whether it is written. Of a block whose length
its context holds, the first byte is checked here. (log 148, DEDUCED) -/
def annexStart (t u : Nat) (bs : List (Nat × Nat × Bool)) : M Unit := do
  bs.forM (fun b => blockPermit t b.1 b.2.1 b.2.2)
  annexTurn t u

/-- A context or state block must be 8-byte aligned (R99). -/
def aligned8 (a : Nat) : M Unit := if a % 8 ≠ 0 then raiseA xAlign a else pure ()

/-! ### AES contexts (R101 to R103) -/

/-- The opaque bytes combined with the device's mask. (log 9, DESIGN CHOICE) -/
def maskOpaque (bs : List Byte) : List Byte := (List.range bs.length).map (fun i => byteAt bs i ^^^ Config.aesMask i)

/-- A context block. -/
structure AesCtx where
  raw : List Byte
  deriving DecidableEq, Repr

def AesCtx.code (c : AesCtx) : Nat := leNat (slice c.raw 0x180 8)
def AesCtx.valid (c : AesCtx) : Bool := c.code == 0x81 || c.code == 0x82
def AesCtx.rounds (c : AesCtx) : Nat := if c.code = 0x82 then 14 else 10
/-- Log 9, DESIGN CHOICE. -/
def AesCtx.sched (c : AesCtx) : List Byte := maskOpaque (slice c.raw 0 384)
/-- The hash subkey H. (log 9, DESIGN CHOICE) -/
def AesCtx.hkey (c : AesCtx) : Blk := blkOf (slice c.sched 240 16)
def AesCtx.aad (c : AesCtx) : Nat := leNat (slice c.raw 0x188 8)
def AesCtx.text (c : AesCtx) : Nat := leNat (slice c.raw 0x190 8)
/-- PARTLEN: 0 for a full block, 1 to 15 for a partial one; the manual gives 0xFF a meaning for CMACEND alone, and no
other value one. -/
def AesCtx.part (c : AesCtx) : Nat := (byteAt c.raw 0x198).toNat
/-- The bytes of the next block; for a PARTLEN without a meaning some number of 1 to 16. (log 32, DESIGN CHOICE) -/
def AesCtx.blockLen (c : AesCtx) : Nat :=
  if c.part = 0 then 16 else if c.part ≤ 15 then c.part else 1 + Config.partLen c.part % 16
def AesCtx.j0 (c : AesCtx) : Blk := blkOf (slice c.raw 0x1A0 16)
def AesCtx.ctr (c : AesCtx) : Blk := blkOf (slice c.raw 0x1B0 16)
def AesCtx.acc (c : AesCtx) : Blk := blkOf (slice c.raw 0x1C0 16)
def AesCtx.chain (c : AesCtx) : Blk := blkOf (slice c.raw 0x1D0 16)
def AesCtx.k1 (c : AesCtx) : Blk := blkOf (slice c.raw 0x1E0 16)
def AesCtx.k2 (c : AesCtx) : Blk := blkOf (slice c.raw 0x1F0 16)
def AesCtx.enc (c : AesCtx) (b : Blk) : Blk := blkOf (aesEncrypt c.rounds c.sched (blkBytes b))

/-- A partial block of additional data, or of text, has been taken. (log 33, DEDUCED) -/
def AesCtx.aadClosed (c : AesCtx) : Bool := c.aad % 16 != 0
/-- Log 33, DEDUCED. -/
def AesCtx.textClosed (c : AesCtx) : Bool := c.text % 16 != 0

/-- Absorb a block into the GHASH accumulator. -/
def AesCtx.absorb (c : AesCtx) (b : Blk) : Blk := ghashMul (c.acc ^^^ b) c.hkey

/-- Start an operation of opcode 0x70 and read its context. `wr` says whether it writes the context, `b`, `n` and `wb` give
its other block. -/
def readCtx (t a : Nat) (wr : Bool) (b n : Nat) (wb : Bool) : M AesCtx := do
  aligned8 a
  annexStart t 0 [(a, 512, wr), (b, n, wb)]
  let bs ← blockRead t a 512
  pure ⟨bs⟩

/-- AKEY128 and AKEY256 (R102). PARTLEN, J0 and the counter block keep their bytes. (log 9, DESIGN CHOICE) -/
def akeyBody (t : Tid) (rd ra rb : RegNo) (n : Nat) : M Next := do
  let tn := t.toNat
  let th ← look (fun s => s.thr tn)
  let a := (th.get ra).toNat
  aligned8 a
  annexStart tn 0 [(a, 512, true), ((th.get rb).toNat, n, false)]
  let key ← blockRead tn (th.get rb).toNat n
  let ks := aesSchedule key
  let rounds := n / 4 + 6
  let h := aesEncrypt rounds ks (List.replicate 16 0)
  let k1 := dblBlk (blkOf h)
  let opaq := maskOpaque (ks ++ List.replicate (240 - ks.length) 0 ++ h ++ List.replicate 128 0)
  annexEnd tn rd
    [(a, opaq ++ leBytes 8 (if n = 16 then 0x81 else 0x82) ++ List.replicate 16 0),
     (a + 0x199, List.replicate 7 0),
     (a + 0x1C0, List.replicate 32 0 ++ blkBytes k1 ++ blkBytes (dblBlk k1))] 0

/-- The status of a block operation before it runs: 0, or why it does not (R103). (log 135, DESIGN CHOICE) -/
def ctxStatus (c : AesCtx) (limit seqErr : Bool) : Word := if !c.valid then 1 else if limit then 2 else if seqErr then 3 else 0

/-- Write a status alone. -/
def annexStatus (t : Nat) (rd : RegNo) (v : Word) : M Next := annexEnd t rd [] v

/-- GCMENC and GCMDEC (R102). (log 33, DEDUCED) -/
def gcmBody (t : Tid) (rd ra rb : RegNo) (dec : Bool) : M Next := do
  let tn := t.toNat
  let th ← look (fun s => s.thr tn)
  let a := (th.get ra).toNat
  let b := (th.get rb).toNat
  let c ← readCtx tn a true b 1 true
  let st := ctxStatus c (decide (2 ^ 32 - 2 ≤ (c.text + 15) / 16)) c.textClosed
  if st ≠ 0 then annexStatus tn rd st
  else do
    let n := c.blockLen
    let inp ← blockRead tn b n
    let ctr := inc32 (if c.text = 0 then c.j0 else c.ctr)
    let out := xorBytes inp (blkBytes (c.enc ctr))
    let acc := c.absorb (blkOf (padZero (if dec then inp else out)))
    annexEnd tn rd [(a + 0x190, leBytes 8 (c.text + n)), (a + 0x1B0, blkBytes ctr ++ blkBytes acc), (b, out)] 0

/-- GHASH (R102). -/
def ghashBody (t : Tid) (rd ra rb : RegNo) : M Next := do
  let tn := t.toNat
  let th ← look (fun s => s.thr tn)
  let a := (th.get ra).toNat
  let c ← readCtx tn a true (th.get rb).toNat 1 false
  let st := ctxStatus c false (decide (c.text ≠ 0) || c.aadClosed)
  if st ≠ 0 then annexStatus tn rd st
  else do
    let n := c.blockLen
    let inp ← blockRead tn (th.get rb).toNat n
    annexEnd tn rd [(a + 0x188, leBytes 8 (c.aad + n)),
      (a + 0x1C0, blkBytes (c.absorb (blkOf (padZero inp))))] 0

/-- GCMTAG (R102). -/
def gcmtagBody (t : Tid) (rd ra rb : RegNo) : M Next := do
  let tn := t.toNat
  let th ← look (fun s => s.thr tn)
  let c ← readCtx tn (th.get ra).toNat false (th.get rb).toNat 16 true
  let st := ctxStatus c false false
  if st ≠ 0 then annexStatus tn rd st
  else
    let lens := blkOf (beBytes 8 (8 * c.aad) ++ beBytes 8 (8 * c.text))
    annexEnd tn rd [((th.get rb).toNat, blkBytes (c.absorb lens ^^^ c.enc c.j0))] 0

/-- CMAC: one full block (R103). -/
def cmacBody (t : Tid) (rd ra rb : RegNo) : M Next := do
  let tn := t.toNat
  let th ← look (fun s => s.thr tn)
  let a := (th.get ra).toNat
  let c ← readCtx tn a true (th.get rb).toNat 16 false
  let st := ctxStatus c false (c.aadClosed || c.textClosed)
  if st ≠ 0 then annexStatus tn rd st
  else do
    let inp ← blockRead tn (th.get rb).toNat 16
    annexEnd tn rd [(a + 0x1D0, blkBytes (c.enc (c.chain ^^^ blkOf inp)))] 0

/-- CMACEND: the last block, and the tag over it (R103). (log 134, DEDUCED) -/
def cmacendBody (t : Tid) (rd ra rb : RegNo) : M Next := do
  let tn := t.toNat
  let th ← look (fun s => s.thr tn)
  let b := (th.get rb).toNat
  let c ← readCtx tn (th.get ra).toNat false b 16 true
  let st := ctxStatus c false false
  if st ≠ 0 then annexStatus tn rd st
  else do
    let n := if c.part = 0xFF then 0 else c.blockLen
    let inp ← (if n = 0 then pure [] else blockRead tn b n)
    let last := if n = 16 then blkOf inp ^^^ c.k1 else blkOf (padOne inp) ^^^ c.k2
    annexEnd tn rd [(b, blkBytes (c.enc (c.chain ^^^ last)))] 0

/-- AKEY128 (R102). -/
def execAkey128 (t : Tid) (rd ra rb : RegNo) (s : State) : Host.Outcome State Fault Refusal :=
  word t (.akey128 t rd ra rb) (akeyBody t rd ra rb 16) s
/-- AKEY256 (R102). -/
def execAkey256 (t : Tid) (rd ra rb : RegNo) (s : State) : Host.Outcome State Fault Refusal :=
  word t (.akey256 t rd ra rb) (akeyBody t rd ra rb 32) s
/-- GCMENC (R102). -/
def execGcmenc (t : Tid) (rd ra rb : RegNo) (s : State) : Host.Outcome State Fault Refusal :=
  word t (.gcmenc t rd ra rb) (gcmBody t rd ra rb false) s
/-- GCMDEC (R102). -/
def execGcmdec (t : Tid) (rd ra rb : RegNo) (s : State) : Host.Outcome State Fault Refusal :=
  word t (.gcmdec t rd ra rb) (gcmBody t rd ra rb true) s
/-- GHASH (R102). -/
def execGhash (t : Tid) (rd ra rb : RegNo) (s : State) : Host.Outcome State Fault Refusal :=
  word t (.ghash t rd ra rb) (ghashBody t rd ra rb) s
/-- GCMTAG (R102). -/
def execGcmtag (t : Tid) (rd ra rb : RegNo) (s : State) : Host.Outcome State Fault Refusal :=
  word t (.gcmtag t rd ra rb) (gcmtagBody t rd ra rb) s
/-- CMAC (R103). -/
def execCmac (t : Tid) (rd ra rb : RegNo) (s : State) : Host.Outcome State Fault Refusal :=
  word t (.cmac t rd ra rb) (cmacBody t rd ra rb) s
/-- CMACEND (R103). -/
def execCmacend (t : Tid) (rd ra rb : RegNo) (s : State) : Host.Outcome State Fault Refusal :=
  word t (.cmacend t rd ra rb) (cmacendBody t rd ra rb) s

/-! ### SHA (R104) -/

/-- Size of a state block. -/
def shaSize (wide : Bool) : Nat := if wide then 96 else 64
/-- Offset of the block count. -/
def shaCount (wide : Bool) : Nat := if wide then 0x40 else 0x20

/-- S256INIT and S384INIT: the hash value in little-endian words, a block count of 0, zeros, and the marker. (log 10, DESIGN CHOICE) -/
def shaInitBody (t : Tid) (rd ra : RegNo) (wide : Bool) : M Next := do
  let th ← look (fun s => s.thr t.toNat)
  let a := (th.get ra).toNat
  aligned8 a
  annexStart t.toNat 1 [(a, shaSize wide, true)]
  let h := if wide then sha384Init.flatMap (fun w => leBytes 8 w.toNat)
    else sha256Init.flatMap (fun w => leBytes 4 w.toNat)
  annexEnd t.toNat rd [(a, h ++ List.replicate (shaSize wide - 8 - h.length) 0 ++ leBytes 8 Config.shaMarker.toNat)] 0

/-- The state block holds the validity marker. (log 10, DESIGN CHOICE) -/
def shaValid (bs : List Byte) (wide : Bool) : Bool := leNat (slice bs (shaSize wide - 8) 8) == Config.shaMarker.toNat

/-- S256BLK and S384BLK: one whole block. -/
def shaBlkBody (t : Tid) (rd ra rb : RegNo) (wide : Bool) : M Next := do
  let tn := t.toNat
  let th ← look (fun s => s.thr tn)
  let a := (th.get ra).toNat
  aligned8 a
  annexStart tn 1 [(a, shaSize wide, true), ((th.get rb).toNat, if wide then 128 else 64, false)]
  let bs ← blockRead tn a (shaSize wide)
  if !shaValid bs wide then annexStatus tn rd 1
  else do
    let m ← blockRead tn (th.get rb).toNat (if wide then 128 else 64)
    let h := if wide then (sha384Block (leWords 64 8 8 bs) (beWords 64 8 16 m)).flatMap (fun w => leBytes 8 w.toNat)
      else (sha256Block (leWords 32 4 8 bs) (beWords 32 4 16 m)).flatMap (fun w => leBytes 4 w.toNat)
    let n := leNat (slice bs (shaCount wide) 8) + 1
    annexEnd tn rd [(a, h ++ leBytes 8 n)] 0

/-- S256END and S384END: the digest, and the marker replaced by its complement. -/
def shaEndBody (t : Tid) (rd ra rb : RegNo) (wide : Bool) : M Next := do
  let tn := t.toNat
  let th ← look (fun s => s.thr tn)
  let a := (th.get ra).toNat
  aligned8 a
  annexStart tn 1 [(a, shaSize wide, true), ((th.get rb).toNat, if wide then 48 else 32, true)]
  let bs ← blockRead tn a (shaSize wide)
  if !shaValid bs wide then annexStatus tn rd 1
  else
    let d := if wide then (leWords 64 8 6 bs).flatMap (fun w => beBytes 8 w.toNat)
      else (leWords 32 4 8 bs).flatMap (fun w => beBytes 4 w.toNat)
    annexEnd tn rd [((th.get rb).toNat, d), (a + shaSize wide - 8, leBytes 8 (~~~ Config.shaMarker).toNat)] 0

/-- S256INIT (R104). -/
def execS256init (t : Tid) (rd ra : RegNo) (s : State) : Host.Outcome State Fault Refusal :=
  word t (.s256init t rd ra) (shaInitBody t rd ra false) s
/-- S256BLK (R104). -/
def execS256blk (t : Tid) (rd ra rb : RegNo) (s : State) : Host.Outcome State Fault Refusal :=
  word t (.s256blk t rd ra rb) (shaBlkBody t rd ra rb false) s
/-- S256END (R104). -/
def execS256end (t : Tid) (rd ra rb : RegNo) (s : State) : Host.Outcome State Fault Refusal :=
  word t (.s256end t rd ra rb) (shaEndBody t rd ra rb false) s
/-- S384INIT (R104). -/
def execS384init (t : Tid) (rd ra : RegNo) (s : State) : Host.Outcome State Fault Refusal :=
  word t (.s384init t rd ra) (shaInitBody t rd ra true) s
/-- S384BLK (R104). -/
def execS384blk (t : Tid) (rd ra rb : RegNo) (s : State) : Host.Outcome State Fault Refusal :=
  word t (.s384blk t rd ra rb) (shaBlkBody t rd ra rb true) s
/-- S384END (R104). -/
def execS384end (t : Tid) (rd ra rb : RegNo) (s : State) : Host.Outcome State Fault Refusal :=
  word t (.s384end t rd ra rb) (shaEndBody t rd ra rb true) s

/-! ### CRC and checksum (R105, R106) -/

/-- The longest operand of CRC32C and CSUM (R100). -/
def crcLimit : Nat := 16384

/-- Start an operation of unit `u` and read its byte operand, whose length lies within a limit; a length outside raises
Data-protection (R100). -/
def lengthRead (t u a n lo hi : Nat) : M (List Byte) :=
  if n < lo ∨ hi < n then raiseA xDataProt a
  else if n = 0 then do
    annexStart t u []
    pure []
  else do
    annexStart t u [(a, n, false)]
    blockRead t a n

/-- CRC32C (R105). -/
def crcBody (t : Tid) (rd ra rb : RegNo) : M Next := do
  let th ← look (fun s => s.thr t.toNat)
  let n := (th.get rb).toNat
  let bs ← lengthRead t.toNat 2 (th.get ra).toNat n 0 crcLimit
  if n = 0 then pure .seq
  else annexEnd t.toNat rd [] ((crc32c ((th.get rd).setWidth 32) bs).setWidth 64)

/-- Fold a sum to 16 bits by end-around carry; the fuel suffices for any 64-bit sum. -/
def fold16 : Nat → Nat → Nat
  | 0, v => v
  | k + 1, v => fold16 k (v % 65536 + v / 65536)

/-- The sum of 16-bit words in network byte order. -/
def sumWords : List Byte → Nat
  | [] => 0
  | [a] => a.toNat * 256
  | a :: b :: r => a.toNat * 256 + b.toNat + sumWords r

/-- CSUM (R106). -/
def csumBody (t : Tid) (rd ra rb : RegNo) : M Next := do
  let th ← look (fun s => s.thr t.toNat)
  let n := (th.get rb).toNat
  let bs ← lengthRead t.toNat 2 (th.get ra).toNat n 0 crcLimit
  if n = 0 then pure .seq
  else annexEnd t.toNat rd [] (BitVec.ofNat 64 (fold16 6 ((th.get rd).toNat % 65536 + sumWords bs)))

/-- CSFOLD of a value (R106). -/
def csfoldNat (v : Nat) : Nat :=
  65535 - fold16 6 (v % 65536 + v / 65536 % 65536 + v / 2 ^ 32 % 65536 + v / 2 ^ 48)

/-- CRC32C (R105). -/
def execCrc32c (t : Tid) (rd ra rb : RegNo) (s : State) : Host.Outcome State Fault Refusal :=
  word t (.crc32c t rd ra rb) (crcBody t rd ra rb) s
/-- CSUM (R106). -/
def execCsum (t : Tid) (rd ra rb : RegNo) (s : State) : Host.Outcome State Fault Refusal :=
  word t (.csum t rd ra rb) (csumBody t rd ra rb) s

/-- An operation on registers alone: its result. -/
def annexFun (t : Tid) (u : Nat) (rd : RegNo) (f : Thread → Word) : M Next := do
  annexTurn t.toNat u
  change (fun s => s.setG t.toNat rd (f (s.thr t.toNat)))
  pure .seq

/-- CSFOLD (R106). -/
def execCsfold (t : Tid) (rd ra : RegNo) (s : State) : Host.Outcome State Fault Refusal :=
  word t (.csfold t rd ra) (annexFun t 2 rd (fun th => BitVec.ofNat 64 (csfoldNat (th.get ra).toNat))) s

/-! ### Session lookup (R107) -/

/-- Read the key operand, and the entries of its bucket at the Session Store: an uncorrectable word of one raises
ECC-uncorrectable (05 R159); the entries of withdrawn rows are lost (05 R164). (log 34, DEDUCED) -/
def sessionKey (t : Nat) (ra rb : RegNo) : M (List Byte) := do
  let th ← look (fun s => s.thr t)
  let key ← lengthRead t 3 (th.get ra).toNat (th.get rb).toNat 1 32
  grantAll t [← look (fun s => s.fabricFor t 8)] true ()
  fun s =>
    let s' := s.sessionRead key
    match (sessionBucket key).find? (fun i => s.badRead (sessionArea i) 48 && !s.rowGone (sessionArea i)) with
    | some i => raiseA xEcc (sessionArea i) s'
    | none => .ok key s'

/-- The entries that follow a captured SINS or SDEL: its key, eight bytes each (08 R266, R267). -/
def keyEntries : Nat → List Byte → List CbEntry
  | 0, _ => []
  | n + 1, bs =>
    if bs.isEmpty then [] else ⟨9, 0, 0, BitVec.ofNat 64 (leNat (bs.take 8)), 0⟩ :: keyEntries n (bs.drop 8)

/-- The entries of a captured SINS (kind 7) or SDEL (kind 8). -/
def sessionEntries (kind : BitVec 4) (key : List Byte) (aux : Nat) : List CbEntry :=
  ⟨kind, 0, 0, BitVec.ofNat 64 (key.length + (crc32c 0 key).toNat * 2 ^ 32), BitVec.ofNat 16 aux⟩ :: keyEntries 4 key

/-- SLOOK. -/
def slookBody (t : Tid) (rd ra rb : RegNo) : M Next := do
  let key ← sessionKey t.toNat ra rb
  let r ← look (fun s => s.sessionFind key)
  annexEnd t.toNat rd [] (match r with
    | some i => BitVec.ofNat 64 i
    | none => -1)

/-- SINS: bit 16 of rd marks a new entry. In Metered mode the insert is captured. -/
def sinsBody (t : Tid) (rd ra rb : RegNo) : M Next := do
  let tn := t.toNat
  let key ← sessionKey tn ra rb
  let s ← look (fun s => s)
  match s.sessionFind key with
  | some i => annexEnd tn rd [] (BitVec.ofNat 64 i)
  | none =>
    if (s.thr tn).mode then do
      capture (tn / 4) (sessionEntries 7 key 0)
      annexEnd tn rd [] (-1)
    else
      match s.sessionInsert (some tn) key with
      | (some i, s') => do
        change (fun _ => s')
        annexEnd tn rd [] (BitVec.ofNat 64 (i + 65536))
      | (none, _) => annexEnd tn rd [] (-1)

/-- SDEL. In Metered mode the delete is captured. -/
def sdelBody (t : Tid) (rd ra rb : RegNo) : M Next := do
  let tn := t.toNat
  let key ← sessionKey tn ra rb
  let s ← look (fun s => s)
  match s.sessionFind key with
  | none => annexEnd tn rd [] 1
  | some i => do
    if (s.thr tn).mode then capture (tn / 4) (sessionEntries 8 key i)
    else change (fun s => s.sessionRemove (some tn) i)
    annexEnd tn rd [] 0

/-- SLOOK (R107). -/
def execSlook (t : Tid) (rd ra rb : RegNo) (s : State) : Host.Outcome State Fault Refusal :=
  word t (.slook t rd ra rb) (slookBody t rd ra rb) s
/-- SINS (R107). -/
def execSins (t : Tid) (rd ra rb : RegNo) (s : State) : Host.Outcome State Fault Refusal :=
  word t (.sins t rd ra rb) (sinsBody t rd ra rb) s
/-- SDEL (R107). -/
def execSdel (t : Tid) (rd ra rb : RegNo) (s : State) : Host.Outcome State Fault Refusal :=
  word t (.sdel t rd ra rb) (sdelBody t rd ra rb) s

/-! ### Decimal and conversions (R108, R109) -/

/-- DADD (R108). -/
def execDadd (t : Tid) (rd ra rb : RegNo) (s : State) : Host.Outcome State Fault Refusal :=
  word t (.dadd t rd ra rb) (annexFun t 4 rd (fun th => pkOp (· + ·) (th.get ra) (th.get rb))) s
/-- DSUB (R108). -/
def execDsub (t : Tid) (rd ra rb : RegNo) (s : State) : Host.Outcome State Fault Refusal :=
  word t (.dsub t rd ra rb) (annexFun t 4 rd (fun th => pkOp (· - ·) (th.get ra) (th.get rb))) s
/-- DMUL (R108). -/
def execDmul (t : Tid) (rd ra rb : RegNo) (s : State) : Host.Outcome State Fault Refusal :=
  word t (.dmul t rd ra rb) (annexFun t 4 rd (fun th => pkOp (· * ·) (th.get ra) (th.get rb))) s
/-- DCMP (R108). -/
def execDcmp (t : Tid) (rd ra rb : RegNo) (s : State) : Host.Outcome State Fault Refusal :=
  word t (.dcmp t rd ra rb) (annexFun t 4 rd (fun th => pkCmp (th.get ra) (th.get rb))) s
/-- DCHK (R108). -/
def execDchk (t : Tid) (rd ra : RegNo) (s : State) : Host.Outcome State Fault Refusal :=
  word t (.dchk t rd ra) (annexFun t 4 rd (fun th => BitVec.ofNat 64 (pkCheck (th.get ra)))) s

/-- A2P and E2P: a count of 1 to 15 digits (R100). -/
def digitsBody (t : Tid) (rd ra rb : RegNo) (f : List Byte → Word) : M Next := do
  let th ← look (fun s => s.thr t.toNat)
  let bs ← lengthRead t.toNat 5 (th.get ra).toNat (th.get rb).toNat 1 15
  annexEnd t.toNat rd [] (f bs)

/-- P2A and P2E: an invalid operand writes nothing and returns −1. -/
def unpackBody (t : Tid) (rd ra rb : RegNo) (f : Word → List Byte) : M Next := do
  let th ← look (fun s => s.thr t.toNat)
  let v := th.get ra
  annexStart t.toNat 5 (if pkValid v then [((th.get rb).toNat, (f v).length, true)] else [])
  if !pkValid v then annexEnd t.toNat rd [] (-1)
  else annexEnd t.toNat rd [((th.get rb).toNat, f v)] (BitVec.ofNat 64 (f v).length)

/-- A2P (R109). -/
def execA2p (t : Tid) (rd ra rb : RegNo) (s : State) : Host.Outcome State Fault Refusal :=
  word t (.a2p t rd ra rb) (digitsBody t rd ra rb ascToPk) s
/-- P2A (R109). -/
def execP2a (t : Tid) (rd ra rb : RegNo) (s : State) : Host.Outcome State Fault Refusal :=
  word t (.p2a t rd ra rb) (unpackBody t rd ra rb pkToAsc) s
/-- E2P (R109). -/
def execE2p (t : Tid) (rd ra rb : RegNo) (s : State) : Host.Outcome State Fault Refusal :=
  word t (.e2p t rd ra rb) (digitsBody t rd ra rb ebcToPk) s
/-- P2E (R109). -/
def execP2e (t : Tid) (rd ra rb : RegNo) (s : State) : Host.Outcome State Fault Refusal :=
  word t (.p2e t rd ra rb) (unpackBody t rd ra rb pkToEbc) s
/-- P2B (R109). -/
def execP2b (t : Tid) (rd ra : RegNo) (s : State) : Host.Outcome State Fault Refusal :=
  word t (.p2b t rd ra) (annexFun t 5 rd (fun th => pkToBin (th.get ra))) s
/-- B2P (R109). -/
def execB2p (t : Tid) (rd ra : RegNo) (s : State) : Host.Outcome State Fault Refusal :=
  word t (.b2p t rd ra) (annexFun t 5 rd (fun th => pkOf (th.get ra).toInt)) s

end Sys2Proof.Machine
end

