-- ==== Sys2Proof/Machine/Replay.lean ====
section
/-! DEFINITION. What a thread's command does once a host read that it waited for has ended: it runs again, with the bytes
that the read brought (10 R327). -/

namespace Sys2Proof.Machine

/-- The command that waited for a host read runs again. (log 18, DESIGN CHOICE) -/
def replay (i : Instr) : State → Host.Outcome State Fault Refusal :=
  match i with
  | .nop t => execNop t
  | .trap t code => execTrap t code
  | .eret t => execEret t
  | .wait t => execWait t
  | .waite t => execWaite t
  | .fence t => execFence t
  | .ifence t => execIfence t
  | .mfsr t rd n => execMfsr t rd n
  | .mtsr t n ra => execMtsr t n ra
  | .done t => execDone t
  | .add t rd ra rb => execAdd t rd ra rb
  | .sub t rd ra rb => execSub t rd ra rb
  | .and t rd ra rb => execAnd t rd ra rb
  | .or t rd ra rb => execOr t rd ra rb
  | .xor t rd ra rb => execXor t rd ra rb
  | .andn t rd ra rb => execAndn t rd ra rb
  | .shl t rd ra rb => execShl t rd ra rb
  | .shr t rd ra rb => execShr t rd ra rb
  | .sar t rd ra rb => execSar t rd ra rb
  | .ror t rd ra rb => execRor t rd ra rb
  | .slt t rd ra rb => execSlt t rd ra rb
  | .sltu t rd ra rb => execSltu t rd ra rb
  | .min t rd ra rb => execMin t rd ra rb
  | .max t rd ra rb => execMax t rd ra rb
  | .minu t rd ra rb => execMinu t rd ra rb
  | .maxu t rd ra rb => execMaxu t rd ra rb
  | .mul t rd ra rb => execMul t rd ra rb
  | .mulh t rd ra rb => execMulh t rd ra rb
  | .mulhu t rd ra rb => execMulhu t rd ra rb
  | .div t rd ra rb => execDiv t rd ra rb
  | .divu t rd ra rb => execDivu t rd ra rb
  | .rem t rd ra rb => execRem t rd ra rb
  | .remu t rd ra rb => execRemu t rd ra rb
  | .addw t rd ra rb => execAddw t rd ra rb
  | .subw t rd ra rb => execSubw t rd ra rb
  | .shlw t rd ra rb => execShlw t rd ra rb
  | .shrw t rd ra rb => execShrw t rd ra rb
  | .sarw t rd ra rb => execSarw t rd ra rb
  | .mulw t rd ra rb => execMulw t rd ra rb
  | .clz t rd ra => execClz t rd ra
  | .ctz t rd ra => execCtz t rd ra
  | .popc t rd ra => execPopc t rd ra
  | .bswap t rd ra => execBswap t rd ra
  | .sextb t rd ra => execSextb t rd ra
  | .sexth t rd ra => execSexth t rd ra
  | .zextb t rd ra => execZextb t rd ra
  | .zexth t rd ra => execZexth t rd ra
  | .addi t rd ra imm => execAddi t rd ra imm
  | .andi t rd ra imm => execAndi t rd ra imm
  | .ori t rd ra imm => execOri t rd ra imm
  | .xori t rd ra imm => execXori t rd ra imm
  | .shli t rd ra count => execShli t rd ra count
  | .shri t rd ra count => execShri t rd ra count
  | .sari t rd ra count => execSari t rd ra count
  | .rori t rd ra count => execRori t rd ra count
  | .slti t rd ra imm => execSlti t rd ra imm
  | .sltiu t rd ra imm => execSltiu t rd ra imm
  | .muli t rd ra imm => execMuli t rd ra imm
  | .addwi t rd ra imm => execAddwi t rd ra imm
  | .movi t rd imm => execMovi t rd imm
  | .orh t rd half imm => execOrh t rd half imm
  | .addpc t rd imm => execAddpc t rd imm
  | .ldb t rd ra mode disp => execLdb t rd ra mode disp
  | .ldbs t rd ra mode disp => execLdbs t rd ra mode disp
  | .ldh t rd ra mode disp => execLdh t rd ra mode disp
  | .ldhs t rd ra mode disp => execLdhs t rd ra mode disp
  | .ldw t rd ra mode disp => execLdw t rd ra mode disp
  | .ldws t rd ra mode disp => execLdws t rd ra mode disp
  | .ldd t rd ra mode disp => execLdd t rd ra mode disp
  | .stb t rs ra mode disp => execStb t rs ra mode disp
  | .sth t rs ra mode disp => execSth t rs ra mode disp
  | .stw t rs ra mode disp => execStw t rs ra mode disp
  | .std t rs ra mode disp => execStd t rs ra mode disp
  | .tas t rd ra rank => execTas t rd ra rank
  | .rels t ra rank => execRels t ra rank
  | .lr t rd ra timed => execLr t rd ra timed
  | .lrw t rd ra timed => execLrw t rd ra timed
  | .sc t rd ra rb => execSc t rd ra rb
  | .scw t rd ra rb => execScw t rd ra rb
  | .ioIn t rd ra imm => execIoIn t rd ra imm
  | .out t rs ra imm => execOut t rs ra imm
  | .ind t rd ra imm => execInd t rd ra imm
  | .outd t rs ra imm => execOutd t rs ra imm
  | .iload t rd ra imm => execIload t rd ra imm
  | .istore t rs ra imm => execIstore t rs ra imm
  | .b t off => execB t off
  | .bl t off => execBl t off
  | .br t ra => execBr t ra
  | .blr t ra => execBlr t ra
  | .beq t ra rb off => execBeq t ra rb off
  | .bne t ra rb off => execBne t ra rb off
  | .blt t ra rb off => execBlt t ra rb off
  | .bge t ra rb off => execBge t ra rb off
  | .bltu t ra rb off => execBltu t ra rb off
  | .bgeu t ra rb off => execBgeu t ra rb off
  | .callm t ra mask steps => execCallm t ra mask steps
  | .retm t mask steps => execRetm t mask steps
  | .send t rd ra rb port cls => execSend t rd ra rb port cls
  | .mbrd t rd ra => execMbrd t rd ra
  | .movb t rd ra rb steps => execMovb t rd ra rb steps
  | .fillb t rd ra rb steps => execFillb t rd ra rb steps
  | .pairedWord t a b => execPairedWord t a b
  | .akey128 t rd ra rb => execAkey128 t rd ra rb
  | .akey256 t rd ra rb => execAkey256 t rd ra rb
  | .gcmenc t rd ra rb => execGcmenc t rd ra rb
  | .gcmdec t rd ra rb => execGcmdec t rd ra rb
  | .ghash t rd ra rb => execGhash t rd ra rb
  | .gcmtag t rd ra rb => execGcmtag t rd ra rb
  | .cmac t rd ra rb => execCmac t rd ra rb
  | .cmacend t rd ra rb => execCmacend t rd ra rb
  | .s256init t rd ra => execS256init t rd ra
  | .s256blk t rd ra rb => execS256blk t rd ra rb
  | .s256end t rd ra rb => execS256end t rd ra rb
  | .s384init t rd ra => execS384init t rd ra
  | .s384blk t rd ra rb => execS384blk t rd ra rb
  | .s384end t rd ra rb => execS384end t rd ra rb
  | .crc32c t rd ra rb => execCrc32c t rd ra rb
  | .csum t rd ra rb => execCsum t rd ra rb
  | .csfold t rd ra => execCsfold t rd ra
  | .slook t rd ra rb => execSlook t rd ra rb
  | .sins t rd ra rb => execSins t rd ra rb
  | .sdel t rd ra rb => execSdel t rd ra rb
  | .dadd t rd ra rb => execDadd t rd ra rb
  | .dsub t rd ra rb => execDsub t rd ra rb
  | .dmul t rd ra rb => execDmul t rd ra rb
  | .dcmp t rd ra rb => execDcmp t rd ra rb
  | .dchk t rd ra => execDchk t rd ra
  | .a2p t rd ra rb => execA2p t rd ra rb
  | .p2a t rd ra rb => execP2a t rd ra rb
  | .e2p t rd ra rb => execE2p t rd ra rb
  | .p2e t rd ra rb => execP2e t rd ra rb
  | .p2b t rd ra => execP2b t rd ra
  | .b2p t rd ra => execB2p t rd ra
  | .farx t op rd ra rb fn => execFarx t op rd ra rb fn
  | .annexTimeout t => execAnnexTimeout t
  | .exceptionEntry t cause => execExceptionEntry t cause
  | .interruptEntry t => execInterruptEntry t
  | .threadReset t => execThreadReset t
  | .waitTimeout t => execWaitTimeout t
  | _ => fun s => .next s

/-- The state after a command runs again. (log 18, DESIGN CHOICE) -/
def State.rerun (s : State) (i : Instr) : State :=
  match replay i s with
  | .next t => t
  | _ => s

end Sys2Proof.Machine
end

