-- ==== Sys2Proof/Machine/HostBus.lean ====
section
/-! DEFINITION. What the partner die sends: BAR requests, configuration requests, completions of the device's reads, and
the training of the link (10 R319 to R328, R344, R347; 09 R314; 05 R161). -/

namespace Sys2Proof.Machine

/-! ### BAR requests (R324 to R326) -/

/-- One DWORD of a register read through a BAR; none where the access waits for a region's wake. -/
def State.barRead (s : State) (f : FnId) (a : Nat) : Option Word32 × State :=
  if (if routeOk (.pf f) a then s.blockAsleep a else none).isSome then (none, (s.access (.pf f) a false fun d i b s => s.readReg (.pf f) d i b).2)
  else
    let r := s.access (.pf f) a false (fun d i b s => s.readReg (.pf f) d i b)
    (some (r.1.getD 0xFFFFFFFF#32), r.2)

/-- The I/O address of an offset in the register range of a function's BAR0; none outside the range. -/
def barReg (f : FnId) (off : Nat) : Option Nat :=
  if f = 0 then (if off < 0x1000000 then some off else none)
  else if off < 0x10000 then some (0x100000 + 0x10000 * f.toNat + off)
  else none

/-- Function 0's BAR0 offset lies in the frame buffer. (log 111, DEDUCED) -/
def barFrame (f : FnId) (off n : Nat) : Bool := f == 0 && decide (0x2000000 ≤ off) && decide (off + n ≤ 0x4000000)

/-- A read of the frame buffer: an uncorrectable word gives poisoned data and is reported. -/
def State.barFrameRead (s : State) (off n : Nat) : State :=
  let a := frameBase + (off - 0x2000000)
  let bad := s.badRead a n
  let r := s.hostBytes a n
  r.2.sendLink (.barData 0 r.1 bad)

/-- The aligned words that `n` bytes from an address touch, but for those which the bytes cover only in part and which
hold an uncorrectable error. -/
def State.barFrameWrite (s : State) (off : Nat) (bs : List Byte) : State :=
  let a := frameBase + (off - 0x2000000)
  if s.badWrite a bs.length then
    let s := s.reportBad a bs.length
    (wordsOf a bs.length).foldl (fun s w =>
      if s.eccU.contains w && !coversWord a bs.length w then s
      else
        let lo := max a w
        let hi := min (a + bs.length) (w + 8)
        s.store none lo (slice bs (lo - a) (hi - lo))) s
  else
    let part := (wordsOf a bs.length).filter (fun w => s.eccC.contains w && !coversWord a bs.length w)
    (part.foldl (fun s w => s.correct w 1) s).store none a bs

/-- A register range request: one DWORD acts as IN or OUT, two aligned ones as IND or OUTD (R325). -/
def dwords (off n : Nat) : Option Nat :=
  if n = 4 ∧ off % 4 = 0 then some 1 else if n = 8 ∧ off % 8 = 0 then some 2 else none

def State.barRegRead (s : State) (f : FnId) (a k : Nat) : State :=
  match s.barRead f a with
  | (none, s') => s'
  | (some lo, s') =>
    if k = 1 then s'.sendLink (.barData f.toNat (leBytes 4 lo.toNat) false)
    else
      let r := s'.barRead f (a + 4)
      r.2.sendLink (.barData f.toNat (leBytes 4 lo.toNat ++ leBytes 4 (r.1.getD 0).toNat) false)

def State.barRegWrite (s : State) (f : FnId) (a k : Nat) (bs : List Byte) : State :=
  let lo := BitVec.ofNat 32 (leNat (bs.take 4))
  if k = 1 then s.performWrite (.pf f) a lo
  else (s.performWrite (.pf f) (a + 4) (BitVec.ofNat 32 (leNat (bs.drop 4)))).performWrite (.pf f) a lo

/-! ### The MSI-X table (R324; 09 R314) -/

/-- One DWORD of BAR2. (log 67, PRESUMED) -/
def State.bar2Read (s : State) (f off : Nat) : Word32 :=
  if off < 0x8000 then
    let v := s.vec (2048 * f + off / 16)
    match off % 16 / 4 with
    | 0 => v.addrLo
    | 1 => v.addrHi
    | 2 => v.data
    | _ => v.ctrl
  else if off < 0x8100 then
    BitVec.ofNat 32 (bitWord 32 (fun j => (s.vec (2048 * f + (off - 0x8000) / 4 * 32 + j)).pend))
  else 0

/-- A write of one DWORD of BAR2: a vector that is unmasked sends its pending message. -/
def State.bar2Write (s : State) (f off : Nat) (w : Word32) : State :=
  if 0x8000 ≤ off then s
  else
    let q := 2048 * f + off / 16
    match off % 16 / 4 with
    | 0 => s.modVec q (fun v => { v with addrLo := w &&& 0xFFFFFFFC#32 })
    | 1 => s.modVec q (fun v => { v with addrHi := w })
    | 2 => s.modVec q (fun v => { v with data := w })
    | _ => (s.modVec q (fun v => { v with ctrl := w &&& 1#32 })).msixRetry q

/-- An error of a function that Advanced Error Reporting holds, with its message where the function reports errors (R319). (log 67, PRESUMED) -/
def State.pcieError (s : State) (f bit : Nat) : State :=
  let s := s.modFunc f (fun y => { y with aer := y.aer ||| BitVec.ofNat 32 (2 ^ bit) })
  if (s.func f).errEn then s.sendLink (.message f 0x31) else s

/-- A request that completes as Unsupported Request. (log 68, DEDUCED) -/
def State.unsupported (s : State) (f : FnId) : State := (s.sendLink (.unsupported f.toNat)).pcieError f.toNat 20

/-- A BAR request is performed (R324, R325). -/
def State.barPerform (s : State) (f : FnId) (x : BarRequest) : State :=
  match x with
  | .readReg off n =>
    if barFrame f off.toNat n then s.barFrameRead off.toNat n
    else
      (match barReg f off.toNat, dwords off.toNat n with
      | some a, some k => s.barRegRead f a k
      | none, _ => if f = 0 then s.sendLink (.barData 0 (List.replicate n 0xFF) false) else s.unsupported f
      | _, none => s.unsupported f)
  | .writeReg off bs =>
    if barFrame f off.toNat bs.length then s.barFrameWrite off.toNat bs
    else
      (match barReg f off.toNat, dwords off.toNat bs.length with
      | some a, some k => s.barRegWrite f a k bs
      | none, _ => if f = 0 then s else s.unsupported f
      | _, none => s.unsupported f)
  | .readBar2 off => s.sendLink (.barData f.toNat (leBytes 4 (s.bar2Read f.toNat off.toNat).toNat) false)
  | .writeBar2 off w => s.bar2Write f.toNat off.toNat w

/-- A BAR request waits: at the arbiter of fabric target 9, which is frozen (05 R182), or as a write to HQ_POST that waits (R341). (log 68, DEDUCED) -/
def State.barStops (s : State) (f : FnId) (x : BarRequest) : Bool :=
  match x with
  | .readReg off n => s.targetFrozen 9 false && barFrame f off.toNat n
  | .writeReg off bs => (s.targetFrozen 9 false && barFrame f off.toNat bs.length) ||
      (barReg f off.toNat).any (fun a => s.postWaits a (BitVec.ofNat 32 (leNat (bs.take 4))) ||
        (bs.length == 8 && s.postWaits (a + 4) (BitVec.ofNat 32 (leNat (bs.drop 4)))))
  | _ => false

/-- Requests that waited are performed in the order of their arrival, up to one that still waits (R326). (log 68, DEDUCED) -/
def State.barDrain : Nat → State → State
  | 0, s => s
  | fuel + 1, s =>
    match s.link.bars with
    | [] => s
    | (f, x) :: rest =>
      if s.barStops f x then s
      else ((s.modLink (fun l => { l with bars := rest })).barPerform f x).settle.barDrain fuel

/-- BAR_ACCESS (R325): a request that arrives while the link is usable; it is performed after those that wait (R326). (log 68, DEDUCED) -/
def execBarAccess (f : FnId) (x : BarRequest) (s : State) : Host.Outcome State Fault Refusal :=
  if !s.routeLive (.pf f) then .next s
  else if s.link.bars.isEmpty && !s.barStops f x then device (s.barPerform f x)
  else .next (s.modLink (fun l => { l with bars := l.bars ++ [(f, x)] }))

/-! ### Configuration requests (R319, R323, R328; 09 R314) -/

/-- Pending messages of a function that may send now are sent. -/
def State.functionRetry (s : State) (f : Nat) : State := (s.pendingVecs f).foldl State.msixRetry s

/-- A DWORD of a function's configuration space: what R323 names, and a free value else. (log 67, PRESUMED) -/
def State.configRead (s : State) (f off : Nat) : Word32 :=
  match off / 4 * 4 with
  | 0x00 => s.reg Reg.GL_PCIID
  | 0x08 => 0x0B400002#32
  | 0x2C => s.reg Reg.GL_PCISS
  | o => Config.configWord f o

/-- CONFIG_ACCESS. (log 67, PRESUMED) -/
def execConfigAccess (f : FnId) (x : ConfigRequest) (s : State) : Host.Outcome State Fault Refusal :=
  let n := f.toNat
  if !s.routeLive (.pf f) then .next s
  else
    match x with
    | .busMaster on => device ((s.modFunc n (fun y => { y with bme := on })).functionRetry n).flushStaged
    | .msix en mask => device ((s.modFunc n (fun y => { y with msixEn := en, msixMask := mask })).functionRetry n)
    | .tags w => device (s.modFunc n (fun y => { y with tags := w }))
    | .devCtl2 c => device (s.modFunc n (fun y => { y with cto := c }))
    | .relaxed on => device (s.modFunc n (fun y => { y with relaxed := on }))
    | .power d3 => device ((s.modFunc n (fun y => { y with d3 := d3 })).functionRetry n)
    | .payload p r => device (s.modFunc n (fun y => { y with mps := p, mrrs := r }))
    | .errors on w => device (s.modFunc n (fun y => { y with errEn := on, aer := y.aer &&& ~~~ w }))
    | .read off => device (s.sendLink (.config n (off.toNat / 4 * 4) (s.configRead n off.toNat)))

/-! ### Completions (R327) -/

/-- A host read of a thread ends: with its bytes, or as failed, which is counted. The command that made it runs
again. -/
def State.hostDone (s : State) (t : Nat) (ok : Bool) (data : List Byte) : State :=
  match (s.thr t).hostRd with
  | none => s
  | some r =>
    let good := ok && data.length == r.len
    let got : List (Nat × Option Byte) :=
      (List.range r.len).map (fun i => (r.va + i, if good then some (byteAt data i) else none))
    let s := if good then s else s.bump Fld.GL_HL_RDERR_COUNT
    (s.modThr t (fun th => { th with hostRd := none, hostGot := th.hostGot ++ got })).rerun r.instr

/-- HOST_READ_COMPLETION. (log 18, DESIGN CHOICE) -/
def execHostReadCompletion (t : Tid) (ok : Bool) (data : List Byte) (s : State) : Host.Outcome State Fault Refusal :=
  if s.linkUsable then device (s.hostDone t.toNat ok data) else .next s

/-- The shortest time after which a function's completion timeout may end a read, in ns, by the value in its Device
Control 2: ranges A and B of PCI Express, the default else. (log 67, PRESUMED) -/
def ctoNs (c : BitVec 4) : Nat :=
  match c.toNat with
  | 1 => 50000
  | 2 => 1000000
  | 5 => 16000000
  | 6 => 65000000
  | _ => 50000

/-- COMPLETION_TIMEOUT: a read of a thread, or the read of an engine for a queue, ends as failed. (log 18, DESIGN CHOICE) -/
def execCompletionTimeout (who : ReadOwner) (s : State) : Host.Outcome State Fault Refusal :=
  match who with
  | .thread t =>
    match (s.thr t.toNat).hostRd with
    | some r =>
      if r.sentAt + ctoNs (s.func r.fn).cto ≤ s.now then device ((s.pcieError r.fn 14).hostDone t.toNat false []) else .next s
    | none => .next s
  | .queue q =>
    match (s.hq q.toNat).reading with
    | some (at_, _) =>
      if at_ + ctoNs (s.func (q.toNat / 2048)).cto ≤ s.now then
        device ((s.pcieError (q.toNat / 2048) 14).engineFail q.toNat)
      else .next s
    | none => .next s

/-! ### Training (R320, R322) -/

/-- Entry to LinkError ends every outstanding read as failed. (log 114, DEDUCED) -/
def State.failReads (s : State) : State :=
  let ts := (s.threads.filter (fun kv => kv.2.hostRd.isSome)).map (·.1)
  let qs := (s.hqs.filter (fun kx => kx.2.reading.isSome)).map (·.1)
  let s := qs.foldl State.engineFail s
  ts.foldl (fun s t => s.hostDone t false []) s

/-- LINK_TRAINING: a training or retraining attempt succeeds, at no more than GL_LINK_CTL.MAXSPD, or fails; the third
failure in a row leads to LinkError. From Reset, Training begins first. -/
def execLinkTraining (ok : Bool) (speed : BitVec 2) (repair : Bool) (s : State) : Host.Outcome State Fault Refusal :=
  let st := s.linkState
  if !s.dieOn ∨ (st ≠ 0 ∧ st ≠ 1 ∧ st ≠ 3) then .next s
  else
  let s := if st = 0 then s.linkTo 1 else s
  if ok then
    let s := (s.put Fld.GL_LINK_STS_SPEED (min speed.toNat (s.get Fld.GL_LINK_CTL_MAXSPD))).put Fld.GL_LINK_STS_REPAIR
      (b2n repair)
    device ((s.modLink (fun l => { l with attempts := 0 })).linkTo 2)
  else
    let n := s.link.attempts + 1
    let s := s.modLink (fun l => { l with attempts := n })
    if n < 3 then device s
    else device ((s.linkTo 6).failReads)

/-! ### A step with no command -/

/-- A nanosecond passes with no command waiting; PWM generators come to their boundaries (11 R357); frames and BAR requests that waited at a frozen target, and wait no more, go on. (log 5, DESIGN CHOICE) -/
def State.idle (s : State) : State :=
  let s := s.tick.pwmTick s.tb.now
  if s.porter.ingress.isEmpty && s.link.bars.isEmpty then s
  else
    let s := s.ingressDrain.settle
    s.barDrain s.link.bars.length

end Sys2Proof.Machine
end

