-- ==== Sys2Proof/Machine/Records.lean ====
section
/-! DEFINITION. The records of a Ledger in application (13_boot_attar_ledger.md R432, R433, R437). -/

namespace Sys2Proof.Machine

/-- A write that is discarded sets APPERR and counts; the first sets LG_ERRADDR. (log 102, DEDUCED) -/
def State.ledgerErr (s : State) (a : Nat) : State :=
  let s := s.lgSts (fun w => bitsSet w 11 1 1)
  let s := s.bump Fld.LG_ERRCNT_COUNT
  if s.ledger.bad then s else (s.put Fld.LG_ERRADDR_ADDR a).modLedger (fun l => { l with bad := true })

/-- The I/O address that a steward thread's access at `a` reaches: the own-core window is the steward's CO block. -/
def ledgerAddr (a : Nat) : Nat := if 0xFF0000 ≤ a ∧ a < 0xFF0800 then Reg.CO_ID + coOff 0 + (a - 0xFF0000) else a

/-- The register that a record's write reaches: none for the LG block and for offsets that hold no register. -/
def ledgerReach (a : Nat) : Option (RegDesc × Nat × Nat) := if a / 0x10000 = 1 then none else reach .ledger (ledgerAddr a)

/-- One write of a record, performed as an OUT by a steward thread. -/
def State.ledgerWrite1 (s : State) (a : Nat) (v : Word32) : State :=
  match ledgerReach a with
  | none => s.ledgerErr a
  | some (d, i, b) =>
    let refused := !s.stoppedFor d.base i v && changesStopped d v (s.reg b) && (s.writeDiscarded d.base b).isNone
    let s := (s.writeReg .ledger d i b v).settleOn
    if refused then s.ledgerErr a else s

/-- A Ledger is in application and the die acts; answers its front record of type `ty`. -/
def State.frontRecord (s : State) (ty : Nat) : Option (LedgerRec × List LedgerRec) :=
  if s.get Fld.LG_STS_STATE = 1 ∧ s.dieOn then
    (match s.ledger.recs with
      | r :: rest => if r.ty = ty then some (r, rest) else none
      | [] => none)
  else none

/-- The front record is done. -/
def State.nextRecord (s : State) (rest : List LedgerRec) : State :=
  s.modLedger (fun l => { l with recs := rest, done := 0, waitAt := none })

/-- Write the words of a WRITE record from the k-th on; a write that must wait for a region's wake leaves the rest. -/
def State.writeWords (s : State) (rest : List LedgerRec) (a : Nat) : List Word32 → Nat → State
  | [], _ => s.nextRecord rest
  | v :: vs, k =>
    match s.blockAsleep (ledgerAddr (a + 4 * k)) with
    | some r => (s.modLedger (fun l => { l with done := k })).askWake r
    | none => (s.ledgerWrite1 (a + 4 * k) v).writeWords rest a vs (k + 1)

/-- WRITE: word k to ADDR + 4k, in ascending k. -/
def execLedgerWrite (s : State) : Host.Outcome State Fault Refusal :=
  match s.frontRecord 1 with
  | some (r, rest) => .next (s.writeWords rest r.addr (r.words.drop s.ledger.done) s.ledger.done)
  | none => .next s

/-- MODIFY: reads the register as IN does, then writes the bits of MASK. -/
def execLedgerModify (s : State) : Host.Outcome State Fault Refusal :=
  match s.frontRecord 2 with
  | some (r, rest) =>
    match s.blockAsleep (ledgerAddr r.addr) with
    | some g => .next (s.askWake g)
    | none =>
      let m := r.words.getD 0 0
      let v := r.words.getD 1 0
      match reach .ledger (ledgerAddr r.addr) with
      | none => .next ((s.ledgerErr r.addr).nextRecord rest)
      | some (d, i, b) =>
        let q := s.readReg .ledger d i b
        .next ((q.2.ledgerWrite1 r.addr ((q.1 &&& ~~~ m) ||| (v &&& m))).nextRecord rest)
  | none => .next s

/-- An application ends with an error: STATE 4. -/
def State.ledgerFail (s : State) (fail : Nat) : State :=
  (s.modLedger (fun l => { l with recs := [], done := 0, waitAt := none })).lgSts
    (fun w => hcause 4 (bitsSet (bitsSet w 0 3 4) 8 3 fail))

/-- LEDGER_WAIT: the register is read; the record ends when the masked bits have the value, and the application when the
time is over. A register that does not exist never has it. (log 102, DEDUCED) -/
def execLedgerWait (s : State) : Host.Outcome State Fault Refusal :=
  match s.frontRecord 3 with
  | some (r, rest) =>
    let since := s.ledger.waitAt.getD s.now
    let s := s.modLedger (fun l => { l with waitAt := some since })
    match s.blockAsleep (ledgerAddr r.addr) with
    | some g => if since + 1000 * r.count ≤ s.now then device (s.ledgerFail 5) else .next (s.askWake g)
    | none =>
      let q := match reach .ledger (ledgerAddr r.addr) with
        | some (d, i, b) => (s.readReg .ledger d i b).map some id
        | none => (none, s)
      let hit := match q.1 with
        | some w => w &&& r.words.getD 0 0 == r.words.getD 1 0
        | none => false
      if hit then .next (q.2.nextRecord rest)
      else if since + 1000 * r.count ≤ s.now then device (q.2.ledgerFail 5)
      else .next q.2
  | none => .next s

/-- LEDGER_END: STATE 2, or 4 with FAIL 4 where a write was discarded. -/
def execLedgerEnd (s : State) : Host.Outcome State Fault Refusal :=
  match s.frontRecord 0xFF with
  | some (_, rest) =>
    if s.ledger.bad then device (s.ledgerFail 4)
    else device ((s.nextRecord rest).lgSts (fun w => hcause 1 (bitsSet w 0 3 2)))
  | none => .next s

end Sys2Proof.Machine
end

