-- ==== Sys2Proof/Machine/RegCmds.lean ====
section
/-! DEFINITION. The commands that are a read or a write of one register: each is the access of `IoOps.lean` at its
register (00_scope.md R7, R8, R14; 15 R458). Where the command is the write of 1 to a bit, that bit of the value is 1. -/

namespace Sys2Proof.Machine

/-- Set or clear bits of a value that is written. -/
def withBits (v on off : Word32) : Word32 := (v &&& ~~~ off) ||| on

/-- REGISTER_WRITE (00 R14): a write to a register under its fields' access types and update categories. (log 21, DESIGN CHOICE) -/
def execRegisterWrite (rq : Requester) (a : IoAddr) (v : Word32) (s : State) : Host.Outcome State Fault Refusal :=
  .next (s.performWrite rq (a.toNat) (v))

/-- PAIR_LO_WRITE (00 R7): the held high half and the new low half act together. -/
def execPairLoWrite (rq : Requester) (a : IoAddr) (v : Word32) (s : State) : Host.Outcome State Fault Refusal :=
  .next (s.performWrite rq (a.toNat) (v))

/-- PAIR_HI_WRITE (00 R7): the value is held. -/
def execPairHiWrite (rq : Requester) (a : IoAddr) (v : Word32) (s : State) : Host.Outcome State Fault Refusal :=
  .next (s.performWrite rq (a.toNat) (v))

/-- PAIR_LO_READ (00 R7): the low half; the high half goes to the snapshot register. -/
def execPairLoRead (rq : Requester) (a : IoAddr) (s : State) : Host.Outcome State Fault Refusal :=
  .next (s.performRead rq (a.toNat))

/-- RC_READ (00 R8): the register, whose RC fields are then cleared. -/
def execRcRead (rq : Requester) (a : IoAddr) (s : State) : Host.Outcome State Fault Refusal :=
  .next (s.performRead rq (a.toNat))

/-- TY_POP (11 R365). -/
def execTyPop (rq : Requester) (s : State) : Host.Outcome State Fault Refusal :=
  .next (s.performRead rq (Reg.TY_POP))

/-- PT_TXTSID (06 R192). -/
def execPtTxtsid (rq : Requester) (p : PortId) (s : State) : Host.Outcome State Fault Refusal :=
  .next (s.performRead rq (Reg.PT_TXTSID + ptOff p.toNat))

/-- RST (04 R136). -/
def execRst (rq : Requester) (t : Tid) (v : Word32) (s : State) : Host.Outcome State Fault Refusal :=
  .next (s.performWrite rq (Reg.CO_TCTL + thOff t.toNat) (withBits v 1 0))

/-- EN (06 R187): PT_CTL. -/
def execPtEn (rq : Requester) (p : PortId) (v : Word32) (s : State) : Host.Outcome State Fault Refusal :=
  .next (s.performWrite rq (Reg.PT_CTL + ptOff p.toNat) (v))

/-- QUEUE_START (10 R330). -/
def execQueueStart (rq : Requester) (q : QueueId) (v : Word32) (s : State) : Host.Outcome State Fault Refusal :=
  .next (s.performWrite rq (Reg.HQ_CFG + hqOff q.toNat) (withBits v 1 0))

/-- QUEUE_STOP (10 R344). -/
def execQueueStop (rq : Requester) (q : QueueId) (v : Word32) (s : State) : Host.Outcome State Fault Refusal :=
  .next (s.performWrite rq (Reg.HQ_CFG + hqOff q.toNat) (withBits v 0 1))

/-- SQTAIL (10 R342): doorbell WHICH 0. -/
def execSqtail (rq : Requester) (q : QueueId) (index : BitVec 16) (s : State) : Host.Outcome State Fault Refusal :=
  .next (s.performWrite rq (Reg.HQ_DB + hqOff q.toNat) (index.setWidth 32 ||| 0#32))

/-- CQHEAD (10 R342): doorbell WHICH 1. -/
def execCqhead (rq : Requester) (q : QueueId) (index : BitVec 16) (s : State) : Host.Outcome State Fault Refusal :=
  .next (s.performWrite rq (Reg.HQ_DB + hqOff q.toNat) (index.setWidth 32 ||| 65536#32))

/-- SQHEAD (10 R342): doorbell WHICH 2. -/
def execSqhead (rq : Requester) (q : QueueId) (index : BitVec 16) (s : State) : Host.Outcome State Fault Refusal :=
  .next (s.performWrite rq (Reg.HQ_DB + hqOff q.toNat) (index.setWidth 32 ||| 131072#32))

/-- HQ_POST (10 R341). -/
def execHqPost (rq : Requester) (q : QueueId) (v : Word32) (s : State) : Host.Outcome State Fault Refusal :=
  .next (s.performWrite rq (Reg.HQ_POST + hqOff q.toNat) (v))

/-- SWSET (09 R296). -/
def execSwset (rq : Requester) (w : BitVec 3) (v : Word32) (s : State) : Host.Outcome State Fault Refusal :=
  .next (s.performWrite rq (Reg.CR_SWSET + 4 * w.toNat) (v))

/-- SWCLR (09 R296). -/
def execSwclr (rq : Requester) (w : BitVec 3) (v : Word32) (s : State) : Host.Outcome State Fault Refusal :=
  .next (s.performWrite rq (Reg.CR_SWCLR + 4 * w.toNat) (v))

/-- COMPLETE (09 R310): CR_TCMPL of a thread, or CR_MYCMPL. -/
def execComplete (rq : Requester) (t : Option Tid) (v : Word32) (s : State) : Host.Outcome State Fault Refusal :=
  .next (s.performWrite rq (match t with
    | some t => Reg.CR_TCMPL + 16 * t.toNat
    | none => Reg.CR_MYCMPL) v)

/-- AS_TREQ (08 R278). -/
def execAsTreq (rq : Requester) (v : Word32) (s : State) : Host.Outcome State Fault Refusal :=
  .next (s.performWrite rq (Reg.AS_TREQ) (v))

/-- RESUME (08 R292): a write of 1 to AS_HOLD.RESUME, whose test ends as given. (log 110, DESIGN CHOICE) -/
def execResume (rq : Requester) (_v : Word32) (pass : Bool) (s : State) : Host.Outcome State Fault Refusal :=
  .next (s.access rq Reg.AS_HOLD true (fun _ _ _ s => ((), (s.holdResume pass).settleOn))).2

/-- TABLE_CHECK (07 R250). -/
def execTableCheck (rq : Requester) (v : Word32) (s : State) : Host.Outcome State Fault Refusal :=
  .next (s.performWrite rq (Reg.PS_CHK) (withBits v 1 0))

/-- PS_EN (07 R241). -/
def execPsEn (rq : Requester) (v : Word32) (s : State) : Host.Outcome State Fault Refusal :=
  .next (s.performWrite rq (Reg.PS_CTL) (v))

/-- ROLE (07 R239, R240). -/
def execRole (rq : Requester) (v : Word32) (s : State) : Host.Outcome State Fault Refusal :=
  .next (s.performWrite rq (Reg.PS_CTL) (v))

/-- PS_BEAT (04 R146). -/
def execPsBeat (rq : Requester) (v : Word32) (s : State) : Host.Outcome State Fault Refusal :=
  .next (s.performWrite rq (Reg.PS_BEAT) (v))

/-- PS_SLOT (07 R242). -/
def execPsSlot (rq : Requester) (v : Word32) (s : State) : Host.Outcome State Fault Refusal :=
  .next (s.performWrite rq (Reg.PS_SLOT) (v))

/-- TY_DROP (11 R367). -/
def execTyDrop (rq : Requester) (v : Word32) (s : State) : Host.Outcome State Fault Refusal :=
  .next (s.performWrite rq (Reg.TY_DROP) (withBits v 1 0))

/-- TY_PUSH (11 R369). -/
def execTyPush (rq : Requester) (v : Word32) (s : State) : Host.Outcome State Fault Refusal :=
  .next (s.performWrite rq (Reg.TY_PUSH) (v))

/-- TY_CTL (11 R361). -/
def execTyCtl (rq : Requester) (v : Word32) (s : State) : Host.Outcome State Fault Refusal :=
  .next (s.performWrite rq (Reg.TY_CTL) (v))

/-- SNAP (11 R360). -/
def execSnap (rq : Requester) (v : Word32) (s : State) : Host.Outcome State Fault Refusal :=
  .next (s.performWrite rq (Reg.TY_HCTL) (v))

/-- STEP (11 R374). -/
def execTbStep (rq : Requester) (v : Word32) (s : State) : Host.Outcome State Fault Refusal :=
  .next (s.performWrite rq (Reg.TB_STEP_LO) (v))

/-- SET (11 R374). -/
def execTbSet (rq : Requester) (v : Word32) (s : State) : Host.Outcome State Fault Refusal :=
  .next (s.performWrite rq (Reg.TB_SET_LO) (v))

/-- SLEW (11 R374). -/
def execSlew (rq : Requester) (v : Word32) (s : State) : Host.Outcome State Fault Refusal :=
  .next (s.performWrite rq (Reg.TB_SLEW) (v))

/-- OK (11 R376). -/
def execDiscOk (rq : Requester) (v : Word32) (s : State) : Host.Outcome State Fault Refusal :=
  .next (s.performWrite rq (Reg.TB_DISC) (withBits v 1 2))

/-- LOST (11 R376). -/
def execDiscLost (rq : Requester) (v : Word32) (s : State) : Host.Outcome State Fault Refusal :=
  .next (s.performWrite rq (Reg.TB_DISC) (withBits v 2 0))

/-- COMMIT (13 R434): every group of an applied Ledger. -/
def execCommit (rq : Requester) (v : Word32) (s : State) : Host.Outcome State Fault Refusal :=
  .next (s.performWrite rq (Reg.LG_COMMIT) (withBits v 0 0x100))

/-- DIRECT_COMMIT (13 R434): the selected groups. -/
def execDirectCommit (rq : Requester) (v : Word32) (s : State) : Host.Outcome State Fault Refusal :=
  .next (s.performWrite rq (Reg.LG_COMMIT) (withBits v 0x100 0))

/-- LG_APPLY (13 R431). -/
def execLgApply (rq : Requester) (v : Word32) (s : State) : Host.Outcome State Fault Refusal :=
  .next (s.performWrite rq (Reg.LG_APPLY) (v))

/-- GO (13 R417). -/
def execGo (rq : Requester) (v : Word32) (s : State) : Host.Outcome State Fault Refusal :=
  .next (s.performWrite rq (Reg.LG_BOOT) (withBits v 0x100 0))

/-- AT_PLOAD (13 R427). -/
def execAtPload (rq : Requester) (v : Word32) (s : State) : Host.Outcome State Fault Refusal :=
  .next (s.performWrite rq (Reg.AT_PLOAD) (v))

/-- RELOAD (13 R430): every cluster copy. -/
def execReload (rq : Requester) (v : Word32) (s : State) : Host.Outcome State Fault Refusal :=
  .next (s.performWrite rq (Reg.AT_CTL) (withBits v 1 2))

/-- ONE (13 R430): one cluster copy. -/
def execReloadOne (rq : Requester) (v : Word32) (s : State) : Host.Outcome State Fault Refusal :=
  .next (s.performWrite rq (Reg.AT_CTL) (withBits v 3 0))

/-- DARK (12 R393). -/
def execDark (rq : Requester) (v : Word32) (s : State) : Host.Outcome State Fault Refusal :=
  .next (s.performWrite rq (Reg.LL_CMD) (withBits v 1 0))

/-- WAKE (12 R399). -/
def execWake (rq : Requester) (v : Word32) (s : State) : Host.Outcome State Fault Refusal :=
  .next (s.performWrite rq (Reg.LL_CMD) (withBits v 2 0))

/-- RETRY (12 R400). -/
def execRetry (rq : Requester) (v : Word32) (s : State) : Host.Outcome State Fault Refusal :=
  .next (s.performWrite rq (Reg.LL_CMD) (withBits v 4 0))

/-- PMBUS_TRANSACTION (12 R411). -/
def execPmbusTransaction (rq : Requester) (v : Word32) (s : State) : Host.Outcome State Fault Refusal :=
  .next (s.performWrite rq (Reg.LL_PMCMD) (withBits v 0x80000 0))

/-- RG_WAKE (12 R391). -/
def execRgWake (rq : Requester) (r : RegionId) (v : Word32) (s : State) : Host.Outcome State Fault Refusal :=
  .next (s.performWrite rq (Reg.RG_PCTL + rgOff r.toNat) (withBits v 0x20000 0))

/-- RETRAIN (10 R320): a write of 1 to GL_LINK_CTL.RETRAIN, or the link itself retrains after an error. -/
def execRetrain (w : Option (Requester × Word32)) (s : State) : Host.Outcome State Fault Refusal :=
  match w with
  | some (rq, v) => .next (s.performWrite rq Reg.GL_LINK_CTL (withBits v 8 0))
  | none => if s.dieOn then device s.startRetrain else .next s

end Sys2Proof.Machine
end

