-- ==== Sys2Proof/Machine/Release.lean ====
section
/-! DEFINITION. What the Accord does once its checks have passed: the release of the commit buffer of the region-6 core,
entry by entry, and its end (08_accord_and_assay.md R270, R271). -/

namespace Sys2Proof.Machine

/-- Take the first `n` entries out of a core's commit buffer. -/
def State.popEntries (s : State) (c n : Nat) : State :=
  s.modCore c (fun k => { k with
    cbuf := k.cbuf.drop n,
    scHit := (k.scHit.filter (fun e => decide (n ≤ e.1))).map (fun e => (e.1 - n, e.2)) })

/-- The bytes that MASK names lie from `lo` on: the first of them and their values. -/
def maskedBytes (e : CbEntry) : List (Nat × Byte) :=
  ((List.range 8).filter (fun i => e.mask.getLsbD i)).map (fun i => (i, BitVec.ofNat 8 (e.data.toNat / 256 ^ i)))

/-- A release conflict: counted and recorded, and no more (R271; 11, record type 0x11). -/
def State.releaseConflict (s : State) (p : Nat) (e : CbEntry) : State :=
  (s.bump Fld.AS_CNT_RELCONF_COUNT).record 0x11 1
    ([BitVec.ofNat 8 p, e.kind.setWidth 8] ++ leBytes 6 e.addr.toNat ++
      [BitVec.ofNat 8 (((s.pair p).msg.map (·.group)).getD 0)])

/-- The word of an entry holds an uncorrectable error: counted, and reported as an error of its row (R271). -/
def State.releaseError (s : State) (phys n : Nat) : State := (s.bump Fld.AS_CNT_RELECC_COUNT).reportBad phys n

/-- Write the MASK bytes of an entry to its granule; a partial word that holds an uncorrectable error is not written. -/
def State.releaseData (s : State) (c : Nat) (e : CbEntry) : State :=
  let bs := maskedBytes e
  match bs.head? with
  | none => s
  | some (i, _) =>
    let phys := physOf c e.addr.toNat
    if s.badWrite phys 8 && bs.length != 8 then s.releaseError phys 8
    else
      let s := if bs.length = 8 then s else s.correct phys 8
      -- the bytes of an entry may have holes: run by run
      if bs.map (·.1) = (List.range bs.length).map (i + ·) then s.store (some (4 * c)) (phys + i) (bs.map (·.2))
      else bs.foldl (fun s b => s.store (some (4 * c)) (phys + b.1) [b.2]) s

/-- Write the lock value if the word reads 0. (log 27, DEDUCED) -/
def State.releaseTas (s : State) (p c : Nat) (e : CbEntry) : State :=
  let phys := physOf c e.addr.toNat
  if s.badRead phys 8 then s.releaseError phys 8
  else
    let s := s.correct phys 8
    if leNat (s.bytes phys 8) = 0 then s.store (some (4 * c)) phys (leBytes 8 e.data.toNat)
    else s.releaseConflict p e

/-- Write if no other requester has stored to the granule since the LR. -/
def State.releaseSc (s : State) (p c : Nat) (e : CbEntry) : State :=
  if (s.core c).scHit.any (fun x => decide (x.1 = 0) && x.2.2) then s.releaseConflict p e else s.releaseData c e

/-- One register write of a released OUT. -/
def State.releaseReg (s : State) (c a : Nat) (v : Word32) : State :=
  let rq : Requester := .core (BitVec.ofNat 11 (4 * c))
  match reach rq a with
  | some r => s.writeReg rq r.1 r.2.1 r.2.2 v
  | none => s

/-- OUT or OUTD: the high half of a pair of registers first; a write to the own-core window is made in both cores. -/
def State.releaseOut (s : State) (p : Nat) (e : CbEntry) : State :=
  let a := e.addr.toNat
  let cores := if 0xFF0000 ≤ a then [(pairCores p).1, (pairCores p).2] else [(pairCores p).1]
  cores.foldl (fun s c =>
    let s := if e.mask = 0xFF then s.releaseReg c (a + 4) ((e.data >>> 32).setWidth 32) else s
    s.releaseReg c a (e.data.setWidth 32)) s

/-- ISTORE: a write to the own instruction SRAM is made in both cores. In both, an engaged loop that holds the word ends at
its next loop branch, and the instruction cache takes the word (04 R121, R123). -/
def State.releaseIstore (s : State) (p : Nat) (e : CbEntry) : State :=
  let a := e.addr.toNat
  let c := (pairCores p).1
  let w := BitVec.ofNat 32 e.data.toNat
  let s := if a < 0x8000 then
      [c, (pairCores p).2].foldl (fun s k => s.store (some (4 * k)) (isramBase k + a) (leBytes 4 w.toNat)) s
    else
      s.releaseData c { e with
        addr := BitVec.ofNat 48 (granule (codeData a)),
        mask := e.mask <<< (a % 8), data := e.data <<< (8 * (a % 8)) }
  [c, (pairCores p).2].foldl (fun s k => (s.iUpdate k a w).lbStore k (BitVec.ofNat 32 a)) s

/-- SEND: the frame enters the port's Prompt egress queue; the first of a message carries what its bound is measured
from (07 R230). (log 115, DEDUCED; log 116, DEDUCED) -/
def State.releaseSend (s : State) (p c : Nat) (e : CbEntry) : State :=
  let x := s.pair p
  let first := if x.sent then none else x.msg.map (fun m => (m.rxAt, x.endAt))
  (s.modPair p (fun r => { r with sent := true })).enqueueTx (e.data.toNat / 65536 % 8) 0
    { addr := globalAddr c e.addr.toNat, len := e.data.toNat % 65536, src := .accord p, at_ := s.now, msg := first }

/-- The key of a SINS or SDEL entry, from the key bytes that follow it. -/
def releaseKey (e : CbEntry) (rest : List CbEntry) : List Byte :=
  ((rest.takeWhile (fun x => x.kind == 9)).flatMap (fun x => leBytes 8 x.data.toNat)).take (e.data.toNat % 64)

/-- SINS: insert the key if it is still absent and its bucket has a free way. -/
def State.releaseSins (s : State) (p c : Nat) (e : CbEntry) (key : List Byte) : State :=
  let s := s.sessionRead key
  match s.sessionFind key with
  | some _ => s.releaseConflict p e
  | none =>
    match s.sessionInsert (some (4 * c)) key with
    | (some _, s') => s'
    | (none, _) => s.releaseConflict p e

/-- SDEL: remove the entry at AUX if it still holds the key. -/
def State.releaseSdel (s : State) (p c : Nat) (e : CbEntry) (key : List Byte) : State :=
  if s.sessionHolds e.aux.toNat key then s.sessionRemove (some (4 * c)) e.aux.toNat else s.releaseConflict p e

/-- Perform one entry. -/
def State.releaseEntry (s : State) (p c : Nat) (e : CbEntry) (rest : List CbEntry) : State :=
  match e.kind.toNat with
  | 0 => s.releaseData c e
  | 1 => s.releaseTas p c e
  | 2 => s.releaseData c { e with mask := 0xFF, data := 0 }
  | 3 => s.releaseSc p c e
  | 4 => s.releaseOut p e
  | 5 => s.releaseIstore p e
  | 6 => s.releaseSend p c e
  | 7 => s.releaseSins p c e (releaseKey e rest)
  | 8 => s.releaseSdel p c e (releaseKey e rest)
  | _ => s

/-- How many entries of the buffer one performed entry takes. -/
def entrySpan (e : CbEntry) (rest : List CbEntry) : Nat :=
  if e.kind = 7 ∨ e.kind = 8 then 1 + (rest.takeWhile (fun x => x.kind == 9)).length else 1

/-- What the target of an entry makes it wait for. -/
inductive ReleaseWait where
  | go
  | wake (r : Nat)
  | stop
  deriving DecidableEq, Repr

/-- A data write of core `c` waits for a Gated region's wake, or at an arbiter on its path (05 R175, R182; 12 R391). Safe Hold begins only when no release is in progress (R270, R290). (log 115, DEDUCED) -/
def State.releaseDataWait (s : State) (c a : Nat) : ReleaseWait :=
  match dRegion a, clusterOf c a with
  | .session, _ => if (s.stopsAt (4 * c) [s.fabricFor (4 * c) 8]).isSome then .stop else .go
  | .frame, _ => if (s.stopsAt (4 * c) [s.fabricFor (4 * c) 9]).isSome then .stop else .go
  | _, some cl =>
    if s.clusterRetired cl then .go
    else if s.gated (cl / 8) then .wake (cl / 8)
    else if (s.stopsAt (4 * c) (s.clusterPath (4 * c) cl)).isSome then .stop
    else .go
  | _, none => .go

/-- What an entry waits for. A SEND waits for room in the port's Prompt egress queue. (log 115, DEDUCED) -/
def State.releaseWait (s : State) (c : Nat) (e : CbEntry) : ReleaseWait :=
  let a := e.addr.toNat
  match e.kind.toNat with
  | 0 | 1 | 2 | 3 => s.releaseDataWait c a
  | 4 => match s.blockAsleep a with
    | some r => .wake r
    | none => if a < 0xFF0000 && (s.stopsAt (4 * c) [s.fabricFor (4 * c) 11]).isSome then .stop else .go
  | 5 => if a < 0x8000 then .go else s.releaseDataWait c (codeData a)
  | 6 => if egressSize ≤ s.egressUsed (e.data.toNat / 65536 % 8) 0 then .stop else .go
  | 7 | 8 => s.releaseDataWait c sessionBase
  | _ => .go

/-- Perform entries in buffer order, as far as none must wait. (log 29, DEDUCED) -/
def State.releaseRun (s : State) (p c : Nat) : Nat → State
  | 0 => s
  | n + 1 =>
    match (s.core c).cbuf with
    | [] => s
    | e :: rest =>
      match s.releaseWait c e with
      | .wake r => s.askWake r
      | .stop => s
      | .go => ((s.releaseEntry p c e rest).popEntries c (entrySpan e rest)).releaseRun p c n

/-- The release of a pair that releases its buffer. -/
def State.release (s : State) (p : Nat) : State := s.releaseRun p (pairCores p).1 cbufSize

/-- RELEASE (R270). (log 29, DEDUCED) -/
def execRelease (p : PairId) (s : State) : Host.Outcome State Fault Refusal :=
  if (s.pair p.toNat).phase == .releasing then device (s.release p.toNat) else .next s

/-- The Accord is complete: the frame's cells are freed, and the pair returns to Metered idle. -/
def State.accordEnd (s : State) (p : Nat) : State :=
  let m := (s.pair p).msg
  let s := (s.discardBuffers p).pairIdle p
  match m with
  | some m => s.freeFrame m.hdr.fboff.toNat
  | none => s

/-- ACCORD_COMPLETE (R270): the entries left are performed; once none is left the Accord is complete. (log 29, DEDUCED) -/
def execAccordComplete (p : PairId) (s : State) : Host.Outcome State Fault Refusal :=
  if (s.pair p.toNat).phase == .releasing then
    let s := s.release p.toNat
    if (s.core (pairCores p.toNat).1).cbuf.isEmpty then device (s.accordEnd p.toNat) else device s
  else .next s

end Sys2Proof.Machine
end

