-- ==== Sys2Proof/Machine/Sideband.lean ====
section
/-! DEFINITION. The Lamplighter's sideband target and its common command codes, and the JTAG TAP
(12_power_clocks_lamplighter.md R404, R405; 13 R437; 14 R441). -/

namespace Sys2Proof.Machine

/-! ### Private transfers (R405) -/

/-- The I/O address that a sideband offset reaches. -/
def sideAddr (off : Nat) : Option Nat :=
  if off < 0x1000 then some (0x70000 + off)
  else if off < 0x1100 then some (Reg.CR_WAKE + (off - 0x1000))
  else none

/-- Write one register for each whole group of four data bytes. -/
def State.sideWrite (s : State) : Nat → Nat → List Byte → State
  | 0, _, _ => s
  | n + 1, off, bs =>
    if bs.length < 4 then s
    else
      let s := match sideAddr off with
        | some a => s.performWrite .sideband a (BitVec.ofNat 32 (leNat (bs.take 4)))
        | none => s
      s.sideWrite n ((off + 4) % 65536) (bs.drop 4)

/-- The target keeps the offset at which the next private read begins. (log 145, DESIGN CHOICE) -/
def State.sideAt (s : State) (off : Nat) : State :=
  if s.routeLive .sideband then s.modPower (fun x => { x with sideOff := off % 65536 }) else s

/-- SIDEBAND_WRITE: an offset, then data; with no data it only sets the offset. -/
def execSidebandWrite (off : BitVec 16) (data : List Byte) (s : State) : Host.Outcome State Fault Refusal :=
  let n := data.length / 4
  .next ((s.sideWrite n off.toNat data).sideAt (off.toNat + 4 * n))

/-- Read one register through the sideband; an offset that reaches none reads 0. -/
def State.sideRead1 (s : State) (off : Nat) : Word32 × State :=
  match sideAddr off with
  | some a =>
    let r := s.access .sideband a false (fun d i b s => s.readReg .sideband d i b)
    (r.1.getD 0, r.2)
  | none => (0, s)

/-- Read `n` registers: their bytes. -/
def State.sideRead (s : State) : Nat → Nat → List Byte × State
  | 0, _ => ([], s)
  | n + 1, off =>
    let r := s.sideRead1 off
    let q := r.2.sideRead n ((off + 4) % 65536)
    (leBytes 4 r.1.toNat ++ q.1, q.2)

/-- What the target answers leaves the device while the Lamplighter has its supply. -/
def State.i3cSend (s : State) (bs : List Byte) : Host.Outcome State Fault Refusal :=
  if s.routeLive .sideband then .next (s.emit (.i3c bs)) else .next s

/-- SIDEBAND_READ: `count` registers from the offset that the transfer has just written, or that the last one left. (log 145, DESIGN CHOICE) -/
def execSidebandRead (off : Option (BitVec 16)) (count : Nat) (s : State) : Host.Outcome State Fault Refusal :=
  let off := (off.map BitVec.toNat).getD s.power.sideOff
  let r := s.sideRead count off
  (r.2.sideAt (off + 4 * count)).i3cSend r.1

/-! ### Common command codes (R404) -/

/-- The target's static address: 0x50 + die number. -/
def State.staticAddr (s : State) : Nat := 0x50 + s.get Fld.LL_STRAP_DIE

/-- Change the target's dynamic address or its interrupts while the Lamplighter has its supply. -/
def State.i3cSet (s : State) (f : Power → Power) : Host.Outcome State Fault Refusal :=
  if s.routeLive .sideband then .next (s.modPower f) else .next s

/-- ENTDAA: a target without a dynamic address takes the one given. (log 107, DEDUCED) -/
def execEntdaa (addr : BitVec 7) (s : State) : Host.Outcome State Fault Refusal :=
  s.i3cSet (fun p => { p with dynAddr := some (p.dynAddr.getD addr) })

/-- SETDASA: sent to the static address; a target without a dynamic address takes the one given. (log 107, DEDUCED) -/
def execSetdasa (addr : BitVec 7) (s : State) : Host.Outcome State Fault Refusal :=
  s.i3cSet (fun p => { p with dynAddr := some (p.dynAddr.getD addr) })

/-- SETNEWDA: sent to the dynamic address. -/
def execSetnewda (addr : BitVec 7) (s : State) : Host.Outcome State Fault Refusal :=
  s.i3cSet (fun p => { p with dynAddr := p.dynAddr.map (fun _ => addr) })

/-- RSTDAA. -/
def execRstdaa (s : State) : Host.Outcome State Fault Refusal := s.i3cSet (fun p => { p with dynAddr := none })

/-- The 48-bit provisional ID. -/
def State.pid (s : State) : Nat :=
  s.fuses.mipi.toNat * 2 ^ 33 + 0x8410 * 2 ^ 16 + s.get Fld.LL_STRAP_DIE * 2 ^ 12

/-- GETPID: most significant byte first. -/
def execGetpid (s : State) : Host.Outcome State Fault Refusal := s.i3cSend (beBytes 6 s.pid)

/-- GETBCR. (log 13, DESIGN CHOICE) -/
def execGetbcr (s : State) : Host.Outcome State Fault Refusal := s.i3cSend [Config.i3cBcr]

/-- GETDCR. -/
def execGetdcr (s : State) : Host.Outcome State Fault Refusal := s.i3cSend [Config.i3cDcr]

/-- Bits [15:8] of the GETSTATUS reply (13 R437). -/
def State.statusByte (s : State) : Nat :=
  s.get Fld.LG_STS_STATE + 8 * s.get Fld.LG_STS_OUT + 16 * s.get Fld.AS_STS_HOLD

/-- GETSTATUS: the vendor bits, and a byte that the manual leaves to MIPI. (log 107, DEDUCED) -/
def execGetstatus (s : State) : Host.Outcome State Fault Refusal :=
  let r := s.free
  if s.routeLive .sideband then .next (r.2.emit (.i3c [BitVec.ofNat 8 s.statusByte, r.1.setWidth 8])) else .next s

/-- ENEC: event bit 0 enables in-band interrupts. (log 108, PRESUMED) -/
def execEnec (events : Byte) (s : State) : Host.Outcome State Fault Refusal :=
  s.i3cSet (fun p => { p with ibiOn := p.ibiOn || events.getLsbD 0 })

/-- DISEC: event bit 0 disables in-band interrupts. (log 108, PRESUMED) -/
def execDisec (events : Byte) (s : State) : Host.Outcome State Fault Refusal :=
  s.i3cSet (fun p => { p with ibiOn := p.ibiOn && !events.getLsbD 0 })

/-! ### The JTAG TAP (14 R441) -/

/-- The TAP loads an instruction and shifts bits out on TDO; it has its supply while VIO_SW is on, and what it shifts leaves
the device while TDO is driven (14 R438). -/
def State.tap (s : State) (i : JtagInstr) (bits : List Bool) : State :=
  if !s.flag Fld.LL_STS_VIOSW then s
  else
    let s := s.modPower (fun p => { p with jtag := i })
    if s.tdoDriven then s.emit (.jtag bits) else s

/-- BYPASS: the one-bit register, which captures 0, lies between the data escapes. -/
def execBypass (s : State) : Host.Outcome State Fault Refusal := .next (s.tap .bypass [false])

/-- IDCODE. (log 13, DESIGN CHOICE) -/
def execIdcode (s : State) : Host.Outcome State Fault Refusal :=
  .next (s.tap .idcode ((List.range 32).map (fun i => Config.jtagId.getLsbD i)))

/-- `n` free bits. (log 109, DESIGN CHOICE) -/
def State.freeBits (s : State) (n : Nat) : List Bool × State :=
  ((List.range n).map (fun i => (Config.freeWord (s.freeCtr + i)).getLsbD 0), { s with freeCtr := s.freeCtr + n })

/-- SAMPLE/PRELOAD: the boundary cells are captured and leave the device, and new values are shifted into them. (log 109, DESIGN CHOICE) -/
def execSamplePreload (cells : List Bool) (s : State) : Host.Outcome State Fault Refusal :=
  if !s.flag Fld.LL_STS_VIOSW then .next s
  else
    let r := s.freeBits cells.length
    .next ((r.2.modPower (fun p => { p with cells := cells })).tap .sample r.1)

/-- EXTEST: the cells preloaded drive the escapes. (log 109, DESIGN CHOICE) -/
def execExtest (s : State) : Host.Outcome State Fault Refusal :=
  .next (if s.flag Fld.LL_STS_VIOSW then s.modPower (fun p => { p with jtag := .extest }) else s)

end Sys2Proof.Machine
end

