-- ==== Sys2Proof/Machine/Dispatch.lean ====
section
/-! DEFINITION. The effect of each command on everything but the queue: one arm for each constructor of `Instr`. -/

namespace Sys2Proof.Machine

def exec (i : Instr) (s : State) : Host.Outcome State Fault Refusal :=
  match i with
  | .nop t => Sys2Proof.Machine.execNop t s
  | .trap t code => Sys2Proof.Machine.execTrap t code s
  | .eret t => Sys2Proof.Machine.execEret t s
  | .wait t => Sys2Proof.Machine.execWait t s
  | .waite t => Sys2Proof.Machine.execWaite t s
  | .fence t => Sys2Proof.Machine.execFence t s
  | .ifence t => Sys2Proof.Machine.execIfence t s
  | .mfsr t rd n => Sys2Proof.Machine.execMfsr t rd n s
  | .mtsr t n ra => Sys2Proof.Machine.execMtsr t n ra s
  | .done t => Sys2Proof.Machine.execDone t s
  | .add t rd ra rb => Sys2Proof.Machine.execAdd t rd ra rb s
  | .sub t rd ra rb => Sys2Proof.Machine.execSub t rd ra rb s
  | .and t rd ra rb => Sys2Proof.Machine.execAnd t rd ra rb s
  | .or t rd ra rb => Sys2Proof.Machine.execOr t rd ra rb s
  | .xor t rd ra rb => Sys2Proof.Machine.execXor t rd ra rb s
  | .andn t rd ra rb => Sys2Proof.Machine.execAndn t rd ra rb s
  | .shl t rd ra rb => Sys2Proof.Machine.execShl t rd ra rb s
  | .shr t rd ra rb => Sys2Proof.Machine.execShr t rd ra rb s
  | .sar t rd ra rb => Sys2Proof.Machine.execSar t rd ra rb s
  | .ror t rd ra rb => Sys2Proof.Machine.execRor t rd ra rb s
  | .slt t rd ra rb => Sys2Proof.Machine.execSlt t rd ra rb s
  | .sltu t rd ra rb => Sys2Proof.Machine.execSltu t rd ra rb s
  | .min t rd ra rb => Sys2Proof.Machine.execMin t rd ra rb s
  | .max t rd ra rb => Sys2Proof.Machine.execMax t rd ra rb s
  | .minu t rd ra rb => Sys2Proof.Machine.execMinu t rd ra rb s
  | .maxu t rd ra rb => Sys2Proof.Machine.execMaxu t rd ra rb s
  | .mul t rd ra rb => Sys2Proof.Machine.execMul t rd ra rb s
  | .mulh t rd ra rb => Sys2Proof.Machine.execMulh t rd ra rb s
  | .mulhu t rd ra rb => Sys2Proof.Machine.execMulhu t rd ra rb s
  | .div t rd ra rb => Sys2Proof.Machine.execDiv t rd ra rb s
  | .divu t rd ra rb => Sys2Proof.Machine.execDivu t rd ra rb s
  | .rem t rd ra rb => Sys2Proof.Machine.execRem t rd ra rb s
  | .remu t rd ra rb => Sys2Proof.Machine.execRemu t rd ra rb s
  | .addw t rd ra rb => Sys2Proof.Machine.execAddw t rd ra rb s
  | .subw t rd ra rb => Sys2Proof.Machine.execSubw t rd ra rb s
  | .shlw t rd ra rb => Sys2Proof.Machine.execShlw t rd ra rb s
  | .shrw t rd ra rb => Sys2Proof.Machine.execShrw t rd ra rb s
  | .sarw t rd ra rb => Sys2Proof.Machine.execSarw t rd ra rb s
  | .mulw t rd ra rb => Sys2Proof.Machine.execMulw t rd ra rb s
  | .clz t rd ra => Sys2Proof.Machine.execClz t rd ra s
  | .ctz t rd ra => Sys2Proof.Machine.execCtz t rd ra s
  | .popc t rd ra => Sys2Proof.Machine.execPopc t rd ra s
  | .bswap t rd ra => Sys2Proof.Machine.execBswap t rd ra s
  | .sextb t rd ra => Sys2Proof.Machine.execSextb t rd ra s
  | .sexth t rd ra => Sys2Proof.Machine.execSexth t rd ra s
  | .zextb t rd ra => Sys2Proof.Machine.execZextb t rd ra s
  | .zexth t rd ra => Sys2Proof.Machine.execZexth t rd ra s
  | .addi t rd ra imm => Sys2Proof.Machine.execAddi t rd ra imm s
  | .andi t rd ra imm => Sys2Proof.Machine.execAndi t rd ra imm s
  | .ori t rd ra imm => Sys2Proof.Machine.execOri t rd ra imm s
  | .xori t rd ra imm => Sys2Proof.Machine.execXori t rd ra imm s
  | .shli t rd ra count => Sys2Proof.Machine.execShli t rd ra count s
  | .shri t rd ra count => Sys2Proof.Machine.execShri t rd ra count s
  | .sari t rd ra count => Sys2Proof.Machine.execSari t rd ra count s
  | .rori t rd ra count => Sys2Proof.Machine.execRori t rd ra count s
  | .slti t rd ra imm => Sys2Proof.Machine.execSlti t rd ra imm s
  | .sltiu t rd ra imm => Sys2Proof.Machine.execSltiu t rd ra imm s
  | .muli t rd ra imm => Sys2Proof.Machine.execMuli t rd ra imm s
  | .addwi t rd ra imm => Sys2Proof.Machine.execAddwi t rd ra imm s
  | .movi t rd imm => Sys2Proof.Machine.execMovi t rd imm s
  | .orh t rd half imm => Sys2Proof.Machine.execOrh t rd half imm s
  | .addpc t rd imm => Sys2Proof.Machine.execAddpc t rd imm s
  | .ldb t rd ra mode disp => Sys2Proof.Machine.execLdb t rd ra mode disp s
  | .ldbs t rd ra mode disp => Sys2Proof.Machine.execLdbs t rd ra mode disp s
  | .ldh t rd ra mode disp => Sys2Proof.Machine.execLdh t rd ra mode disp s
  | .ldhs t rd ra mode disp => Sys2Proof.Machine.execLdhs t rd ra mode disp s
  | .ldw t rd ra mode disp => Sys2Proof.Machine.execLdw t rd ra mode disp s
  | .ldws t rd ra mode disp => Sys2Proof.Machine.execLdws t rd ra mode disp s
  | .ldd t rd ra mode disp => Sys2Proof.Machine.execLdd t rd ra mode disp s
  | .stb t rs ra mode disp => Sys2Proof.Machine.execStb t rs ra mode disp s
  | .sth t rs ra mode disp => Sys2Proof.Machine.execSth t rs ra mode disp s
  | .stw t rs ra mode disp => Sys2Proof.Machine.execStw t rs ra mode disp s
  | .std t rs ra mode disp => Sys2Proof.Machine.execStd t rs ra mode disp s
  | .tas t rd ra rank => Sys2Proof.Machine.execTas t rd ra rank s
  | .rels t ra rank => Sys2Proof.Machine.execRels t ra rank s
  | .lr t rd ra timed => Sys2Proof.Machine.execLr t rd ra timed s
  | .lrw t rd ra timed => Sys2Proof.Machine.execLrw t rd ra timed s
  | .sc t rd ra rb => Sys2Proof.Machine.execSc t rd ra rb s
  | .scw t rd ra rb => Sys2Proof.Machine.execScw t rd ra rb s
  | .ioIn t rd ra imm => Sys2Proof.Machine.execIoIn t rd ra imm s
  | .out t rs ra imm => Sys2Proof.Machine.execOut t rs ra imm s
  | .ind t rd ra imm => Sys2Proof.Machine.execInd t rd ra imm s
  | .outd t rs ra imm => Sys2Proof.Machine.execOutd t rs ra imm s
  | .iload t rd ra imm => Sys2Proof.Machine.execIload t rd ra imm s
  | .istore t rs ra imm => Sys2Proof.Machine.execIstore t rs ra imm s
  | .b t off => Sys2Proof.Machine.execB t off s
  | .bl t off => Sys2Proof.Machine.execBl t off s
  | .br t ra => Sys2Proof.Machine.execBr t ra s
  | .blr t ra => Sys2Proof.Machine.execBlr t ra s
  | .beq t ra rb off => Sys2Proof.Machine.execBeq t ra rb off s
  | .bne t ra rb off => Sys2Proof.Machine.execBne t ra rb off s
  | .blt t ra rb off => Sys2Proof.Machine.execBlt t ra rb off s
  | .bge t ra rb off => Sys2Proof.Machine.execBge t ra rb off s
  | .bltu t ra rb off => Sys2Proof.Machine.execBltu t ra rb off s
  | .bgeu t ra rb off => Sys2Proof.Machine.execBgeu t ra rb off s
  | .callm t ra mask steps => Sys2Proof.Machine.execCallm t ra mask steps s
  | .retm t mask steps => Sys2Proof.Machine.execRetm t mask steps s
  | .send t rd ra rb port cls => Sys2Proof.Machine.execSend t rd ra rb port cls s
  | .mbrd t rd ra => Sys2Proof.Machine.execMbrd t rd ra s
  | .movb t rd ra rb steps => Sys2Proof.Machine.execMovb t rd ra rb steps s
  | .fillb t rd ra rb steps => Sys2Proof.Machine.execFillb t rd ra rb steps s
  | .pairedWord t a b => Sys2Proof.Machine.execPairedWord t a b s
  | .akey128 t rd ra rb => Sys2Proof.Machine.execAkey128 t rd ra rb s
  | .akey256 t rd ra rb => Sys2Proof.Machine.execAkey256 t rd ra rb s
  | .gcmenc t rd ra rb => Sys2Proof.Machine.execGcmenc t rd ra rb s
  | .gcmdec t rd ra rb => Sys2Proof.Machine.execGcmdec t rd ra rb s
  | .ghash t rd ra rb => Sys2Proof.Machine.execGhash t rd ra rb s
  | .gcmtag t rd ra rb => Sys2Proof.Machine.execGcmtag t rd ra rb s
  | .cmac t rd ra rb => Sys2Proof.Machine.execCmac t rd ra rb s
  | .cmacend t rd ra rb => Sys2Proof.Machine.execCmacend t rd ra rb s
  | .s256init t rd ra => Sys2Proof.Machine.execS256init t rd ra s
  | .s256blk t rd ra rb => Sys2Proof.Machine.execS256blk t rd ra rb s
  | .s256end t rd ra rb => Sys2Proof.Machine.execS256end t rd ra rb s
  | .s384init t rd ra => Sys2Proof.Machine.execS384init t rd ra s
  | .s384blk t rd ra rb => Sys2Proof.Machine.execS384blk t rd ra rb s
  | .s384end t rd ra rb => Sys2Proof.Machine.execS384end t rd ra rb s
  | .crc32c t rd ra rb => Sys2Proof.Machine.execCrc32c t rd ra rb s
  | .csum t rd ra rb => Sys2Proof.Machine.execCsum t rd ra rb s
  | .csfold t rd ra => Sys2Proof.Machine.execCsfold t rd ra s
  | .slook t rd ra rb => Sys2Proof.Machine.execSlook t rd ra rb s
  | .sins t rd ra rb => Sys2Proof.Machine.execSins t rd ra rb s
  | .sdel t rd ra rb => Sys2Proof.Machine.execSdel t rd ra rb s
  | .dadd t rd ra rb => Sys2Proof.Machine.execDadd t rd ra rb s
  | .dsub t rd ra rb => Sys2Proof.Machine.execDsub t rd ra rb s
  | .dmul t rd ra rb => Sys2Proof.Machine.execDmul t rd ra rb s
  | .dcmp t rd ra rb => Sys2Proof.Machine.execDcmp t rd ra rb s
  | .dchk t rd ra => Sys2Proof.Machine.execDchk t rd ra s
  | .a2p t rd ra rb => Sys2Proof.Machine.execA2p t rd ra rb s
  | .p2a t rd ra rb => Sys2Proof.Machine.execP2a t rd ra rb s
  | .e2p t rd ra rb => Sys2Proof.Machine.execE2p t rd ra rb s
  | .p2e t rd ra rb => Sys2Proof.Machine.execP2e t rd ra rb s
  | .p2b t rd ra => Sys2Proof.Machine.execP2b t rd ra s
  | .b2p t rd ra => Sys2Proof.Machine.execB2p t rd ra s
  | .farx t op rd ra rb fn => Sys2Proof.Machine.execFarx t op rd ra rb fn s
  | .farAnnexResponse vid tag value => Sys2Proof.Machine.execFarAnnexResponse vid tag value s
  | .annexTimeout t => Sys2Proof.Machine.execAnnexTimeout t s
  | .exceptionEntry t cause => Sys2Proof.Machine.execExceptionEntry t cause s
  | .interruptEntry t => Sys2Proof.Machine.execInterruptEntry t s
  | .threadReset t => Sys2Proof.Machine.execThreadReset t s
  | .rst rq t v => Sys2Proof.Machine.execRst rq t v s
  | .waitTimeout t => Sys2Proof.Machine.execWaitTimeout t s
  | .localTimerExpiry c => Sys2Proof.Machine.execLocalTimerExpiry c s
  | .boundaryUpdate a => Sys2Proof.Machine.execBoundaryUpdate a s
  | .budget c => Sys2Proof.Machine.execBudget c s
  | .runaway p => Sys2Proof.Machine.execRunaway p s
  | .slotBoundary => Sys2Proof.Machine.execSlotBoundary s
  | .handlerEntry p => Sys2Proof.Machine.execHandlerEntry p s
  | .bankSwitch => Sys2Proof.Machine.execBankSwitch s
  | .fallback g => Sys2Proof.Machine.execFallback g s
  | .doneTiming p => Sys2Proof.Machine.execDoneTiming p s
  | .restart p => Sys2Proof.Machine.execRestart p s
  | .release p => Sys2Proof.Machine.execRelease p s
  | .accordComplete p => Sys2Proof.Machine.execAccordComplete p s
  | .arbiterGrant a arrivals answered => Sys2Proof.Machine.execArbiterGrant a arrivals answered s
  | .starvation a input => Sys2Proof.Machine.execStarvation a input s
  | .frameReceive p rx => Sys2Proof.Machine.execFrameReceive p rx s
  | .headerWrite t => Sys2Proof.Machine.execHeaderWrite t s
  | .pfcRepeat p => Sys2Proof.Machine.execPfcRepeat p s
  | .pfcReceive p prios quanta => Sys2Proof.Machine.execPfcReceive p prios quanta s
  | .frameBoundary p => Sys2Proof.Machine.execFrameBoundary p s
  | .ptTxtsid rq p => Sys2Proof.Machine.execPtTxtsid rq p s
  | .laneErrorBurst p => Sys2Proof.Machine.execLaneErrorBurst p s
  | .linkUp p lpiOk => Sys2Proof.Machine.execLinkUp p lpiOk s
  | .lpi p => Sys2Proof.Machine.execLpi p s
  | .lpiWake p => Sys2Proof.Machine.execLpiWake p s
  | .ptEn rq p v => Sys2Proof.Machine.execPtEn rq p v s
  | .barAccess f x => Sys2Proof.Machine.execBarAccess f x s
  | .hostReadCompletion t ok data => Sys2Proof.Machine.execHostReadCompletion t ok data s
  | .linkTraining ok speed repair => Sys2Proof.Machine.execLinkTraining ok speed repair s
  | .retrain w => Sys2Proof.Machine.execRetrain w s
  | .linkError => Sys2Proof.Machine.execLinkError s
  | .l1 => Sys2Proof.Machine.execL1 s
  | .l1Exit => Sys2Proof.Machine.execL1Exit s
  | .linkHotReset => Sys2Proof.Machine.execLinkHotReset s
  | .functionLevelReset f => Sys2Proof.Machine.execFunctionLevelReset f s
  | .queueStart rq q v => Sys2Proof.Machine.execQueueStart rq q v s
  | .queueStop rq q v => Sys2Proof.Machine.execQueueStop rq q v s
  | .sqtail rq q index => Sys2Proof.Machine.execSqtail rq q index s
  | .cqhead rq q index => Sys2Proof.Machine.execCqhead rq q index s
  | .sqhead rq q index => Sys2Proof.Machine.execSqhead rq q index s
  | .hqPost rq q v => Sys2Proof.Machine.execHqPost rq q v s
  | .sqDescriptor q read => Sys2Proof.Machine.execSqDescriptor q read s
  | .tx q cell read => Sys2Proof.Machine.execTx q cell read s
  | .msg q cell read => Sys2Proof.Machine.execMsg q cell read s
  | .sqNop q => Sys2Proof.Machine.execSqNop q s
  | .rxCompletion q => Sys2Proof.Machine.execRxCompletion q s
  | .msixHoldOff q => Sys2Proof.Machine.execMsixHoldOff q s
  | .msixUnmask q => Sys2Proof.Machine.execMsixUnmask q s
  | .swset rq w v => Sys2Proof.Machine.execSwset rq w v s
  | .swclr rq w v => Sys2Proof.Machine.execSwclr rq w v s
  | .complete rq t v => Sys2Proof.Machine.execComplete rq t v s
  | .moderationHoldOff src th => Sys2Proof.Machine.execModerationHoldOff src th s
  | .decline t => Sys2Proof.Machine.execDecline t s
  | .wakeSetEvent src => Sys2Proof.Machine.execWakeSetEvent src s
  | .errorReport unit cause detail => Sys2Proof.Machine.execErrorReport unit cause detail s
  | .asTreq rq v => Sys2Proof.Machine.execAsTreq rq v s
  | .testStart => Sys2Proof.Machine.execTestStart s
  | .verdict unit pass => Sys2Proof.Machine.execVerdict unit pass s
  | .retirement unit => Sys2Proof.Machine.execRetirement unit s
  | .recoveryWindow => Sys2Proof.Machine.execRecoveryWindow s
  | .resume rq v pass => Sys2Proof.Machine.execResume rq v pass s
  | .bellowsEvaluation m => Sys2Proof.Machine.execBellowsEvaluation m s
  | .slackRaise c ps => Sys2Proof.Machine.execSlackRaise c ps s
  | .overrunRaise c held => Sys2Proof.Machine.execOverrunRaise c held s
  | .unshed => Sys2Proof.Machine.execUnshed s
  | .conditionClear n => Sys2Proof.Machine.execConditionClear n s
  | .tableCheck rq v => Sys2Proof.Machine.execTableCheck rq v s
  | .psEn rq v => Sys2Proof.Machine.execPsEn rq v s
  | .role rq v => Sys2Proof.Machine.execRole rq v s
  | .psBeat rq v => Sys2Proof.Machine.execPsBeat rq v s
  | .psSlot rq v => Sys2Proof.Machine.execPsSlot rq v s
  | .tyPop rq => Sys2Proof.Machine.execTyPop rq s
  | .tyDrop rq v => Sys2Proof.Machine.execTyDrop rq v s
  | .tyPush rq v => Sys2Proof.Machine.execTyPush rq v s
  | .tyCtl rq v => Sys2Proof.Machine.execTyCtl rq v s
  | .sensorRecord => Sys2Proof.Machine.execSensorRecord s
  | .adcConversion ch value => Sys2Proof.Machine.execAdcConversion ch value s
  | .adcRecord => Sys2Proof.Machine.execAdcRecord s
  | .capture e rising => Sys2Proof.Machine.execCapture e rising s
  | .pwmPeriod g => Sys2Proof.Machine.execPwmPeriod g s
  | .snap rq v => Sys2Proof.Machine.execSnap rq v s
  | .snapshotPeriod => Sys2Proof.Machine.execSnapshotPeriod s
  | .meterRecord m => Sys2Proof.Machine.execMeterRecord m s
  | .ppsEdge rising => Sys2Proof.Machine.execPpsEdge rising s
  | .ppsLoss => Sys2Proof.Machine.execPpsLoss s
  | .tbStep rq v => Sys2Proof.Machine.execTbStep rq v s
  | .tbSet rq v => Sys2Proof.Machine.execTbSet rq v s
  | .slew rq v => Sys2Proof.Machine.execSlew rq v s
  | .discOk rq v => Sys2Proof.Machine.execDiscOk rq v s
  | .discLost rq v => Sys2Proof.Machine.execDiscLost rq v s
  | .pllLock => Sys2Proof.Machine.execPllLock s
  | .referenceLost lost => Sys2Proof.Machine.execReferenceLost lost s
  | .pairLoWrite rq a v => Sys2Proof.Machine.execPairLoWrite rq a v s
  | .pairHiWrite rq a v => Sys2Proof.Machine.execPairHiWrite rq a v s
  | .pairLoRead rq a => Sys2Proof.Machine.execPairLoRead rq a s
  | .rcRead rq a => Sys2Proof.Machine.execRcRead rq a s
  | .registerWrite rq a v => Sys2Proof.Machine.execRegisterWrite rq a v s
  | .commit rq v => Sys2Proof.Machine.execCommit rq v s
  | .directCommit rq v => Sys2Proof.Machine.execDirectCommit rq v s
  | .lgApply rq v => Sys2Proof.Machine.execLgApply rq v s
  | .ledgerWrite => Sys2Proof.Machine.execLedgerWrite s
  | .ledgerModify => Sys2Proof.Machine.execLedgerModify s
  | .ledgerWait => Sys2Proof.Machine.execLedgerWait s
  | .ledgerEnd => Sys2Proof.Machine.execLedgerEnd s
  | .outputsStart => Sys2Proof.Machine.execOutputsStart s
  | .go rq v => Sys2Proof.Machine.execGo rq v s
  | .verification => Sys2Proof.Machine.execVerification s
  | .atPload rq v => Sys2Proof.Machine.execAtPload rq v s
  | .reload rq v => Sys2Proof.Machine.execReload rq v s
  | .reloadOne rq v => Sys2Proof.Machine.execReloadOne rq v s
  | .copyWriteEnd cl => Sys2Proof.Machine.execCopyWriteEnd cl s
  | .powerOnReset why straps bootsel => Sys2Proof.Machine.execPowerOnReset why straps bootsel s
  | .warmReset bootsel => Sys2Proof.Machine.execWarmReset bootsel s
  | .resetAssert warm => Sys2Proof.Machine.execResetAssert warm s
  | .memoryClear romOk => Sys2Proof.Machine.execMemoryClear romOk s
  | .dark rq v => Sys2Proof.Machine.execDark rq v s
  | .deviceIdleTimer => Sys2Proof.Machine.execDeviceIdleTimer s
  | .drain => Sys2Proof.Machine.execDrain s
  | .l2Timeout => Sys2Proof.Machine.execL2Timeout s
  | .darkEntered => Sys2Proof.Machine.execDarkEntered s
  | .wake rq v => Sys2Proof.Machine.execWake rq v s
  | .wakeEvent k => Sys2Proof.Machine.execWakeEvent k s
  | .regReady => Sys2Proof.Machine.execRegReady s
  | .wakeFailure code => Sys2Proof.Machine.execWakeFailure code s
  | .wakeRetry => Sys2Proof.Machine.execWakeRetry s
  | .retry rq v => Sys2Proof.Machine.execRetry rq v s
  | .wakeComplete => Sys2Proof.Machine.execWakeComplete s
  | .thermalShutdown => Sys2Proof.Machine.execThermalShutdown s
  | .vinCoreLoss => Sys2Proof.Machine.execVinCoreLoss s
  | .brownOut why => Sys2Proof.Machine.execBrownOut why s
  | .alarm => Sys2Proof.Machine.execAlarm s
  | .wakeEdge n rising short => Sys2Proof.Machine.execWakeEdge n rising short s
  | .controlEscapeEdge e level => Sys2Proof.Machine.execControlEscapeEdge e level s
  | .pmalert low => Sys2Proof.Machine.execPmalert low s
  | .holdN level => Sys2Proof.Machine.execHoldN level s
  | .idleTimer r => Sys2Proof.Machine.execIdleTimer r s
  | .gatedEntry r => Sys2Proof.Machine.execGatedEntry r s
  | .regionWake r => Sys2Proof.Machine.execRegionWake r s
  | .leavingGated r => Sys2Proof.Machine.execLeavingGated r s
  | .rgWake rq r v => Sys2Proof.Machine.execRgWake rq r v s
  | .pmbusTransaction rq v => Sys2Proof.Machine.execPmbusTransaction rq v s
  | .pmbusComplete ok data => Sys2Proof.Machine.execPmbusComplete ok data s
  | .railDelay => Sys2Proof.Machine.execRailDelay s
  | .sidebandWrite off data => Sys2Proof.Machine.execSidebandWrite off data s
  | .sidebandRead off count => Sys2Proof.Machine.execSidebandRead off count s
  | .entdaa addr => Sys2Proof.Machine.execEntdaa addr s
  | .setdasa addr => Sys2Proof.Machine.execSetdasa addr s
  | .setnewda addr => Sys2Proof.Machine.execSetnewda addr s
  | .rstdaa => Sys2Proof.Machine.execRstdaa s
  | .getpid => Sys2Proof.Machine.execGetpid s
  | .getbcr => Sys2Proof.Machine.execGetbcr s
  | .getdcr => Sys2Proof.Machine.execGetdcr s
  | .getstatus => Sys2Proof.Machine.execGetstatus s
  | .enec events => Sys2Proof.Machine.execEnec events s
  | .disec events => Sys2Proof.Machine.execDisec events s
  | .bypass => Sys2Proof.Machine.execBypass s
  | .idcode => Sys2Proof.Machine.execIdcode s
  | .samplePreload cells => Sys2Proof.Machine.execSamplePreload cells s
  | .extest => Sys2Proof.Machine.execExtest s
  | .portLinkLoss p => Sys2Proof.Machine.execPortLinkLoss p s
  | .pfcPauseExpiry p prio => Sys2Proof.Machine.execPfcPauseExpiry p prio s
  | .sensorRefresh m => Sys2Proof.Machine.execSensorRefresh m s
  | .slewComplete => Sys2Proof.Machine.execSlewComplete s
  | .ppsokExpiry => Sys2Proof.Machine.execPpsokExpiry s
  | .completionTimeout who => Sys2Proof.Machine.execCompletionTimeout who s
  | .configAccess f x => Sys2Proof.Machine.execConfigAccess f x s

end Sys2Proof.Machine
end

