-- ==== Sys2Proof/WellFormed.lean ====
section
/-! DEFINITION. Which commands the manual's encodings and interfaces can form. Most operands are bit vectors of their
field's width and need no check; these are the rest. -/

namespace Sys2Proof

/-- A paired word whose slots are both defined short operations (02 R37, R67). -/
def wfPair (a b : ShortSlot) : Bool := !slotReserved a && !slotReserved b

/-- A count of micro-routine steps (04 R139): a command runs at least one. -/
def wfSteps (n : Nat) : Bool := decide (1 ≤ n)

/-- A received frame (06 R189): a whole number of bytes from the destination address to the end of the payload, at most
9,216, in a cell of the frame buffer of 32 MB (06 R213). -/
def wfFrame (x : RxFrame) : Bool := decide (x.bytes.length ≤ 9216) && decide (x.cell < 131072)

/-- A host request to a BAR (10 R324, R325): a read asks for at least one byte, a write brings one. -/
def wfBar (x : BarRequest) : Bool :=
  match x with
  | .readReg _ n => decide (1 ≤ n)
  | .writeReg _ d => !d.isEmpty
  | .readBar2 _ => true
  | .writeBar2 _ _ => true

/-- An arbiter that exists (05 R173): one near-Annex arbiter a cluster; fabric targets 0 to 11 and channels 0 to 2. -/
def wfArbiter (a : ArbiterId) : Bool :=
  match a with
  | .annex _ u => u == 0
  | .fabric k c => decide (k.toNat ≤ 11) && decide (c.toNat ≤ 2)
  | .cluster _ => true
  | .crossbar _ => true

/-- A control escape CE0 to CE95 (11 R355). -/
def wfEscape (e : BitVec 7) : Bool := decide (e.toNat < 96)

/-- What a Bellows evaluation measures covers the eight regions (07 R254). -/
def wfBellows (m : BellowsInputs) : Bool := m.regions.length == 8

/-- A sensor refresh covers sixteen temperatures and eight supplies (11 R352). -/
def wfSensors (m : SensorInputs) : Bool := m.temps.length == 16 && m.vsns.length == 8

/-- A host register access names the sideband's whole registers: a private read asks for at least one (12 R405). -/
def wfCount (n : Nat) : Bool := decide (1 ≤ n)

/-- The well-formed commands. -/
def wellFormed (i : Instr) : Bool :=
  match i with
  | .pairedWord _ a b => wfPair a b
  | .callm _ _ _ n => wfSteps n
  | .retm _ _ n => wfSteps n
  | .movb _ _ _ _ n => wfSteps n
  | .fillb _ _ _ _ n => wfSteps n
  | .frameReceive _ rx => wfFrame rx
  | .barAccess _ x => wfBar x
  | .arbiterGrant a _ _ => wfArbiter a
  | .starvation a _ => wfArbiter a
  | .capture e _ => wfEscape e
  | .controlEscapeEdge e _ => wfEscape e
  | .bellowsEvaluation m => wfBellows m
  | .sensorRefresh m => wfSensors m
  | .conditionClear n => decide (n.toNat ≤ 8)
  | .errorReport _ c _ => decide (c.toNat ≤ 10)
  | .sidebandRead _ n => wfCount n
  | _ => true

end Sys2Proof
end

