-- ==== Sys2Proof/Safety.lean ====
section
/-! DEFINITION. What counts as a safe run: the canonical form of memory and of the tables, which makes equal machines
equal data, and a step that answers a next state. -/

namespace Sys2Proof.Machine

/-- The keys of a table rise strictly. -/
def keysRise {α : Type} : Tbl α → Bool
  | [] => true
  | [_] => true
  | (k, _) :: (j, v) :: r => decide (k < j) && keysRise ((j, v) :: r)

/-- Memory is in canonical form: addresses strictly rising, and no entry with the value that an unlisted byte reads. -/
def State.memCanonical (s : State) : Prop := Memory.wf s.mem

/-- The tables of registers and threads are in canonical order. -/
def State.tablesCanonical (s : State) : Prop :=
  keysRise s.regs = true ∧ keysRise s.eff = true ∧ keysRise s.threads = true ∧ keysRise s.cores = true

/-- The queue holds commands that the manual's encodings and interfaces can form. -/
def State.queueWellFormed (s : State) : Prop := ∀ c ∈ s.pending, wellFormed c = true

/-- A step that neither faults nor is refused. -/
def SafeStep (s : State) : Prop := ∃ t, step s = .next t

end Sys2Proof.Machine
end

