-- ==== Sys2Proof/Certificates/Slice0/Obligations.lean ====
section
/-! DEFINITION. The statements for the provers, from the numbered rules of the spec. -/

/-! ### Vocabulary of the statements -/


namespace Sys2Proof.Says

open Sys2Proof.Machine

/-- Thread `t` can issue a word: no micro-routine of it is unfinished, and no word that has issued waits (04 R116, R131,
R139). -/
def Ready (s : State) (t : Tid) : Prop :=
  s.canIssue t.toNat = true ∧ (s.thr t.toNat).resume = none ∧ (s.thr t.toNat).mip = false ∧
  (s.thr t.toNat).waiting = none

/-- ST.MODE of the thread is 0 (02 R46). -/
def Elastic (s : State) (t : Tid) : Prop := (s.thr t.toNat).mode = false

/-- No protected word holds an error, and no cache line a parity error (05 R157 to R159). -/
def Clean (s : State) : Prop :=
  s.eccC = [] ∧ s.eccU = [] ∧
  s.caches.all (fun kc => kc.2.dlines.all (fun l => !l.bad) && kc.2.ilines.all (fun l => l.bad.isEmpty)) = true

/-- The thread `th` after its word: the next PC, and nothing left of the word. -/
def after (th : Thread) (pc : Word32) : Thread :=
  { th with pc := pc, hostGot := [], resume := none, waiting := none, halfDone := false }

/-- Thread `t` of `s` after its word is `th`, and it holds no place at an arbiter. -/
def worded (s : State) (t : Tid) (th : Thread) : State := (s.setThr t.toNat th).leaveArbs t.toNat

/-! Integer results, in the arithmetic of 03 R72 to R74 (integers, then narrowed). -/

def ofBool (b : Bool) : Word := if b then 1 else 0

/-- The sign-extended low 32 bits of an integer (03 R72). -/
def low32 (v : Int) : Word := (BitVec.ofInt 32 v).signExtend 64

/-- Quotient of a signed division: truncated toward zero, with the results that R73 fixes for a zero divisor and for the
one overflow. -/
def quotient (a b : Word) : Word :=
  if b = 0 then BitVec.allOnes 64
  else if a = 0x8000000000000000#64 ∧ b = BitVec.allOnes 64 then 0x8000000000000000#64
  else BitVec.ofInt 64 (a.toInt.tdiv b.toInt)

/-- Remainder of a signed division. -/
def remainder (a b : Word) : Word :=
  if b = 0 then a
  else if a = 0x8000000000000000#64 ∧ b = BitVec.allOnes 64 then 0
  else BitVec.ofInt 64 (a.toInt.tmod b.toInt)

/-- The number of leading zeros. -/
def leadingZeros (a : Word) : Nat := if a = 0 then 64 else 63 - a.toNat.log2

/-- The lowest set bit; 64 of 0. -/
def trailingZeros (a : Word) : Nat := ((List.range 64).find? (fun i => a.getLsbD i)).getD 64

/-- The number of set bits. -/
def setBits (a : Word) : Nat := ((List.range 64).map (fun i => if a.getLsbD i then 1 else 0)).sum

/-- The eight bytes in reverse order. -/
def reversed (a : Word) : Word :=
  a.extractLsb' 0 8 ++ a.extractLsb' 8 8 ++ a.extractLsb' 16 8 ++ a.extractLsb' 24 8 ++ a.extractLsb' 32 8 ++
    a.extractLsb' 40 8 ++ a.extractLsb' 48 8 ++ a.extractLsb' 56 8

/-- An integer word: its thread, its destination register, and the value that 03 R72 to R74 and 02 R61 give for the
thread's registers before the word. -/
def intResult (thr : Tid → Thread) : Instr → Option (Tid × RegNo × Word)
  | .add t rd ra rb => some (t, rd, BitVec.ofNat 64 (((thr t).get ra).toNat + ((thr t).get rb).toNat))
  | .sub t rd ra rb => some (t, rd, BitVec.ofInt 64 (((thr t).get ra).toInt - ((thr t).get rb).toInt))
  | .and t rd ra rb => some (t, rd, (thr t).get ra &&& (thr t).get rb)
  | .or t rd ra rb => some (t, rd, (thr t).get ra ||| (thr t).get rb)
  | .xor t rd ra rb => some (t, rd, (thr t).get ra ^^^ (thr t).get rb)
  | .andn t rd ra rb => some (t, rd, (thr t).get ra &&& ~~~ (thr t).get rb)
  | .shl t rd ra rb => some (t, rd, BitVec.ofNat 64 (((thr t).get ra).toNat * 2 ^ (((thr t).get rb).toNat % 64)))
  | .shr t rd ra rb => some (t, rd, BitVec.ofNat 64 (((thr t).get ra).toNat / 2 ^ (((thr t).get rb).toNat % 64)))
  | .sar t rd ra rb => some (t, rd, BitVec.ofInt 64 (((thr t).get ra).toInt / 2 ^ (((thr t).get rb).toNat % 64)))
  | .ror t rd ra rb => some (t, rd, BitVec.ofNat 64 (((thr t).get ra).toNat / 2 ^ (((thr t).get rb).toNat % 64) +
      ((thr t).get ra).toNat * 2 ^ (64 - ((thr t).get rb).toNat % 64)))
  | .slt t rd ra rb => some (t, rd, ofBool (decide (((thr t).get ra).toInt < ((thr t).get rb).toInt)))
  | .sltu t rd ra rb => some (t, rd, ofBool (decide (((thr t).get ra).toNat < ((thr t).get rb).toNat)))
  | .min t rd ra rb => some (t, rd, BitVec.ofInt 64 (min ((thr t).get ra).toInt ((thr t).get rb).toInt))
  | .max t rd ra rb => some (t, rd, BitVec.ofInt 64 (max ((thr t).get ra).toInt ((thr t).get rb).toInt))
  | .minu t rd ra rb => some (t, rd, BitVec.ofNat 64 (min ((thr t).get ra).toNat ((thr t).get rb).toNat))
  | .maxu t rd ra rb => some (t, rd, BitVec.ofNat 64 (max ((thr t).get ra).toNat ((thr t).get rb).toNat))
  | .mul t rd ra rb => some (t, rd, BitVec.ofNat 64 (((thr t).get ra).toNat * ((thr t).get rb).toNat))
  | .mulh t rd ra rb => some (t, rd, BitVec.ofInt 64 (((thr t).get ra).toInt * ((thr t).get rb).toInt / 2 ^ 64))
  | .mulhu t rd ra rb => some (t, rd, BitVec.ofNat 64 (((thr t).get ra).toNat * ((thr t).get rb).toNat / 2 ^ 64))
  | .div t rd ra rb => some (t, rd, quotient ((thr t).get ra) ((thr t).get rb))
  | .divu t rd ra rb => some (t, rd, if (thr t).get rb = 0 then BitVec.allOnes 64
      else BitVec.ofNat 64 (((thr t).get ra).toNat / ((thr t).get rb).toNat))
  | .rem t rd ra rb => some (t, rd, remainder ((thr t).get ra) ((thr t).get rb))
  | .remu t rd ra rb => some (t, rd, if (thr t).get rb = 0 then (thr t).get ra
      else BitVec.ofNat 64 (((thr t).get ra).toNat % ((thr t).get rb).toNat))
  | .addw t rd ra rb => some (t, rd, low32 (((thr t).get ra).toInt + ((thr t).get rb).toInt))
  | .subw t rd ra rb => some (t, rd, low32 (((thr t).get ra).toInt - ((thr t).get rb).toInt))
  | .shlw t rd ra rb => some (t, rd, low32 (((thr t).get ra).toInt * 2 ^ (((thr t).get rb).toNat % 32)))
  | .shrw t rd ra rb => some (t, rd,
      low32 ((((thr t).get ra).toNat % 2 ^ 32 / 2 ^ (((thr t).get rb).toNat % 32) : Nat) : Int))
  | .sarw t rd ra rb => some (t, rd,
      low32 ((((thr t).get ra).setWidth 32).toInt / 2 ^ (((thr t).get rb).toNat % 32)))
  | .mulw t rd ra rb => some (t, rd, low32 (((thr t).get ra).toInt * ((thr t).get rb).toInt))
  | .clz t rd ra => some (t, rd, BitVec.ofNat 64 (leadingZeros ((thr t).get ra)))
  | .ctz t rd ra => some (t, rd, BitVec.ofNat 64 (trailingZeros ((thr t).get ra)))
  | .popc t rd ra => some (t, rd, BitVec.ofNat 64 (setBits ((thr t).get ra)))
  | .bswap t rd ra => some (t, rd, reversed ((thr t).get ra))
  | .sextb t rd ra => some (t, rd, (((thr t).get ra).setWidth 8).signExtend 64)
  | .sexth t rd ra => some (t, rd, (((thr t).get ra).setWidth 16).signExtend 64)
  | .zextb t rd ra => some (t, rd, BitVec.ofNat 64 (((thr t).get ra).toNat % 2 ^ 8))
  | .zexth t rd ra => some (t, rd, BitVec.ofNat 64 (((thr t).get ra).toNat % 2 ^ 16))
  | .addi t rd ra imm => some (t, rd, BitVec.ofInt 64 (((thr t).get ra).toInt + imm.toInt))
  | .andi t rd ra imm => some (t, rd, (thr t).get ra &&& BitVec.ofNat 64 imm.toNat)
  | .ori t rd ra imm => some (t, rd, (thr t).get ra ||| BitVec.ofNat 64 imm.toNat)
  | .xori t rd ra imm => some (t, rd, (thr t).get ra ^^^ BitVec.ofNat 64 imm.toNat)
  | .shli t rd ra n => some (t, rd, BitVec.ofNat 64 (((thr t).get ra).toNat * 2 ^ n.toNat))
  | .shri t rd ra n => some (t, rd, BitVec.ofNat 64 (((thr t).get ra).toNat / 2 ^ n.toNat))
  | .sari t rd ra n => some (t, rd, BitVec.ofInt 64 (((thr t).get ra).toInt / 2 ^ n.toNat))
  | .rori t rd ra n => some (t, rd, BitVec.ofNat 64 (((thr t).get ra).toNat / 2 ^ n.toNat +
      ((thr t).get ra).toNat * 2 ^ (64 - n.toNat)))
  | .slti t rd ra imm => some (t, rd, ofBool (decide (((thr t).get ra).toInt < imm.toInt)))
  | .sltiu t rd ra imm => some (t, rd, ofBool (decide (((thr t).get ra).toNat < (BitVec.ofInt 64 imm.toInt).toNat)))
  | .muli t rd ra imm => some (t, rd, BitVec.ofInt 64 (((thr t).get ra).toInt * imm.toInt))
  | .addwi t rd ra imm => some (t, rd, low32 (((thr t).get ra).toInt + imm.toInt))
  | .movi t rd imm => some (t, rd, BitVec.ofInt 64 imm.toInt)
  | .orh t rd half imm => some (t, rd, (thr t).get rd ||| BitVec.ofNat 64 (imm.toNat * 2 ^ (16 * half.toNat)))
  | .addpc t rd imm => some (t, rd, BitVec.ofInt 64 ((thr t).pc.toNat + imm.toInt * 4))
  | .nop t => some (t, 0, 0)
  | _ => none

/-- A conditional branch: its thread, its offset in words, and whether the condition holds (03 R77). -/
def branchCond (thr : Tid → Thread) : Instr → Option (Tid × BitVec 14 × Bool)
  | .beq t ra rb off => some (t, off, decide ((thr t).get ra = (thr t).get rb))
  | .bne t ra rb off => some (t, off, decide ((thr t).get ra ≠ (thr t).get rb))
  | .blt t ra rb off => some (t, off, decide (((thr t).get ra).toInt < ((thr t).get rb).toInt))
  | .bge t ra rb off => some (t, off, decide (((thr t).get rb).toInt ≤ ((thr t).get ra).toInt))
  | .bltu t ra rb off => some (t, off, decide (((thr t).get ra).toNat < ((thr t).get rb).toNat))
  | .bgeu t ra rb off => some (t, off, decide (((thr t).get rb).toNat ≤ ((thr t).get ra).toNat))
  | _ => none

/-- The address that lies `off` words from `pc`, modulo 2^32 (02 R62). -/
def wordsFrom (pc : Word32) (off : Int) : Word32 := BitVec.ofInt 32 (pc.toNat + off * 4)

/-- What a word computes with is the same in both states but for thread `t`: memory with its errors, reservations, the
Timebase, and the registers, PC and status of every other thread. -/
def Quiet (s s' : State) (t : Tid) : Prop :=
  s'.mem = s.mem ∧ s'.eccC = s.eccC ∧ s'.eccU = s.eccU ∧ s'.resvs = s.resvs ∧ s'.tb = s.tb ∧ s'.pending = s.pending ∧
  ∀ u, u ≠ t.toNat → (s'.thr u).regs = (s.thr u).regs ∧ (s'.thr u).pc = (s.thr u).pc ∧ (s'.thr u).st = (s.thr u).st ∧
    (s'.thr u).held = (s.thr u).held ∧ (s'.thr u).vbase = (s.thr u).vbase

/-- Thread `t` holds the registers of `th`, and `pc`; its status, HELD, VBASE and WTMO are those it had. -/
def Holds (s s' : State) (t : Tid) (th : Thread) (pc : Word32) : Prop :=
  (s'.thr t.toNat).regs = th.regs ∧ (s'.thr t.toNat).pc = pc ∧ (s'.thr t.toNat).st = (s.thr t.toNat).st ∧
  (s'.thr t.toNat).held = (s.thr t.toNat).held ∧ (s'.thr t.toNat).vbase = (s.thr t.toNat).vbase ∧
  (s'.thr t.toNat).wtmo = (s.thr t.toNat).wtmo

/-- The word at an instruction address in the own instruction SRAM of thread `t`'s core. -/
def sramWord (s : State) (t : Tid) (a : Nat) : Word32 :=
  BitVec.ofNat 32 (leNat (s.bytes (isramBase (t.toNat / 4) + a) 4))

end Sys2Proof.Says

open Sys2Proof Sys2Proof.Machine Sys2Proof.Says

/-! ### The queue, the word encodings, memory -/

/-- A step takes the command at the front of the queue and runs it with the rest of the queue. -/
def Obligations.StepRunsFrontCommand : Prop :=
  ∀ (s : State) (c : Instr) (rest : List Instr), s.pending = c :: rest → step s = exec c { s with pending := rest }

/-- With no command waiting, and no frame, BAR request or Timebase change pending, a step lets one nanosecond pass (the
model's choice, log entry 5): the model's clock moves by 1; the Timebase stands while its PLL is not locked, and moves by 1
where it is locked with no rate correction and no slew; no memory byte and no thread changes. -/
def Obligations.EmptyQueueStepIsOneNanosecond : Prop :=
  ∀ (s : State), s.pending = [] → s.porter.ingress = [] → s.link.bars = [] → s.tb.onEdge = .nothing →
    ∃ s', step s = .next s' ∧ s'.mem = s.mem ∧ s'.threads = s.threads ∧ s'.pending = [] ∧
      (s.flag Fld.TB_STS_PLLLOCK = false → s'.tb.now = s.tb.now ∧ s'.tb.elapsed = s.tb.elapsed + 1) ∧
      (s.flag Fld.TB_STS_PLLLOCK = true → s.reg Reg.TB_RATE = 0 → s.reg Reg.TB_SLEW = 0 →
        s'.tb.now = s.tb.now + 1 ∧ s'.tb.elapsed = s.tb.elapsed + 1)

/-- Every command of the table answers a next state. -/
def Obligations.EveryCommandAnswersNext : Prop := ∀ (c : Instr) (s : State), ∃ s', exec c s = .next s'

/-- The word of a core instruction, written by the encoding tables of chapter 02, decodes to that instruction with every
operand. A micro-routine's word says nothing of the steps that one command runs; the decoder names one. -/
def Obligations.InstructionWordsRoundTrip : Prop :=
  ∀ (i : Instr) (w : Word32), wellFormed i = true →
    (∀ t ra m n, i = .callm t ra m n → n = 1) → (∀ t m n, i = .retm t m n → n = 1) →
    (∀ t rd ra rb n, i = .movb t rd ra rb n → n = 1) → (∀ t rd ra rb n, i = .fillb t rd ra rb n → n = 1) →
    encodeWord i = some w → ∃ t, decodeWord t w = some i

/-- Every step keeps memory in its canonical form. -/
def Obligations.EveryStepKeepsMemoryCanonical : Prop :=
  ∀ (s s' : State), s.memCanonical → step s = .next s' → s'.memCanonical

/-- After reset memory is canonical, no command waits, no thread but the steward is enabled, and the steward is
privileged in Elastic mode with every interrupt level admitted. -/
def Obligations.ResetState : Prop :=
  State.reset.memCanonical ∧ State.reset.pending = [] ∧ State.reset.mem = [] ∧
  (∀ t, t ≠ steward → (State.reset.thr t).tstate = .disabled) ∧
  (State.reset.thr steward).priv = true ∧ (State.reset.thr steward).mode = false ∧ (State.reset.thr steward).il = 0 ∧
  ∀ t r, (State.reset.thr t).get r = 0

/-- A stored byte string reads back, and every byte outside it is as it was. -/
def Obligations.StoredBytesReadBack : Prop :=
  ∀ (s : State) (who : Option Nat) (a : Nat) (bs : List Byte), s.memCanonical →
    (s.store who a bs).bytes a bs.length = bs ∧
    ∀ x, x < a ∨ a + bs.length ≤ x → (s.store who a bs).byte x = s.byte x

/-! ### Integer words, branches -/

/-- An integer word of an Elastic thread writes the value that R72 to R74 give to rd (to nothing where rd is g0), moves
PC to the next word, and changes nothing else in the machine (a place the thread held at an arbiter ends). -/
def Sys2Proof.Says.IntegerWordsElastic : Prop :=
  ∀ (s : State) (i : Instr) (t : Tid) (rd : RegNo) (v : Word),
    intResult (fun t => s.thr t.toNat) i = some (t, rd, v) → Ready s t → Elastic s t →
    exec i s = .next (worded s t (after ((s.thr t.toNat).set rd v) ((s.thr t.toNat).pc + 4)))

/-- An integer word in either mode: rd and PC as in Elastic mode, and nothing else that a word computes with. -/
def Sys2Proof.Says.IntegerWordsBothModes : Prop :=
  ∀ (s : State) (i : Instr) (t : Tid) (rd : RegNo) (v : Word),
    intResult (fun t => s.thr t.toNat) i = some (t, rd, v) → Ready s t →
    ∃ s', exec i s = .next s' ∧ Quiet s s' t ∧ Holds s s' t ((s.thr t.toNat).set rd v) ((s.thr t.toNat).pc + 4)

/-- The integer words, in Elastic mode with the whole frame and in either mode with what a word computes with. -/
def Obligations.IntegerWords : Prop := IntegerWordsElastic ∧ IntegerWordsBothModes


/-- A conditional branch goes `off` words from the branch word where its condition holds, else on to the next word, and
writes no register. -/
def Sys2Proof.Says.ConditionalBranches : Prop :=
  ∀ (s : State) (i : Instr) (t : Tid) (off : BitVec 14) (c : Bool),
    branchCond (fun t => s.thr t.toNat) i = some (t, off, c) → Ready s t →
    ∃ s', exec i s = .next s' ∧ Quiet s s' t ∧
      Holds s s' t (s.thr t.toNat) (if c then wordsFrom (s.thr t.toNat).pc off.toInt else (s.thr t.toNat).pc + 4)

/-- B and BL go `off` words from the branch word; BR and BLR to the address in ra, which is read before lk is written.
BL and BLR write the address of the following word to lk. -/
def Sys2Proof.Says.UnconditionalBranches : Prop :=
  ∀ (s : State) (t : Tid), Ready s t →
    let th := s.thr t.toNat
    let link := th.set 31 (BitVec.ofNat 64 (th.pc + 4).toNat)
    (∀ off, ∃ s', exec (.b t off) s = .next s' ∧ Quiet s s' t ∧ Holds s s' t th (wordsFrom th.pc off.toInt)) ∧
    (∀ off, ∃ s', exec (.bl t off) s = .next s' ∧ Quiet s s' t ∧ Holds s s' t link (wordsFrom th.pc off.toInt)) ∧
    (∀ ra, ((th.get ra).toNat % 2 ^ 32) % 4 = 0 →
      ∃ s', exec (.br t ra) s = .next s' ∧ Quiet s s' t ∧ Holds s s' t th ((th.get ra).setWidth 32)) ∧
    (∀ ra, ((th.get ra).toNat % 2 ^ 32) % 4 = 0 →
      ∃ s', exec (.blr t ra) s = .next s' ∧ Quiet s s' t ∧ Holds s s' t link ((th.get ra).setWidth 32))

/-- The branch words: where each goes, and what it writes. -/
def Obligations.Branches : Prop := ConditionalBranches ∧ UnconditionalBranches


namespace Sys2Proof.Says

open Sys2Proof.Machine

/-- The arbiters of a path grant a request of thread `t` now, and its core has a slot for it (04 R118; 05 R174, R182). -/
def pathOpen (s : State) (t : Tid) (path : List ArbiterId) : Bool :=
  (s.stopsAt t.toNat path).isNone && s.slotFree t.toNat

/-- The near Annex of thread `t`'s cluster takes an operation of the thread now, for any opcode unit: its arbiter grants, and
the core has a slot (04 R118; 05 R173, R185). -/
def annexFree (s : State) (t : Tid) : Prop :=
  s.slotFree t.toNat = true ∧ ∀ u, u < 8 → s.passes t.toNat (.annex (BitVec.ofNat 6 (t.toNat / 32)) 0) u = true

/-- A cluster's memory answers thread `t` at once: the cluster is not retired, its region is Active or Quiet, and every
arbiter on the way grants (02 R53; 05 R182; 12 R391). -/
def clusterOpen (s : State) (t : Tid) (cl : Nat) : Bool :=
  !s.clusterRetired cl && decide (s.pstate (cl / 8) ≤ 1) && pathOpen s t (s.clusterPath t.toNat cl)

/-- Where `n` bytes at a data address of thread `t` lie, when the access is permitted, lies in one region and waits for
nothing: the number of the first byte's place in memory (02 R51 to R53). -/
def placeOf (s : State) (t : Tid) (a n : Nat) : Option Nat :=
  if (List.range n).any (fun i => dRegion (a + i) != dRegion a) then none
  else
    match dRegion a with
    | .dsram => some (dsramBase (t.toNat / 4) + a)
    | .ownCl => if clusterOpen s t (t.toNat / 32) then some (clusterBase (t.toNat / 32) + (a - 0x10000000)) else none
    | .glob cl => if clusterOpen s t cl then some a else none
    | .session =>
      if (List.range n).any (fun i => s.assay.withdrawn.contains (rowUnit (a + i))) ||
        !pathOpen s t [s.fabricFor t.toNat 8] then none else some a
    | .frame =>
      if (List.range n).any (fun i => s.assay.withdrawn.contains (rowUnit (a + i))) ||
        !pathOpen s t [s.fabricFor t.toNat 9] then none else some a
    | _ => none

/-- A load: thread, rd, ra, mode, displacement, bytes, and whether it sign-extends (03 R75). -/
def loadForm : Instr → Option (Tid × RegNo × RegNo × BitVec 2 × BitVec 12 × Nat × Bool)
  | .ldb t rd ra m d => some (t, rd, ra, m, d, 1, false)
  | .ldbs t rd ra m d => some (t, rd, ra, m, d, 1, true)
  | .ldh t rd ra m d => some (t, rd, ra, m, d, 2, false)
  | .ldhs t rd ra m d => some (t, rd, ra, m, d, 2, true)
  | .ldw t rd ra m d => some (t, rd, ra, m, d, 4, false)
  | .ldws t rd ra m d => some (t, rd, ra, m, d, 4, true)
  | .ldd t rd ra m d => some (t, rd, ra, m, d, 8, false)
  | _ => none

/-- A store: thread, rs, ra, mode, displacement, bytes. -/
def storeForm : Instr → Option (Tid × RegNo × RegNo × BitVec 2 × BitVec 12 × Nat)
  | .stb t rs ra m d => some (t, rs, ra, m, d, 1)
  | .sth t rs ra m d => some (t, rs, ra, m, d, 2)
  | .stw t rs ra m d => some (t, rs, ra, m, d, 4)
  | .std t rs ra m d => some (t, rs, ra, m, d, 8)
  | _ => none

/-- A little-endian number of `n` bytes, sign-extended or zero-extended to 64 bits. -/
def extended (n v : Nat) (signed : Bool) : Word :=
  if signed && decide (2 ^ (8 * n - 1) ≤ v) then BitVec.ofInt 64 ((v : Int) - 2 ^ (8 * n)) else BitVec.ofNat 64 v

/-- The base register's new value, where the addressing mode writes it back. -/
def withBase (th : Thread) (ra : RegNo) : Option Word → Thread
  | some v => th.set ra v
  | none => th

/-- A reservation of `s` that a store of `n` bytes at `p` by thread `t` leaves standing (05 R171). -/
def keptBy (p n : Nat) (t : Tid) (r : Nat × Nat) : Prop :=
  r.1 = t.toNat ∨ ∀ x, p ≤ x → x < p + n → resGranule x ≠ r.2

/-- `s'` is `s` after thread `t` stored `bs` at `p`: the bytes, every other byte, the reservations; registers of the I/O
space, the Timebase and every other thread are as they were. -/
def Stored (s s' : State) (t : Tid) (p : Nat) (bs : List Byte) : Prop :=
  (s.memCanonical → s'.bytes p bs.length = bs) ∧
  (∀ x, x < p ∨ p + bs.length ≤ x → s'.byte x = s.byte x) ∧
  (∀ r, r ∈ s'.resvs ↔ r ∈ s.resvs ∧ keptBy p bs.length t r) ∧
  s'.regs = s.regs ∧ s'.tb = s.tb ∧ s'.pending = s.pending ∧ ∀ u, u ≠ t.toNat → s'.thr u = s.thr u

end Sys2Proof.Says

/-! ### Loads, stores, atomics, paired words -/

/-- The four addressing modes and the forms that are Illegal, for AMODE 0 and 1. -/
def Obligations.AddressingModes : Prop :=
  ∀ (th : Thread) (load : Option RegNo) (ra : RegNo) (disp : BitVec 12),
    let b := th.get ra
    let rx : RegNo := disp.extractLsb' 7 5
    let d7 : Int := (disp.setWidth 7).toInt
    (th.amode = false →
      memOperand th load ra 0 disp = some (BitVec.ofInt 64 (b.toInt + disp.toInt), none) ∧
      (ra ≠ 0 → load ≠ some ra →
        memOperand th load ra 1 disp = some (b, some (BitVec.ofNat 64 (b.toNat + disp.toNat))) ∧
        memOperand th load ra 2 disp =
          some (BitVec.ofInt 64 (b.toNat - disp.toNat), some (BitVec.ofInt 64 (b.toNat - disp.toNat)))) ∧
      (ra = 0 ∨ load = some ra → memOperand th load ra 1 disp = none ∧ memOperand th load ra 2 disp = none) ∧
      memOperand th load ra 3 0 = some (b, none) ∧ (disp ≠ 0 → memOperand th load ra 3 disp = none)) ∧
    (th.amode = true →
      memOperand th load ra 0 disp = some (BitVec.ofInt 64 (b.toInt + disp.toInt), none) ∧
      memOperand th load ra 1 disp = some (BitVec.ofInt 64 (b.toInt + (th.get rx).toInt + d7), none) ∧
      memOperand th load ra 2 disp = some (BitVec.ofInt 64 (b.toInt + (th.get rx).toInt * 4 + d7), none) ∧
      memOperand th load ra 3 disp = some (BitVec.ofInt 64 (b.toInt + (th.get rx).toInt * 8 + d7), none))

/-- A load of an Elastic thread from a place that answers at once brings the little-endian bytes there, extended, to rd;
where the mode writes the base back, ra takes its new value; nothing else in the machine changes but lines of caches. -/
def Obligations.LoadsElastic : Prop :=
  ∀ (s : State) (i : Instr) (t : Tid) (rd ra : RegNo) (m : BitVec 2) (d : BitVec 12) (n : Nat) (signed : Bool)
    (ea : Word) (wb : Option Word) (p : Nat),
    loadForm i = some (t, rd, ra, m, d, n, signed) → Ready s t → Elastic s t → Clean s →
    memOperand (s.thr t.toNat) (some rd) ra m d = some (ea, wb) → placeOf s t ea.toNat n = some p →
    ∃ s', exec i s = .next s' ∧ { s' with caches := s.caches } = worded s t (after
      (withBase ((s.thr t.toNat).set rd (extended n (leNat (s.bytes p n)) signed)) ra wb) ((s.thr t.toNat).pc + 4))

/-- A store of an Elastic thread to a place that answers at once writes the low bytes of rs there, least significant
first, and nothing else in memory; ra takes its new value where the mode writes it back; reservations of other threads on
the granules are cleared. -/
def Obligations.StoresElastic : Prop :=
  ∀ (s : State) (i : Instr) (t : Tid) (rs ra : RegNo) (m : BitVec 2) (d : BitVec 12) (n : Nat)
    (ea : Word) (wb : Option Word) (p : Nat),
    storeForm i = some (t, rs, ra, m, d, n) → Ready s t → Elastic s t → Clean s →
    memOperand (s.thr t.toNat) none ra m d = some (ea, wb) → placeOf s t ea.toNat n = some p →
    ∃ s', exec i s = .next s' ∧ Stored s s' t p (leBytes n ((s.thr t.toNat).get rs).toNat) ∧
      s'.thr t.toNat = after (withBase (s.thr t.toNat) ra wb) ((s.thr t.toNat).pc + 4)

/-- A Metered store outside the own data SRAM is captured: memory is unchanged and the core's buffer, here empty before,
holds the bytes; the word takes 2 beats. -/
def Sys2Proof.Says.MeteredStoresAreCaptured : Prop :=
  ∀ (s : State) (i : Instr) (t : Tid) (rs ra : RegNo) (m : BitVec 2) (d : BitVec 12) (n : Nat)
    (ea : Word) (wb : Option Word) (p : Nat) (q : Nat),
    storeForm i = some (t, rs, ra, m, d, n) → Ready s t → (s.thr t.toNat).mode = true →
    pairOf (t.toNat / 4) = some q → (s.core (pairCores q).1).cbuf = [] → (s.core (pairCores q).2).cbuf = [] →
    (s.core (pairCores q).1).doneAt = none →
    memOperand (s.thr t.toNat) none ra m d = some (ea, wb) → placeOf s t ea.toNat n = some p →
    dRegion ea.toNat ≠ .dsram → granule ea.toNat = ea.toNat →
    ∃ s' e, exec i s = .next s' ∧ s'.mem = s.mem ∧ (s'.core (t.toNat / 4)).cbuf = [e] ∧
      e.kind = 0 ∧ e.addr = ea.setWidth 48 ∧ e.mask = BitVec.ofNat 8 (2 ^ n - 1) ∧
      e.data.toNat = ((s.thr t.toNat).get rs).toNat % 256 ^ n ∧
      (s'.core (t.toNat / 4)).beats = (s.core (t.toNat / 4)).beats + 2 ∧
      (s'.thr t.toNat).regs = (withBase (s.thr t.toNat) ra wb).regs ∧ (s'.thr t.toNat).pc = (s.thr t.toNat).pc + 4

/-- TAS reads the lock word; where it is 0 the word becomes the thread's number plus 1 and HELD gains the lock's rank; rd
takes the word read. RELS writes 0 and HELD loses the rank. -/
def Sys2Proof.Says.LocksElastic : Prop :=
  ∀ (s : State) (t : Tid) (rd ra : RegNo) (rank : BitVec 4) (p : Nat), Ready s t → Elastic s t → Clean s →
    let th := s.thr t.toNat
    let a := (th.get ra).toNat
    a % 8 = 0 → (dRegion a = .ownCl ∨ (∃ cl, dRegion a = .glob cl) ∨ dRegion a = .session) →
    placeOf s t a 8 = some p →
    (s.hooked (t.toNat / 32) = false → (th.rankchk = false ∨ th.held.toNat / 2 ^ rank.toNat = 0) →
      (leNat (s.bytes p 8) = 0 →
        ∃ s', exec (.tas t rd ra rank) s = .next s' ∧ Stored s s' t p (leBytes 8 (t.toNat + 1)) ∧
          s'.thr t.toNat = after ({ th with held := th.held ||| (1#16 <<< rank.toNat), spin := none }.set rd 0) (th.pc + 4)) ∧
      (leNat (s.bytes p 8) ≠ 0 →
        exec (.tas t rd ra rank) s =
          .next (worded s t (after (th.set rd (BitVec.ofNat 64 (leNat (s.bytes p 8)))) (th.pc + 4))))) ∧
    (∃ s', exec (.rels t ra rank) s = .next s' ∧ Stored s s' t p (leBytes 8 0) ∧
      s'.thr t.toNat = after { th with held := th.held &&& ~~~ (1#16 <<< rank.toNat) } (th.pc + 4))

/-- LR and LRW load the word, zero-extended, and reserve its granule for the thread, whose earlier reservation ends; a
timed one starts the thread's spin timer where it does not run. The target's table is not full of captured SCs (08 R271). -/
def Sys2Proof.Says.LoadReserved : Prop :=
  ∀ (s : State) (t : Tid) (rd ra : RegNo) (timed : Bool) (p : Nat), Ready s t → Elastic s t → Clean s →
    let th := s.thr t.toNat
    let a := (th.get ra).toNat
    let th' := if timed && th.spin.isNone then { th with spin := some s.now } else th
    (∀ since, th.spin = some since → timed = true → th.wtmo = 0 ∨ s.now < since + th.wtmo.toNat) →
    (∀ size m, resvTable p = some (size, m) → s.scHeld p < size) →
    (∀ n i, (n = 8 ∧ i = Instr.lr t rd ra timed) ∨ (n = 4 ∧ i = Instr.lrw t rd ra timed) → a % n = 0 →
      placeOf s t a n = some p →
      ∃ s', exec i s = .next s' ∧ s'.mem = s.mem ∧ (t.toNat, resGranule p) ∈ s'.resvs ∧
        (∀ g, (t.toNat, g) ∈ s'.resvs → g = resGranule p) ∧
        s'.thr t.toNat = after (th'.set rd (BitVec.ofNat 64 (leNat (s.bytes p n)))) (th.pc + 4))

/-- SC and SCW store, and write 0 to rd, exactly where the thread's reservation names the granule; else they store nothing
and write 1. Either way the thread's reservation ends. -/
def Sys2Proof.Says.StoreConditional : Prop :=
  ∀ (s : State) (t : Tid) (rd ra rb : RegNo) (p n : Nat) (i : Instr), Ready s t → Elastic s t → Clean s →
    (n = 8 ∧ i = .sc t rd ra rb) ∨ (n = 4 ∧ i = .scw t rd ra rb) →
    let th := s.thr t.toNat
    let a := (th.get ra).toNat
    a % n = 0 → placeOf s t a n = some p →
    ((t.toNat, resGranule p) ∈ s.resvs →
      ∃ s', exec i s = .next s' ∧ (s.memCanonical → s'.bytes p n = leBytes n (th.get rb).toNat) ∧
        (∀ x, x < p ∨ p + n ≤ x → s'.byte x = s.byte x) ∧ (∀ g, (t.toNat, g) ∉ s'.resvs) ∧ s'.regs = s.regs ∧
        s'.thr t.toNat = after ({ th with spin := none }.set rd 0) (th.pc + 4)) ∧
    ((t.toNat, resGranule p) ∉ s.resvs →
      ∃ s', exec i s = .next s' ∧ s'.mem = s.mem ∧ (∀ g, (t.toNat, g) ∉ s'.resvs) ∧ s'.regs = s.regs ∧
        s'.thr t.toNat = after (th.set rd 1) (th.pc + 4))

/-- The atomics of an Elastic thread: TAS and RELS, LR and LRW, SC and SCW. -/
def Obligations.LocksAndReservations : Prop := LocksElastic ∧ LoadReserved ∧ StoreConditional


namespace Sys2Proof.Says

open Sys2Proof.Machine

/-- What a short operation that accesses no memory writes, of its registers d (its rd) and r (its rs) (02 R67). -/
def shortValue (x : ShortSlot) (d r : Word) : Word :=
  match x.op.toNat with
  | 1 => r
  | 2 => BitVec.ofNat 64 (d.toNat + r.toNat)
  | 3 => BitVec.ofInt 64 (d.toInt - r.toInt)
  | 4 => d &&& r
  | 5 => d ||| r
  | 6 => d ^^^ r
  | 7 => d &&& ~~~ r
  | 8 => BitVec.ofNat 64 (d.toNat * 2 ^ (r.toNat % 64))
  | 9 => BitVec.ofNat 64 (d.toNat / 2 ^ (r.toNat % 64))
  | 10 => BitVec.ofInt 64 (d.toInt / 2 ^ (r.toNat % 64))
  | 11 => BitVec.ofInt 64 (- r.toInt)
  | 12 => ~~~ r
  | 13 => BitVec.ofInt 64 (d.toInt + x.rs.toInt)
  | 14 => BitVec.ofNat 64 (d.toNat * 2 ^ x.rs.toNat)
  | 15 => BitVec.ofNat 64 (d.toNat / 2 ^ x.rs.toNat)
  | 16 => BitVec.ofInt 64 (d.toInt / 2 ^ x.rs.toNat)
  | 17 => BitVec.ofInt 64 x.rs.toInt
  | 18 => ofBool (decide (d.toInt < r.toInt))
  | 19 => ofBool (decide (d.toNat < r.toNat))
  | 20 => BitVec.ofInt 64 (min d.toInt r.toInt)
  | 21 => BitVec.ofInt 64 (max d.toInt r.toInt)
  | 22 => BitVec.ofNat 64 (d.toNat * r.toNat)
  | 23 => BitVec.ofNat 64 (r.toNat % 2 ^ 32)
  | 24 => low32 r.toInt
  | 25 => low32 (d.toInt + r.toInt)
  | 26 => low32 (d.toInt - r.toInt)
  | _ => 0

/-- The registers that a short operation reads, and the one that it writes (02 R40, R67). -/
def reads (x : ShortSlot) : List RegNo :=
  if x.op.toNat = 0 ∨ x.op.toNat = 17 then []
  else if x.op.toNat ∈ [1, 11, 12, 23, 24, 27] then [x.rs]
  else if x.op.toNat ∈ [13, 14, 15, 16] then [x.rd]
  else [x.rd, x.rs]

def writes (x : ShortSlot) : Option RegNo :=
  if x.op.toNat = 0 ∨ x.op.toNat = 28 ∨ x.rd = 0 then none else some x.rd

/-- Thread `th` with a slot's result. -/
def withSlot (th : Thread) (x : ShortSlot) (v : Word) : Thread := if x.op.toNat = 0 ∨ x.op.toNat = 28 then th else th.set x.rd v

end Sys2Proof.Says

/-- A paired word of two register operations: both slots read their registers as they were before the word; each writes
its result; PC moves to the next word; nothing else changes. -/
def Sys2Proof.Says.PairedRegisterWords : Prop :=
  ∀ (s : State) (t : Tid) (a b : ShortSlot), Ready s t → Elastic s t →
    wfPair a b = true → a.op.toNat < 27 → b.op.toNat < 27 →
    (∀ r, writes a = some r → writes b ≠ some r ∧ r ∉ reads b) →
    let th := s.thr t.toNat
    exec (.pairedWord t a b) s = .next (worded s t (after
      (withSlot (withSlot th a (shortValue a (th.get a.rd) (th.get a.rs))) b (shortValue b (th.get b.rd) (th.get b.rs)))
      (th.pc + 4)))

/-- A paired word whose slot A stores and whose slot B loads (short opcodes 28 and 27): the store comes first, and the load
finds what it wrote. -/
def Sys2Proof.Says.PairedStoreThenLoad : Prop :=
  ∀ (s : State) (t : Tid) (a b : ShortSlot) (p q : Nat), Ready s t → Elastic s t → Clean s →
    a.op.toNat = 28 → b.op.toNat = 27 →
    let th := s.thr t.toNat
    placeOf s t (th.get a.rd).toNat 8 = some p → placeOf s t (th.get b.rs).toNat 8 = some q →
    ∃ s', exec (.pairedWord t a b) s = .next s' ∧ Stored s s' t p (leBytes 8 (th.get a.rs).toNat) ∧
      s'.thr t.toNat = after (th.set b.rd (BitVec.ofNat 64 (leNat (s'.bytes q 8)))) (th.pc + 4)

/-- Paired words: two register operations, and a store before a load. -/
def Obligations.PairedWords : Prop := PairedRegisterWords ∧ PairedStoreThenLoad


namespace Sys2Proof.Says

open Sys2Proof.Machine

/-- Thread `t` reaches a register at I/O address `a` and waits for nothing: the address lies within 24 bits and the page is
open, a register lies there, its block is awake and fabric target 11 grants; the own-core window passes no fabric (02 R57 to
R59; 05 R182; 12 R391). -/
def reaches (s : State) (t : Tid) (a : Nat) (d : RegDesc) (k b : Nat) : Prop :=
  a < 2 ^ 24 ∧ s.pageOpen t.toNat a = true ∧ reach (.core t) a = some (d, k, b) ∧ s.blockAsleep a = none ∧
    (0xFF0000 ≤ a ∨ pathOpen s t [s.fabricFor t.toNat 11] = true)

/-- The byte address that an IN, OUT, ILOAD or ISTORE forms (02 R59). -/
def ioSumOf (th : Thread) (ra : RegNo) (imm : BitVec 14) : Nat := (BitVec.ofInt 64 ((th.get ra).toInt + imm.toInt)).toNat

/-- The places that an entry to the handler of vector `v` needs lie in the own SRAMs: the frame of 64 bytes at sp − 64 in the
own data SRAM, the table entry in the own instruction SRAM, and the entry is a word address (04 R132). -/
def EntrySpace (s : State) (t : Tid) (v : Nat) : Prop :=
  Elastic s t ∧ Clean s ∧ ((s.thr t.toNat).sp - 64).toNat + 64 ≤ 0x8000 ∧
    (s.thr t.toNat).vbase.toNat + 4 * v + 4 ≤ 0x8000 ∧
    (sramWord s t ((s.thr t.toNat).vbase.toNat + 4 * v)).toNat % 4 = 0

/-- Entry to the handler of vector `v` can succeed for a thread in the Ready state that no interrupt is taken first by (04
R131). -/
def EntryOk (s : State) (t : Tid) (v : Nat) : Prop :=
  EntrySpace s t v ∧ (s.thr t.toNat).tstate = .ready ∧ s.interruptFirst t.toNat = false

/-- The frame that an entry stores, least significant byte first: PC, ST with the vector, lk, g1 to g5 (04 R132). -/
def entryFrameBytes (th : Thread) (v : Nat) (pc st : Word32) : List Byte :=
  leBytes 8 pc.toNat ++ (leBytes 4 st.toNat ++ leBytes 4 v) ++ leBytes 8 (th.get 31).toNat ++ leBytes 8 (th.get 1).toNat ++
    leBytes 8 (th.get 2).toNat ++ leBytes 8 (th.get 3).toNat ++ leBytes 8 (th.get 4).toNat ++ leBytes 8 (th.get 5).toNat

/-- `s'` is `s` after thread `t` has entered the handler of vector `v`: the frame names `pc` and the status as it was; sp is
lowered by 64; PC is the handler's address; no other register of the thread has changed; its reservation is gone. -/
def Entered (s s' : State) (t : Tid) (v : Nat) (pc : Word32) : Prop :=
  let th := s.thr t.toNat
  let f := (th.sp - 64).toNat
  let p := dsramBase (t.toNat / 4) + f
  (s.memCanonical → s'.bytes p 64 = entryFrameBytes th v pc (bitsSet (bitsSet th.st 8 1 0) 12 12 0)) ∧
  (∀ x, x < p ∨ p + 64 ≤ x → s'.byte x = s.byte x) ∧
  (s'.thr t.toNat).regs = (th.set 30 (th.sp - 64)).regs ∧
  (s'.thr t.toNat).pc = sramWord s t (th.vbase.toNat + 4 * v) ∧
  (s'.thr t.toNat).tstate = .ready ∧ (s'.thr t.toNat).held = th.held ∧ (s'.thr t.toNat).vbase = th.vbase ∧
  (∀ g, (t.toNat, g) ∉ s'.resvs)

/-- ST after an exception: MIP and MPROG are 0, every other field as it was (04 R132). -/
def stAfterEntry (st : Word32) : Word32 := bitsSet (bitsSet st 8 1 0) 12 12 0

end Sys2Proof.Says

/-! ### I/O, instruction space, special registers -/

/-- IN of an Elastic thread reads the register that the address reaches and writes it to rd, zero-extended; IND reads the
lower of two, then the upper, and writes them as one doubleword. -/
def Sys2Proof.Says.InputWordsElastic : Prop :=
  ∀ (s : State) (t : Tid) (rd ra : RegNo) (imm : BitVec 14) (d : RegDesc) (k b : Nat), Ready s t → Elastic s t →
    let th := s.thr t.toNat
    let a := ioSumOf th ra imm
    reaches s t a d k b →
    (a % 4 = 0 →
      ∃ s', exec (.ioIn t rd ra imm) s = .next s' ∧ s'.mem = s.mem ∧ s'.regs = (s.readReg (.core t) d k b).2.regs ∧
        (s'.thr t.toNat).regs = (th.set rd (BitVec.ofNat 64 (s.readReg (.core t) d k b).1.toNat)).regs ∧
        (s'.thr t.toNat).pc = th.pc + 4 ∧ (s'.thr t.toNat).st = th.st) ∧
    (∀ d' k' b', a % 8 = 0 → reaches s t (a + 4) d' k' b' → d.fields.all (fun f => f.acc != .rc) = true →
      pairLows.contains d.base = false → isPairHi b = false → d.base ≠ Reg.TY_POP → d.base ≠ Reg.PT_TXTSID →
      ∃ s', exec (.ind t rd ra imm) s = .next s' ∧ s'.mem = s.mem ∧
        (s'.thr t.toNat).regs = (th.set rd ((s.readReg (.core t) d' k' b').1 ++ (s.readReg (.core t) d k b).1)).regs ∧
        (s'.thr t.toNat).pc = th.pc + 4 ∧ (s'.thr t.toNat).st = th.st)

/-- OUT of an Elastic thread writes the low half of rs to the register that the address reaches, and the device acts on it;
the thread, where the write leaves it as it is, goes on to the next word. A post to HQ_POST finds the engine ready for it. -/
def Sys2Proof.Says.OutputWordsElastic : Prop :=
  ∀ (s : State) (t : Tid) (rs ra : RegNo) (imm : BitVec 14) (d : RegDesc) (k b : Nat), Ready s t → Elastic s t →
    let th := s.thr t.toNat
    let a := ioSumOf th ra imm
    let u := (s.writeReg (.core t) d k b ((th.get rs).setWidth 32)).settle
    reaches s t a d k b → (stewardOnly d.base = true → th.priv = true) → a % 4 = 0 → u.thr t.toNat = th →
    (d.base = Reg.HQ_POST → s.postStops k ((th.get rs).setWidth 32) = false) →
    exec (.out t rs ra imm) s = .next (worded u t (after th (th.pc + 4)))

/-- OUTD of an Elastic thread to a 64-bit pair holds the upper half of rs for the _HI register, then writes the lower half
to _LO, which acts with it. -/
def Sys2Proof.Says.OutputDoubleElastic : Prop :=
  ∀ (s : State) (t : Tid) (rs ra : RegNo) (imm : BitVec 14) (d d' : RegDesc) (k b k' b' : Nat), Ready s t → Elastic s t →
    let th := s.thr t.toNat
    let a := ioSumOf th ra imm
    let v := th.get rs
    let u := ({ s with hold := tblPut s.hold b ((v >>> 32).setWidth 32) } : State).settle
    let w := (u.writeReg (.core t) d k b (v.setWidth 32)).settle
    reaches s t a d k b → reaches s t (a + 4) d' k' b' → reaches u t a d k b → b' = b + 4 → pairLows.contains d.base = true →
    pairLows.contains d'.base = false → isPairHi b' = true → s.writeDiscarded d'.base b' = none → a % 8 = 0 → th.priv = true →
    stewardOnly d.base = false → stewardOnly d'.base = false → u.thr t.toNat = th → w.thr t.toNat = th →
    exec (.outd t rs ra imm) s = .next (worded w t (after th (th.pc + 4)))

/-- IN and IND, OUT and OUTD of an Elastic thread. -/
def Obligations.InputOutputWords : Prop := InputWordsElastic ∧ OutputWordsElastic ∧ OutputDoubleElastic


/-- ILOAD of an Elastic thread brings a word of the own instruction SRAM to rd, zero-extended; ISTORE writes the low half of
rs there, and no other byte; threads of the core may hold the earlier word in their fetch queues, and nothing else of a
thread changes. -/
def Obligations.InstructionSpaceElastic : Prop :=
  ∀ (s : State) (t : Tid) (rd ra : RegNo) (imm : BitVec 14), Ready s t → Elastic s t → Clean s →
    let th := s.thr t.toNat
    let a := ioSumOf th ra imm % 2 ^ 32
    let p := isramBase (t.toNat / 4) + a
    a % 4 = 0 → a + 4 ≤ 0x8000 →
    exec (.iload t rd ra imm) s =
      .next (worded s t (after (th.set rd (BitVec.ofNat 64 (sramWord s t a).toNat)) (th.pc + 4))) ∧
    ∃ s', exec (.istore t rd ra imm) s = .next s' ∧
      (s.memCanonical → s'.bytes p 4 = leBytes 4 ((th.get rd).toNat % 2 ^ 32)) ∧
      (∀ x, x < p ∨ p + 4 ≤ x → s'.byte x = s.byte x) ∧ s'.regs = s.regs ∧ s'.tb = s.tb ∧ s'.pending = s.pending ∧
      ∀ u, ∃ q, s'.thr u = { (if u = t.toNat then after th (th.pc + 4) else s.thr u) with fetchQ := q }

/-- MFSR of an Elastic thread: the special registers 0 to 7. -/
def Sys2Proof.Says.MoveFromSpecial : Prop :=
  ∀ (s : State) (t : Tid) (rd : RegNo), Ready s t → Elastic s t →
    let th := s.thr t.toNat
    let is (n : BitVec 5) (v : Word) : Prop :=
      exec (.mfsr t rd n) s = .next (worded s t (after (th.set rd v) (th.pc + 4)))
    is 0 (BitVec.ofNat 64 t.toNat) ∧ is 1 (BitVec.ofNat 64 th.st.toNat) ∧ is 2 (BitVec.ofNat 64 th.held.toNat) ∧
    is 3 (BitVec.ofNat 64 th.vbase.toNat) ∧ is 4 (BitVec.ofNat 64 th.wtmo.toNat) ∧ is 5 s.tb.now ∧
    is 6 (BitVec.ofNat 64 (s.cfg Fld.PO_DEVNUM_DEV + s.get Fld.PO_DEVNUM_DIE * 65536)) ∧
    (∀ e, (s.core (t.toNat / 4)).ltimer = some e → is 7 (BitVec.ofNat 64 (e - s.now))) ∧
    ((s.core (t.toNat / 4)).ltimer = none → is 7 0)

/-- MTSR of a privileged Elastic thread: ST takes AMODE, RANKCHK, PRIV and IL; HELD, VBASE (whose low byte stays 0) and
WTMO take the value; LTIMER arms the core's local timer. -/
def Sys2Proof.Says.MoveToSpecial : Prop :=
  ∀ (s : State) (t : Tid) (ra : RegNo), Ready s t → Elastic s t → (s.thr t.toNat).priv = true →
    let th := s.thr t.toNat
    let v := th.get ra
    (∃ s', exec (.mtsr t 1 ra) s = .next s' ∧ Quiet s s' t ∧ (s'.thr t.toNat).regs = th.regs ∧
      (s'.thr t.toNat).pc = th.pc + 4 ∧
      (s'.thr t.toNat).st = bitsSet (bitsSet th.st 1 3 (v.toNat / 2 % 8)) 4 4 (v.toNat / 16 % 16)) ∧
    exec (.mtsr t 2 ra) s = .next (worded s t (after { th with held := v.setWidth 16 } (th.pc + 4))) ∧
    exec (.mtsr t 3 ra) s = .next (worded s t (after
      { th with vbase := BitVec.ofNat 32 (v.toNat % 2 ^ 32 / 256 * 256) } (th.pc + 4))) ∧
    exec (.mtsr t 4 ra) s = .next (worded s t (after { th with wtmo := v.setWidth 32 } (th.pc + 4))) ∧
    ∃ s', exec (.mtsr t 7 ra) s = .next s' ∧ s'.thr t.toNat = after th (th.pc + 4) ∧ s'.mem = s.mem ∧ s'.regs = s.regs ∧
      (s'.core (t.toNat / 4)).ltimer =
        if v.toNat % 2 ^ 48 = 0 then none else some (s.now + v.toNat % 2 ^ 48)

/-- MFSR and MTSR of an Elastic thread. -/
def Obligations.SpecialRegisters : Prop := MoveFromSpecial ∧ MoveToSpecial


/-! ### Waiting, fences, exceptions -/

/-- WAIT and WAITE of an Elastic thread that no interrupt is offered to: the thread waits, at the next word; WAITE's time-out
runs from now. -/
def Sys2Proof.Says.WaitsWithoutInterrupt : Prop :=
  ∀ (s : State) (t : Tid), Ready s t → Elastic s t →
    (s.modThr t.toNat (fun th => { th with spin := none })).bestOffer t.toNat = none →
    ∀ timed i, (timed = false ∧ i = Instr.wait t) ∨ (timed = true ∧ i = Instr.waite t) →
    ∃ s', exec i s = .next s' ∧ Quiet s s' t ∧ Holds s s' t (s.thr t.toNat) ((s.thr t.toNat).pc + 4) ∧
      (s'.thr t.toNat).tstate = .wait ∧ (s'.thr t.toNat).waitAt = some (s.now, timed) ∧ (s'.thr t.toNat).spin = none

/-- FENCE completes once every earlier SEND of the thread has been read, and waits until then; IFENCE invalidates the core's
instruction cache, empties the thread's fetch queue and disengages the core's loop buffer. Neither changes a register or
memory. -/
def Sys2Proof.Says.FencesOrder : Prop :=
  ∀ (s : State) (t : Tid), Ready s t → Elastic s t →
    (s.sendsPending t.toNat = false →
      exec (.fence t) s = .next (worded s t (after (s.thr t.toNat) ((s.thr t.toNat).pc + 4)))) ∧
    (s.sendsPending t.toNat = true → exec (.fence t) s = .next s) ∧
    ∃ s', exec (.ifence t) s = .next s' ∧ s'.mem = s.mem ∧ s'.regs = s.regs ∧ (s'.core (t.toNat / 4)).lb = none ∧
      (s'.cacheOf (t.toNat / 4)).ilines = [] ∧
      s'.thr t.toNat = after { s.thr t.toNat with fetchQ := [] } ((s.thr t.toNat).pc + 4)

/-- WAIT, WAITE, FENCE and IFENCE. -/
def Obligations.WaitsAndFences : Prop := WaitsWithoutInterrupt ∧ FencesOrder


/-- TRAP raises Trap (vector 15), and its frame names the following word; EXCEPTION_ENTRY raises the exception it is given,
and its frame names the word at PC. The entry stores the frame, reads the vector, and changes the registers that R132
names and no other. CO_XCAUSE records the vector. -/
def Sys2Proof.Says.ExceptionEntries : Prop :=
  ∀ (s : State) (t : Tid), Ready s t →
    (∀ code, EntryOk s t 15 → ∃ s', exec (.trap t code) s = .next s' ∧ Entered s s' t 15 ((s.thr t.toNat).pc + 4) ∧
      (s'.thr t.toNat).st = stAfterEntry (s.thr t.toNat).st ∧ s'.reg (Reg.CO_XCAUSE + thOff t.toNat) = 15) ∧
    (∀ x : Raise, 1 ≤ x.vector.toNat → x.vector.toNat ≤ 14 → EntryOk s t x.vector.toNat →
      ∃ s', exec (.exceptionEntry t (.raised x)) s = .next s' ∧
        Entered s s' t x.vector.toNat (s.thr t.toNat).pc ∧ (s'.thr t.toNat).st = stAfterEntry (s.thr t.toNat).st ∧
        bitsGet (s'.reg (Reg.CO_XCAUSE + thOff t.toNat)) 0 6 = x.vector.toNat)

/-- A failed entry halts the thread: no register changes, CO_XCAUSE keeps the vector with ENTRY at 1. -/
def Sys2Proof.Says.FailedEntryHalts : Prop :=
  ∀ (s : State) (t : Tid) (code : BitVec 14), Ready s t → Elastic s t → Clean s →
    dRegion ((s.thr t.toNat).sp - 64).toNat = .unmapped →
    (∀ i, i < 8 → dRegion (((s.thr t.toNat).sp - 64).toNat + i) = .unmapped) → s.interruptFirst t.toNat = false →
    ∃ s', exec (.trap t code) s = .next s' ∧ (s'.thr t.toNat).tstate = .halted ∧
      (s'.thr t.toNat).regs = (s.thr t.toNat).regs ∧ (s'.thr t.toNat).pc = (s.thr t.toNat).pc ∧
      (s'.thr t.toNat).st = (s.thr t.toNat).st ∧ s'.mem = s.mem ∧
      bitsGet (s'.reg (Reg.CO_XCAUSE + thOff t.toNat)) 0 6 = 15 ∧ bitsGet (s'.reg (Reg.CO_XCAUSE + thOff t.toNat)) 7 1 = 1

/-- Words that raise an exception and write no result: a misaligned BR or BLR target (Alignment), a special register that
the table does not list (Illegal), a write of VBASE or HELD without privilege (Privilege), an addressing mode that R64
makes Illegal, and a lock word at an address that is not a multiple of 8. -/
def Sys2Proof.Says.RaisingWords : Prop :=
  ∀ (s : State) (t : Tid) (rd ra : RegNo), Ready s t →
    let th := s.thr t.toNat
    let raises (i : Instr) (v : Nat) : Prop :=
      EntryOk s t v → ∃ s', exec i s = .next s' ∧ Entered s s' t v th.pc ∧ (s'.thr t.toNat).st = stAfterEntry th.st ∧
        bitsGet (s'.reg (Reg.CO_XCAUSE + thOff t.toNat)) 0 6 = v
    ((th.get ra).toNat % 4 ≠ 0 → raises (.br t ra) 6 ∧ raises (.blr t ra) 6) ∧
    (∀ n : BitVec 5, 8 ≤ n.toNat → raises (.mfsr t rd n) 1 ∧ raises (.mtsr t n ra) 1) ∧
    (th.priv = false → raises (.mtsr t 2 ra) 3 ∧ raises (.mtsr t 3 ra) 3) ∧
    (∀ m d, memOperand th (some rd) ra m d = none → raises (.ldd t rd ra m d) 1) ∧
    (∀ m d, memOperand th none ra m d = none → raises (.std t rd ra m d) 1) ∧
    (∀ rank, (th.get ra).toNat % 8 ≠ 0 → raises (.rels t ra rank) 6)

/-- Exception entry: what it saves and changes, when it fails, and the words that raise one and write no result. -/
def Obligations.Exceptions : Prop := ExceptionEntries ∧ FailedEntryHalts ∧ RaisingWords


/-- ERET of a privileged Elastic thread from a frame in the own data SRAM that no micro-routine was interrupted in: PC, lk
and g1 to g5 from the frame, sp raised by 64, and ST from the frame but for MODE, which stays. -/
def Obligations.ReturnFromHandler : Prop :=
  ∀ (s : State) (t : Tid), Ready s t → Elastic s t → Clean s → (s.thr t.toNat).priv = true →
    let th := s.thr t.toNat
    let f := dsramBase (t.toNat / 4) + th.sp.toNat
    let word (k : Nat) : Word := BitVec.ofNat 64 (leNat (s.bytes (f + 8 * k) 8))
    let st : Word32 := BitVec.ofNat 32 (leNat (s.bytes (f + 8) 4))
    th.sp.toNat + 64 ≤ 0x8000 → bitsGet st 8 1 = 0 →
    ∃ s', exec (.eret t) s = .next s' ∧ s'.mem = s.mem ∧
      (s'.thr t.toNat).pc = BitVec.ofNat 32 (leNat (s.bytes f 4)) ∧
      (s'.thr t.toNat).regs =
        ((((((th.set 31 (word 2)).set 1 (word 3)).set 2 (word 4)).set 3 (word 5)).set 4 (word 6)).set 5 (word 7)
          |>.set 30 (th.sp + 64)).regs ∧
      (s'.thr t.toNat).st = bitsSet (st &&& 0x00FFF1FF#32) 0 1 0

/-! ### Micro-routines -/

/-- CALLM with every step in one command (no interrupt is deliverable where the command asks for more than one), its frame in the own data SRAM: the frame holds the mask, lk and the masked
registers in ascending order; sp is lowered by the frame's size; lk is the following word; PC is ra as it was. -/
def Sys2Proof.Says.CallWithMask : Prop :=
  ∀ (s : State) (t : Tid) (ra : RegNo) (mask : BitVec 16) (steps : Nat), Ready s t → Elastic s t → Clean s →
    s.hooked (t.toNat / 32) = false →
    let th := s.thr t.toNat
    let rs := maskRegs mask
    let f := th.sp - BitVec.ofNat 64 (16 + 8 * rs.length)
    let p := dsramBase (t.toNat / 4) + f.toNat
    rs.length + 4 ≤ s.stepsNow t.toNat steps → f.toNat + (16 + 8 * rs.length) ≤ 0x8000 → ((th.get ra).toNat % 2 ^ 32) % 4 = 0 →
    ∃ s', exec (.callm t ra mask steps) s = .next s' ∧
      (s.memCanonical → s'.bytes p (16 + 8 * rs.length) =
        leBytes 8 mask.toNat ++ leBytes 8 (th.get 31).toNat ++ rs.flatMap (fun r => leBytes 8 (th.get r).toNat)) ∧
      (∀ x, x < p ∨ p + (16 + 8 * rs.length) ≤ x → s'.byte x = s.byte x) ∧
      (s'.thr t.toNat).regs = ((th.set 30 f).set 31 (BitVec.ofNat 64 (th.pc + 4).toNat)).regs ∧
      (s'.thr t.toNat).pc = (th.get ra).setWidth 32 ∧ (s'.thr t.toNat).resume = none

/-- RETM with every step in one command, its frame in the own data SRAM: the masked registers in ascending order and lk from
the frame, sp above it, PC from lk as it was. -/
def Sys2Proof.Says.ReturnWithMask : Prop :=
  ∀ (s : State) (t : Tid) (mask : BitVec 16) (steps : Nat), Ready s t → Elastic s t → Clean s →
    s.hooked (t.toNat / 32) = false →
    let th := s.thr t.toNat
    let rs := maskRegs mask
    let p := dsramBase (t.toNat / 4) + th.sp.toNat
    rs.length + 1 ≤ s.stepsNow t.toNat steps → th.sp.toNat + (16 + 8 * rs.length) ≤ 0x8000 →
    ∃ s', exec (.retm t mask steps) s = .next s' ∧ s'.mem = s.mem ∧ (s'.thr t.toNat).pc = th.lk.setWidth 32 ∧
      (s'.thr t.toNat).resume = none ∧
      (s'.thr t.toNat).get 30 = th.sp + BitVec.ofNat 64 (16 + 8 * rs.length) ∧
      (s'.thr t.toNat).get 31 = BitVec.ofNat 64 (leNat (s.bytes (p + 8) 8)) ∧
      (∀ k r, rs[k]? = some r → (s'.thr t.toNat).get r = BitVec.ofNat 64 (leNat (s.bytes (p + 16 + 8 * k) 8))) ∧
      ∀ r, r ∉ rs → r ≠ 30 → r ≠ 31 → (s'.thr t.toNat).get r = th.get r

/-- CALLM and RETM with every step in one command. -/
def Obligations.MaskedCalls : Prop := CallWithMask ∧ ReturnWithMask


/-- MOVB and FILLB of at most 64 bytes in the own data SRAM, between areas that do not overlap: the bytes arrive in order,
no other byte changes, the address registers have moved past them and the count is 0. -/
def Obligations.BlockMovesInOneStep : Prop :=
  ∀ (s : State) (t : Tid) (rd ra rb : RegNo) (steps : Nat), Ready s t → Elastic s t → Clean s →
    s.hooked (t.toNat / 32) = false → rd ≠ 0 → ra ≠ 0 → rb ≠ 0 → rd ≠ ra → rb ≠ rd → rb ≠ ra →
    let th := s.thr t.toNat
    let n := (th.get rb).toNat
    let d := (th.get rd).toNat
    let a := (th.get ra).toNat
    let base := dsramBase (t.toNat / 4)
    0 < n → n ≤ 64 → d + n ≤ 0x8000 →
    (a + n ≤ 0x8000 → (a + n ≤ d ∨ d + n ≤ a) →
      ∃ s', exec (.movb t rd ra rb steps) s = .next s' ∧
        (s.memCanonical → s'.bytes (base + d) n = s.bytes (base + a) n) ∧
        (∀ x, x < base + d ∨ base + d + n ≤ x → s'.byte x = s.byte x) ∧
        (s'.thr t.toNat).regs = (((th.set rd (th.get rd + th.get rb)).set ra (th.get ra + th.get rb)).set rb 0).regs ∧
        (s'.thr t.toNat).pc = th.pc + 4) ∧
    ∃ s', exec (.fillb t rd ra rb steps) s = .next s' ∧
      (s.memCanonical → s'.bytes (base + d) n = List.replicate n ((th.get ra).setWidth 8)) ∧
      (∀ x, x < base + d ∨ base + d + n ≤ x → s'.byte x = s.byte x) ∧
      (s'.thr t.toNat).regs = ((th.set rd (th.get rd + th.get rb)).set rb 0).regs ∧
      (s'.thr t.toNat).pc = th.pc + 4

/-! ### Messages -/

/-- MBRD of an Elastic thread to an aligned block of 32 bytes in its own data SRAM: the oldest header goes there and becomes
the current message, rd is 0; with a current message rd is 2, with an empty mailbox 1, and nothing is written. -/
def Sys2Proof.Says.MailboxReads : Prop :=
  ∀ (s : State) (t : Tid) (rd ra : RegNo), Ready s t → Elastic s t → Clean s →
    let th := s.thr t.toNat
    let a := (th.get ra).toNat
    let p := dsramBase (t.toNat / 4) + a
    a % 8 = 0 → a + 32 ≤ 0x8000 →
    (∀ h r, th.cur = none → th.mailbox = h :: r →
      ∃ s', exec (.mbrd t rd ra) s = .next s' ∧ (s.memCanonical → s'.bytes p 32 = h.bytes) ∧
        (∀ x, x < p ∨ p + 32 ≤ x → s'.byte x = s.byte x) ∧
        (s'.thr t.toNat).cur = some h ∧ (s'.thr t.toNat).mailbox = r ∧ (s'.thr t.toNat).regs = (th.set rd 0).regs ∧
        (s'.thr t.toNat).pc = th.pc + 4) ∧
    (th.cur = none → th.mailbox = [] →
      exec (.mbrd t rd ra) s = .next (worded s t (after (th.set rd 1) (th.pc + 4)))) ∧
    (th.cur.isSome = true → exec (.mbrd t rd ra) s = .next (worded s t (after (th.set rd 2) (th.pc + 4))))

/-- SEND of an Elastic thread from a source that one readable place holds: 3 for a length out of range, 2 for a port out of
service, 1 for a full queue; else the frame joins the end of its port and class's queue and rd is 0. -/
def Sys2Proof.Says.SendsQueueFrames : Prop :=
  ∀ (s : State) (t : Tid) (rd ra rb : RegNo) (port : PortId) (cls : BitVec 2), Ready s t → Elastic s t →
    let th := s.thr t.toNat
    let a := (th.get ra).toNat
    let n := (th.get rb).toNat
    let limit := if cls = 0 then 2048 else 9216
    let rd' (v : Word) : Host.Outcome State Fault Refusal := .next (worded s t (after (th.set rd v) (th.pc + 4)))
    sendPlace a (max n 1) = true → (placeOf s t a (min (max n 1) 9216)).isSome = true →
    (n < 14 ∨ limit < n → exec (.send t rd ra rb port cls) s = rd' 3) ∧
    (14 ≤ n → n ≤ limit → s.portInService port.toNat = false → exec (.send t rd ra rb port cls) s = rd' 2) ∧
    (14 ≤ n → n ≤ limit → s.portInService port.toNat = true → 256 ≤ s.egressUsed port.toNat cls.toNat →
      exec (.send t rd ra rb port cls) s = rd' 1) ∧
    (14 ≤ n → n ≤ limit → s.portInService port.toNat = true → s.egressUsed port.toNat cls.toNat < 256 →
      ∃ s', exec (.send t rd ra rb port cls) s = .next s' ∧ s'.mem = s.mem ∧
        s'.egressQ port.toNat cls.toNat = s.egressQ port.toNat cls.toNat ++
          [{ addr := globalAddr (t.toNat / 4) a, len := n, src := .thread t.toNat, at_ := s.now }] ∧
        (s'.thr t.toNat).regs = (th.set rd 0).regs ∧ (s'.thr t.toNat).pc = th.pc + 4)

/-- DONE of an Elastic thread whose SENDs have been read ends its current message; one with a SEND not yet read waits. -/
def Sys2Proof.Says.DoneEndsMessage : Prop :=
  ∀ (s : State) (t : Tid), Ready s t → Elastic s t →
    (s.sendsPending t.toNat = true → exec (.done t) s = .next s) ∧
    (s.sendsPending t.toNat = false →
      ∃ s', exec (.done t) s = .next s' ∧ Quiet s s' t ∧ Holds s s' t (s.thr t.toNat) ((s.thr t.toNat).pc + 4) ∧
        (s'.thr t.toNat).cur = none)

/-- MBRD, SEND and DONE of an Elastic thread. -/
def Obligations.MessageWords : Prop := MailboxReads ∧ SendsQueueFrames ∧ DoneEndsMessage


/-- Actions of a Metered thread that others could see are captured, with the value of rd and HELD as at issue: RELS, TAS of a
free lock, SC under a reservation, OUT, ISTORE; memory and every register block are unchanged. A load of bytes that the
core's own captured data write or RELS covers returns the captured bytes. -/
def Sys2Proof.Says.MeteredActionsAreCaptured : Prop :=
  ∀ (s : State) (t : Tid) (rd ra rb : RegNo) (q : Nat), Ready s t → (s.thr t.toNat).mode = true → Clean s →
    pairOf (t.toNat / 4) = some q → (s.core (pairCores q).1).doneAt = none →
    let th := s.thr t.toNat
    let a := (th.get ra).toNat
    let empty : Prop := (s.core (pairCores q).1).cbuf = [] ∧ (s.core (pairCores q).2).cbuf = []
    let captured (i : Instr) (e : CbEntry) (th' : Thread) : Prop :=
      ∃ s', exec i s = .next s' ∧ s'.mem = s.mem ∧ s'.regs = s.regs ∧ (s'.core (t.toNat / 4)).cbuf = [e] ∧
        (s'.thr t.toNat).regs = th'.regs ∧ (s'.thr t.toNat).held = th'.held ∧ (s'.thr t.toNat).pc = th.pc + 4
    (∀ (rank : BitVec 4) p, empty → a % 8 = 0 → dRegion a = .ownCl ∨ dRegion a = .session ∨ (∃ cl, dRegion a = .glob cl) →
      placeOf s t a 8 = some p →
      captured (.rels t ra rank) ⟨2, 0xFF, BitVec.ofNat 48 a, 0, rank.setWidth 16⟩
        { th with held := th.held &&& ~~~ (1#16 <<< rank.toNat) } ∧
      (s.hooked (t.toNat / 32) = false → th.rankchk = false → leNat (s.bytes p 8) = 0 →
        captured (.tas t rd ra rank) ⟨1, 0xFF, BitVec.ofNat 48 a, BitVec.ofNat 64 (t.toNat + 1), rank.setWidth 16⟩
          { th.set rd 0 with held := th.held ||| (1#16 <<< rank.toNat) }) ∧
      ((t.toNat, resGranule p) ∈ s.resvs →
        captured (.sc t rd ra rb) ⟨3, 0xFF, BitVec.ofNat 48 a, th.get rb, 0⟩ (th.set rd 0))) ∧
    (∀ (imm : BitVec 14) (d : RegDesc) k b, empty → reaches s t (ioSumOf th ra imm) d k b →
      (stewardOnly d.base = true → th.priv = true) → ioSumOf th ra imm % 4 = 0 →
      captured (.out t rb ra imm)
        ⟨4, 0x0F, BitVec.ofNat 48 (ioSumOf th ra imm), (th.get rb).setWidth 32 |>.setWidth 64, 0⟩ th) ∧
    (∀ (imm : BitVec 14), empty → let i := (th.get ra + imm.signExtend 64).toNat % 2 ^ 32
      i % 4 = 0 → i < 0x8000 →
      captured (.istore t rb ra imm) ⟨5, 0x0F, BitVec.ofNat 48 i, (th.get rb).setWidth 32 |>.setWidth 64, 0⟩ th) ∧
    ∀ m d ea wb p kind mask v aux, memOperand th (some rd) ra m d = some (ea, wb) → granule ea.toNat = ea.toNat →
      dRegion ea.toNat = .ownCl ∨ dRegion ea.toNat = .session → placeOf s t ea.toNat 8 = some p →
      (s.core (t.toNat / 4)).cbuf = [⟨kind, mask, ea.setWidth 48, v, aux⟩] → mask = 0xFF →
      (∀ c, c = (pairCores q).1 ∨ c = (pairCores q).2 → c ≠ t.toNat / 4 → (s.core c).cbuf = []) →
      ∃ s', exec (.ldd t rd ra m d) s = .next s' ∧ s'.mem = s.mem ∧
        (s'.thr t.toNat).regs = (withBase (th.set rd (if kind = 0 ∨ kind = 2 then v
          else BitVec.ofNat 64 (leNat (s.bytes p 8)))) ra wb).regs ∧ (s'.thr t.toNat).pc = th.pc + 4

/-- What a Metered thread's words capture, and loads of captured bytes. -/
def Obligations.MeteredCaptures : Prop := MeteredStoresAreCaptured ∧ MeteredActionsAreCaptured


namespace Sys2Proof.Says

open Sys2Proof.Machine

/-- `s'` is `s` after an operation of thread `t` whose outputs lie in the areas `ws` (place, length): no byte outside them has
changed; rd holds `v`; PC is the next word; other threads, the I/O registers and the Timebase are as they were. -/
def Operated (s s' : State) (t : Tid) (rd : RegNo) (v : Word) (ws : List (Nat × Nat)) : Prop :=
  (∀ x, (∀ w ∈ ws, x < w.1 ∨ w.1 + w.2 ≤ x) → s'.byte x = s.byte x) ∧
  s'.regs = s.regs ∧ s'.tb = s.tb ∧ s'.pending = s.pending ∧ (∀ r ∈ s'.resvs, r ∈ s.resvs) ∧
  (∀ u, u ≠ t.toNat → s'.thr u = s.thr u) ∧
  s'.thr t.toNat = after ((s.thr t.toNat).set rd v) ((s.thr t.toNat).pc + 4)

/-- An operation that writes rd alone. -/
def answers (s : State) (t : Tid) (rd : RegNo) (v : Word) : Host.Outcome State Fault Refusal :=
  .next (worded s t (after ((s.thr t.toNat).set rd v) ((s.thr t.toNat).pc + 4)))

/-- Two areas have no byte in common. -/
def apart (p m q n : Nat) : Prop := p + m ≤ q ∨ q + n ≤ p

/-- The AES context at a place in memory (03 R101). -/
def ctxAt (s : State) (p : Nat) : AesCtx := ⟨s.bytes p 512⟩

/-- A packed number: valid, and worth `x`, with the sign that the unit writes (03 R108). -/
def packs (v : Word) (x : Int) : Prop :=
  pkValid v = true ∧ pkVal v = x ∧ pkSign v = if x < 0 then 0xD else 0xC

end Sys2Proof.Says

/-! ### The near Annex -/

/-- The decimal words: a sum, difference or product of valid operands within fifteen digits is written packed; any other
result, and any invalid operand, gives all ones. DCMP compares, DCHK names the first invalid digit; P2B and B2P convert. -/
def Sys2Proof.Says.DecimalWords : Prop :=
  ∀ (s : State) (t : Tid) (rd ra rb : RegNo), Ready s t → annexFree s t → Elastic s t →
    let a := (s.thr t.toNat).get ra
    let b := (s.thr t.toNat).get rb
    let sum (i : Instr) (x : Int) : Prop :=
      ∃ v, exec i s = answers s t rd v ∧
        (pkValid a = true → pkValid b = true → x.natAbs ≤ 999999999999999 → packs v x) ∧
        (pkValid a = false ∨ pkValid b = false ∨ 999999999999999 < x.natAbs → v = BitVec.allOnes 64)
    sum (.dadd t rd ra rb) (pkVal a + pkVal b) ∧ sum (.dsub t rd ra rb) (pkVal a - pkVal b) ∧
    sum (.dmul t rd ra rb) (pkVal a * pkVal b) ∧
    exec (.dcmp t rd ra rb) s = answers s t rd
      (if pkValid a = false ∨ pkValid b = false then 2 else if pkVal a < pkVal b then BitVec.allOnes 64
        else if pkVal a = pkVal b then 0 else 1) ∧
    (∃ n : Nat, exec (.dchk t rd ra) s = answers s t rd (BitVec.ofNat 64 n) ∧ n ≤ 16 ∧
      (n = 0 ↔ (∀ k, k < 15 → pkDigit a k ≤ 9) ∧ 10 ≤ pkSign a) ∧
      (1 ≤ n → n ≤ 15 → 9 < pkDigit a (n - 1) ∧ ∀ k, k < n - 1 → pkDigit a k ≤ 9) ∧
      (n = 16 → (∀ k, k < 15 → pkDigit a k ≤ 9) ∧ pkSign a < 10)) ∧
    exec (.p2b t rd ra) s = answers s t rd
      (if pkValid a then BitVec.ofInt 64 (pkVal a) else 0x8000000000000000#64) ∧
    (∃ v, exec (.b2p t rd ra) s = answers s t rd v ∧
      (a.toInt.natAbs ≤ 999999999999999 → packs v a.toInt) ∧
      (999999999999999 < a.toInt.natAbs → v = BitVec.allOnes 64))

/-- A2P and E2P pack 1 to 15 digits, P2A and P2E write a packed number's digits without leading zeros; an invalid packed
operand writes nothing and returns −1. -/
def Sys2Proof.Says.DigitConversions : Prop :=
  ∀ (s : State) (t : Tid) (rd ra rb : RegNo), Ready s t → annexFree s t → Elastic s t → Clean s →
    let a := (s.thr t.toNat).get ra
    let b := (s.thr t.toNat).get rb
    (∀ p, 1 ≤ b.toNat → b.toNat ≤ 15 → placeOf s t a.toNat b.toNat = some p →
      exec (.a2p t rd ra rb) s = answers s t rd (ascToPk (s.bytes p b.toNat)) ∧
      exec (.e2p t rd ra rb) s = answers s t rd (ebcToPk (s.bytes p b.toNat))) ∧
    (∀ p, pkValid a = true → placeOf s t b.toNat 16 = some p →
      (∃ s' n, exec (.p2a t rd ra rb) s = .next s' ∧ Operated s s' t rd (BitVec.ofNat 64 n) [(p, n)] ∧
        n = (pkToAsc a).length ∧ (s.memCanonical → s'.bytes p n = pkToAsc a)) ∧
      (∃ s' n, exec (.p2e t rd ra rb) s = .next s' ∧ Operated s s' t rd (BitVec.ofNat 64 n) [(p, n)] ∧
        n = (pkToEbc a).length ∧ (s.memCanonical → s'.bytes p n = pkToEbc a))) ∧
    (pkValid a = false → exec (.p2a t rd ra rb) s = answers s t rd (BitVec.allOnes 64) ∧
      exec (.p2e t rd ra rb) s = answers s t rd (BitVec.allOnes 64))

/-- The decimal words and the conversions between packed numbers and digits in memory. -/
def Obligations.DecimalAndDigits : Prop := DecimalWords ∧ DigitConversions


/-- CRC32C continues the CRC in rd over the bytes; CSUM adds the network-order 16-bit words into rd's low 16 bits with
end-around carry; CSFOLD folds ra's four 16-bit parts and complements. A length of 0 leaves rd as it was. -/
def Sys2Proof.Says.ChecksumWords : Prop :=
  ∀ (s : State) (t : Tid) (rd ra rb : RegNo) (p : Nat), Ready s t → annexFree s t → Elastic s t → Clean s →
    let th := s.thr t.toNat
    let n := (th.get rb).toNat
    let d := (th.get rd).toNat
    (0 < n → n ≤ 16384 → placeOf s t (th.get ra).toNat n = some p →
      exec (.crc32c t rd ra rb) s = answers s t rd ((crc32c ((th.get rd).setWidth 32) (s.bytes p n)).setWidth 64) ∧
      ∃ v : Nat, exec (.csum t rd ra rb) s = answers s t rd (BitVec.ofNat 64 v) ∧ v < 65536 ∧
        v % 65535 = (d % 65536 + sumWords (s.bytes p n)) % 65535 ∧ (v = 0 ↔ d % 65536 + sumWords (s.bytes p n) = 0)) ∧
    (n = 0 → exec (.crc32c t rd ra rb) s = .next (worded s t (after th (th.pc + 4))) ∧
      exec (.csum t rd ra rb) s = .next (worded s t (after th (th.pc + 4)))) ∧
    ∃ v : Nat, exec (.csfold t rd ra) s = answers s t rd (BitVec.ofNat 64 (65535 - v)) ∧ v < 65536 ∧
      v % 65535 = (th.get ra).toNat % 65535 ∧ (v = 0 ↔ th.get ra = 0)

/-- AKEY128 and AKEY256 build a context: the key's schedule, the hash subkey E(0), the CMAC subkeys, counts and accumulators
of 0; PARTLEN, J0 and the counter block keep their bytes. -/
def Sys2Proof.Says.KeyContexts : Prop :=
  ∀ (s : State) (t : Tid) (rd ra rb : RegNo) (p q n : Nat) (i : Instr), Ready s t → annexFree s t → Elastic s t → Clean s →
    s.memCanonical →
    (n = 16 ∧ i = .akey128 t rd ra rb) ∨ (n = 32 ∧ i = .akey256 t rd ra rb) →
    ((s.thr t.toNat).get ra).toNat % 8 = 0 → placeOf s t ((s.thr t.toNat).get ra).toNat 512 = some p →
    placeOf s t ((s.thr t.toNat).get rb).toNat n = some q →
    let ks := aesSchedule (s.bytes q n)
    let h := aesEncrypt (n / 4 + 6) ks (List.replicate 16 0)
    ∃ s', exec i s = .next s' ∧ Operated s s' t rd 0 [(p, 512)] ∧
      let c := ctxAt s' p
      c.valid = true ∧ c.rounds = n / 4 + 6 ∧ c.sched.take ks.length = ks ∧ c.hkey = blkOf h ∧
      c.aad = 0 ∧ c.text = 0 ∧ c.acc = 0 ∧ c.chain = 0 ∧ c.k1 = dblBlk (blkOf h) ∧ c.k2 = dblBlk (dblBlk (blkOf h)) ∧
      c.part = (ctxAt s p).part ∧ c.j0 = (ctxAt s p).j0 ∧ c.ctr = (ctxAt s p).ctr

/-- GCMENC and GCMDEC combine a block with the encrypted counter, which has stepped, and absorb the ciphertext; GHASH
absorbs additional data; CMAC chains a block. The counts move by the block's length. The context's other parts stay. -/
def Sys2Proof.Says.ContextBlocks : Prop :=
  ∀ (s : State) (t : Tid) (rd ra rb : RegNo) (p q : Nat), Ready s t → annexFree s t → Elastic s t → Clean s → s.memCanonical →
    let c := ctxAt s p
    let n := c.blockLen
    ((s.thr t.toNat).get ra).toNat % 8 = 0 → placeOf s t ((s.thr t.toNat).get ra).toNat 512 = some p →
    placeOf s t ((s.thr t.toNat).get rb).toNat 16 = some q → apart p 512 q 16 → c.valid = true →
    (∀ dec : Bool, c.text % 16 = 0 → (c.text + 15) / 16 < 2 ^ 32 - 2 →
      let ctr := inc32 (if c.text = 0 then c.j0 else c.ctr)
      let out := xorBytes (s.bytes q n) (blkBytes (c.enc ctr))
      ∃ s', exec (if dec then .gcmdec t rd ra rb else .gcmenc t rd ra rb) s = .next s' ∧
        Operated s s' t rd 0 [(p + 0x190, 8), (p + 0x1B0, 32), (q, n)] ∧ s'.bytes q n = out ∧
        (ctxAt s' p).text = c.text + n ∧ (ctxAt s' p).ctr = ctr ∧
        (ctxAt s' p).acc = ghashMul (c.acc ^^^ blkOf (padZero (if dec then s.bytes q n else out))) c.hkey) ∧
    (c.text = 0 → c.aad % 16 = 0 →
      ∃ s', exec (.ghash t rd ra rb) s = .next s' ∧ Operated s s' t rd 0 [(p + 0x188, 8), (p + 0x1C0, 16)] ∧
        (ctxAt s' p).aad = (c.aad + n) % 2 ^ 64 ∧
        (ctxAt s' p).acc = ghashMul (c.acc ^^^ blkOf (padZero (s.bytes q n))) c.hkey) ∧
    (c.text % 16 = 0 → c.aad % 16 = 0 →
      ∃ s', exec (.cmac t rd ra rb) s = .next s' ∧ Operated s s' t rd 0 [(p + 0x1D0, 16)] ∧
        (ctxAt s' p).chain = c.enc (c.chain ^^^ blkOf (s.bytes q 16)))

/-- GCMTAG writes the tag: the accumulator with the lengths absorbed, combined with E(J0). CMACEND writes the tag over the
last block: a full one with subkey K1, a partial or empty one padded, with K2. An invalid context answers 1. -/
def Sys2Proof.Says.ContextTags : Prop :=
  ∀ (s : State) (t : Tid) (rd ra rb : RegNo) (p q : Nat), Ready s t → annexFree s t → Elastic s t → Clean s → s.memCanonical →
    let c := ctxAt s p
    let n := if c.part = 0xFF then 0 else c.blockLen
    ((s.thr t.toNat).get ra).toNat % 8 = 0 → placeOf s t ((s.thr t.toNat).get ra).toNat 512 = some p →
    placeOf s t ((s.thr t.toNat).get rb).toNat 16 = some q →
    (c.valid = true →
      (∃ s', exec (.gcmtag t rd ra rb) s = .next s' ∧ Operated s s' t rd 0 [(q, 16)] ∧
        s'.bytes q 16 = blkBytes (ghashMul
          (c.acc ^^^ blkOf (beBytes 8 (8 * c.aad) ++ beBytes 8 (8 * c.text))) c.hkey ^^^ c.enc c.j0)) ∧
      (∃ s', exec (.cmacend t rd ra rb) s = .next s' ∧ Operated s s' t rd 0 [(q, 16)] ∧
        s'.bytes q 16 = blkBytes (c.enc (c.chain ^^^
          (if n = 16 then blkOf (s.bytes q 16) ^^^ c.k1 else blkOf (padOne (s.bytes q n)) ^^^ c.k2)))) ) ∧
    (c.valid = false → ∀ i, i = Instr.gcmtag t rd ra rb ∨ i = .cmacend t rd ra rb ∨ i = .gcmenc t rd ra rb ∨
      i = .gcmdec t rd ra rb ∨ i = .ghash t rd ra rb ∨ i = .cmac t rd ra rb → exec i s = answers s t rd 1)

/-- The words that build, use and close an AES context. -/
def Obligations.CipherWords : Prop := KeyContexts ∧ ContextBlocks ∧ ContextTags


/-- The SHA words: INIT writes the initial hash value, a count of 0 and the marker; BLK hashes one block into a marked state;
END writes the digest and unmarks the state. -/
def Sys2Proof.Says.HashWords : Prop :=
  ∀ (s : State) (t : Tid) (rd ra rb : RegNo) (p q : Nat), Ready s t → annexFree s t → Elastic s t → Clean s → s.memCanonical →
    let a := ((s.thr t.toNat).get ra).toNat
    let b := ((s.thr t.toNat).get rb).toNat
    a % 8 = 0 →
    (placeOf s t a 64 = some p →
      (∃ s', exec (.s256init t rd ra) s = .next s' ∧ Operated s s' t rd 0 [(p, 64)] ∧
        shaValid (s'.bytes p 64) false = true ∧ leWords 32 4 8 (s'.bytes p 64) = sha256Init ∧
        leNat (s'.bytes (p + 0x20) 8) = 0) ∧
      (shaValid (s.bytes p 64) false = true →
        (placeOf s t b 64 = some q →
          ∃ s', exec (.s256blk t rd ra rb) s = .next s' ∧ Operated s s' t rd 0 [(p, 40)] ∧
            leWords 32 4 8 (s'.bytes p 64) = sha256Block (leWords 32 4 8 (s.bytes p 64)) (beWords 32 4 16 (s.bytes q 64)) ∧
            leNat (s'.bytes (p + 0x20) 8) = (leNat (s.bytes (p + 0x20) 8) + 1) % 2 ^ 64) ∧
        (placeOf s t b 32 = some q → apart p 64 q 32 →
          ∃ s', exec (.s256end t rd ra rb) s = .next s' ∧ Operated s s' t rd 0 [(p + 56, 8), (q, 32)] ∧
            s'.bytes q 32 = (leWords 32 4 8 (s.bytes p 64)).flatMap (fun w => beBytes 4 w.toNat) ∧
            shaValid (s'.bytes p 64) false = false))) ∧
    (placeOf s t a 96 = some p →
      (∃ s', exec (.s384init t rd ra) s = .next s' ∧ Operated s s' t rd 0 [(p, 96)] ∧
        shaValid (s'.bytes p 96) true = true ∧ leWords 64 8 8 (s'.bytes p 96) = sha384Init ∧
        leNat (s'.bytes (p + 0x40) 8) = 0) ∧
      (shaValid (s.bytes p 96) true = true →
        (placeOf s t b 128 = some q →
          ∃ s', exec (.s384blk t rd ra rb) s = .next s' ∧ Operated s s' t rd 0 [(p, 72)] ∧
            leWords 64 8 8 (s'.bytes p 96) = sha384Block (leWords 64 8 8 (s.bytes p 96)) (beWords 64 8 16 (s.bytes q 128)) ∧
            leNat (s'.bytes (p + 0x40) 8) = (leNat (s.bytes (p + 0x40) 8) + 1) % 2 ^ 64) ∧
        (placeOf s t b 48 = some q → apart p 96 q 48 →
          ∃ s', exec (.s384end t rd ra rb) s = .next s' ∧ Operated s s' t rd 0 [(p + 88, 8), (q, 48)] ∧
            s'.bytes q 48 = (leWords 64 8 6 (s.bytes p 96)).flatMap (fun w => beBytes 8 w.toNat) ∧
            shaValid (s'.bytes p 96) true = false)))

/-- CRC32C, CSUM, CSFOLD and the SHA words. -/
def Obligations.SumsAndHashes : Prop := ChecksumWords ∧ HashWords


/-- SLOOK, SINS and SDEL of an Elastic thread: the index of the entry of the key's bucket that holds the key; an insert takes
the lowest free way and answers its index with bit 16 set; a delete clears VALID alone. -/
def Obligations.SessionWords : Prop :=
  ∀ (s : State) (t : Tid) (rd ra rb : RegNo) (p n : Nat), Ready s t → annexFree s t → Elastic s t → Clean s → s.memCanonical →
    n = ((s.thr t.toNat).get rb).toNat → 1 ≤ n → n ≤ 32 →
    placeOf s t ((s.thr t.toNat).get ra).toNat n = some p → pathOpen s t [s.fabricFor t.toNat 8] = true →
    let key := s.bytes p n
    let bucket := sessionBucket key
    let free (i : Nat) : Bool := !s.sessionBad i && !(s.byte (sessionArea i)).getLsbD 0
    ((∀ i ∈ bucket, s.sessionHolds i key = false) →
      exec (.slook t rd ra rb) s = answers s t rd (BitVec.allOnes 64) ∧ exec (.sdel t rd ra rb) s = answers s t rd 1 ∧
      ((∀ i ∈ bucket, free i = false) → exec (.sins t rd ra rb) s = answers s t rd (BitVec.allOnes 64)) ∧
      ∀ (k i : Nat), bucket[k]? = some i → free i = true → (∀ (j i' : Nat), j < k → bucket[j]? = some i' → free i' = false) →
        ∃ s', exec (.sins t rd ra rb) s = .next s' ∧
          Operated s s' t rd (BitVec.ofNat 64 (i + 65536)) [(sessionArea i, 48)] ∧ s'.sessionHolds i key = true) ∧
    (∀ (k i : Nat), bucket[k]? = some i → s.sessionHolds i key = true →
      (∀ (j i' : Nat), j < k → bucket[j]? = some i' → s.sessionHolds i' key = false) →
      exec (.slook t rd ra rb) s = answers s t rd (BitVec.ofNat 64 i) ∧
      exec (.sins t rd ra rb) s = answers s t rd (BitVec.ofNat 64 i) ∧
      ∃ s', exec (.sdel t rd ra rb) s = .next s' ∧ Operated s s' t rd 0 [(sessionArea i, 1)] ∧
        s'.byte (sessionArea i) = s.byte (sessionArea i) &&& 0xFE#8)

/-! ### The far Annex -/

/-- FARX with its opcode enabled sends the request, or, in L1, starts the link's exit and holds the request for it, and waits with PC at the word; a response with its tag from the Vendor ID
in ANX_VID writes rd and lets the thread go on; any other counts as late; after the time-out the thread takes the
Annex time-out exception at the word. Without the enable FARX raises Annex unavailable. -/
def Obligations.FarAnnex : Prop :=
  ∀ (s : State) (t : Tid) (op : BitVec 3) (rd ra rb : RegNo) (fn : BitVec 9),
    let th := s.thr t.toNat
    (Ready s t → Elastic s t → s.farOk op = true → s.linkState = 4 →
      ∃ s' e, exec (.farx t op rd ra rb fn) s = .next s' ∧ s'.mem = s.mem ∧ s'.emitted = s.emitted ∧
        s'.link.held = s.link.held ++ [e] ∧ s'.link.exitAt = some (s.link.exitAt.getD s.now) ∧
        e.what = .annex (BitVec.ofNat 16 (s.get Fld.ANX_VID_VID)) (farTag t.toNat th.farSeq op fn)
          (s.farPayload (th.get ra) (th.get rb)) ∧
        (s'.thr t.toNat).tstate = .farWait ∧ (s'.thr t.toNat).pc = th.pc ∧ (s'.thr t.toNat).regs = th.regs) ∧
    (Ready s t → Elastic s t → s.farOk op = true → s.linkState = 2 → s.link.exitAt = none →
      ∃ s' e, exec (.farx t op rd ra rb fn) s = .next s' ∧ s'.mem = s.mem ∧ s'.emitted = s.emitted ++ [e] ∧
        e = .annex (BitVec.ofNat 16 (s.get Fld.ANX_VID_VID)) (farTag t.toNat th.farSeq op fn)
          (s.farPayload (th.get ra) (th.get rb)) ∧
        (s'.thr t.toNat).tstate = .farWait ∧ (s'.thr t.toNat).pc = th.pc ∧ (s'.thr t.toNat).regs = th.regs ∧
        (s'.thr t.toNat).farSeq = th.farSeq + 1 ∧
        (s'.thr t.toNat).far = some { tag := farTag t.toNat th.farSeq op fn, rd := rd, sentAt := s.now } ∧
        s'.get Fld.ANX_CNT_REQ_COUNT = min (s.get Fld.ANX_CNT_REQ_COUNT + 1) (2 ^ 32 - 1)) ∧
    (Ready s t → Elastic s t → s.farOk op = false → EntryOk s t 8 →
      ∃ s', exec (.farx t op rd ra rb fn) s = .next s' ∧ Entered s s' t 8 th.pc) ∧
    (∀ r tag v, th.tstate = .farWait → th.far = some r → bitsGet tag 0 11 = t.toNat → bitsGet tag 11 5 = bitsGet r.tag 11 5 →
      ∃ s', exec (.farAnnexResponse (BitVec.ofNat 16 (s.get Fld.ANX_VID_VID)) tag v) s = .next s' ∧ s'.mem = s.mem ∧
        (s'.thr t.toNat).regs = (th.set r.rd v).regs ∧ (s'.thr t.toNat).pc = th.pc + 4 ∧
        (s'.thr t.toNat).tstate = .ready ∧ (s'.thr t.toNat).far = none) ∧
    (∀ vid tag v, bitsGet tag 0 11 = t.toNat → th.tstate ≠ .farWait ∨ vid.toNat ≠ s.get Fld.ANX_VID_VID →
      ∃ s', exec (.farAnnexResponse vid tag v) s = .next s' ∧ s'.mem = s.mem ∧ (s'.thr t.toNat).regs = th.regs ∧
        (s'.thr t.toNat).pc = th.pc ∧ (s'.thr t.toNat).tstate = th.tstate ∧
        s'.get Fld.ANX_CNT_LATE_COUNT = min (s.get Fld.ANX_CNT_LATE_COUNT + 1) (2 ^ 32 - 1)) ∧
    (∀ r, th.tstate = .farWait → th.far = some r → r.sentAt + 1000 * max 1 (s.get Fld.ANX_TMO_US) ≤ s.now →
      EntrySpace s t 9 →
      ∃ s', exec (.annexTimeout t) s = .next s' ∧ Entered s s' t 9 th.pc ∧
        s'.get Fld.ANX_CNT_TMO_COUNT = min (s.get Fld.ANX_CNT_TMO_COUNT + 1) (2 ^ 32 - 1))

namespace Sys2Proof.Says

open Sys2Proof.Machine

/-- Requester `rq` reaches register `d` (element `k`, at the I/O address `b`) by the address `a`, and nothing holds the access:
the requester is live, the register lies on its route and is not asleep; a thread has the page, the grant of target 11 with a
core slot and, for a register that only a privileged thread writes, the privilege (02 R57, R58; 04 R153; 05 R182; 12 R391; 15 R458 to
R460). -/
def Serves (s : State) (rq : Requester) (a : Nat) (write : Bool) (d : RegDesc) (k b : Nat) : Prop :=
  s.routeLive rq = true ∧ routeOk rq a = true ∧ reach rq a = some (d, k, b) ∧ s.blockAsleep a = none ∧ a < 2 ^ 24 ∧
  ∀ t, rq = .core t → s.pageOpen t.toNat a = true ∧
    (0xFF0000 ≤ a ∨ pathOpen s t [s.fabricFor t.toNat 11] = true) ∧
    (write = true → stewardOnly d.base = true → (s.thr t.toNat).priv = true)

/-- The commands that are the write of one register: who writes, where, and which value. A command that is the write of 1 (or
of 0) to one bit gives that bit. -/
def writeOf : Instr → Option (Requester × Nat × Word32)
  | .registerWrite rq a v | .pairLoWrite rq a v | .pairHiWrite rq a v => some (rq, a.toNat, v)
  | .rst rq t v => some (rq, Reg.CO_TCTL + thOff t.toNat, v ||| 1#32)
  | .ptEn rq p v => some (rq, Reg.PT_CTL + ptOff p.toNat, v)
  | .queueStart rq q v => some (rq, Reg.HQ_CFG + hqOff q.toNat, v ||| 1#32)
  | .queueStop rq q v => some (rq, Reg.HQ_CFG + hqOff q.toNat, v &&& 0xFFFFFFFE#32)
  | .sqtail rq q i => some (rq, Reg.HQ_DB + hqOff q.toNat, BitVec.ofNat 32 i.toNat)
  | .cqhead rq q i => some (rq, Reg.HQ_DB + hqOff q.toNat, BitVec.ofNat 32 (i.toNat + 65536))
  | .sqhead rq q i => some (rq, Reg.HQ_DB + hqOff q.toNat, BitVec.ofNat 32 (i.toNat + 131072))
  | .hqPost rq q v => some (rq, Reg.HQ_POST + hqOff q.toNat, v)
  | .swset rq w v => some (rq, Reg.CR_SWSET + 4 * w.toNat, v)
  | .swclr rq w v => some (rq, Reg.CR_SWCLR + 4 * w.toNat, v)
  | .complete rq (some t) v => some (rq, Reg.CR_TCMPL + 16 * t.toNat, v)
  | .complete rq none v => some (rq, Reg.CR_MYCMPL, v)
  | .asTreq rq v => some (rq, Reg.AS_TREQ, v)
  | .tableCheck rq v => some (rq, Reg.PS_CHK, v ||| 1#32)
  | .psEn rq v | .role rq v => some (rq, Reg.PS_CTL, v)
  | .psBeat rq v => some (rq, Reg.PS_BEAT, v)
  | .psSlot rq v => some (rq, Reg.PS_SLOT, v)
  | .tyDrop rq v => some (rq, Reg.TY_DROP, v ||| 1#32)
  | .tyPush rq v => some (rq, Reg.TY_PUSH, v)
  | .tyCtl rq v => some (rq, Reg.TY_CTL, v)
  | .snap rq v => some (rq, Reg.TY_HCTL, v)
  | .tbStep rq v => some (rq, Reg.TB_STEP_LO, v)
  | .tbSet rq v => some (rq, Reg.TB_SET_LO, v)
  | .slew rq v => some (rq, Reg.TB_SLEW, v)
  | .discOk rq v => some (rq, Reg.TB_DISC, (v &&& 0xFFFFFFFD#32) ||| 1#32)
  | .discLost rq v => some (rq, Reg.TB_DISC, v ||| 2#32)
  | .commit rq v => some (rq, Reg.LG_COMMIT, v &&& 0xFFFFFEFF#32)
  | .directCommit rq v => some (rq, Reg.LG_COMMIT, v ||| 0x100#32)
  | .lgApply rq v => some (rq, Reg.LG_APPLY, v)
  | .go rq v => some (rq, Reg.LG_BOOT, v ||| 0x100#32)
  | .atPload rq v => some (rq, Reg.AT_PLOAD, v)
  | .reload rq v => some (rq, Reg.AT_CTL, (v &&& 0xFFFFFFFD#32) ||| 1#32)
  | .reloadOne rq v => some (rq, Reg.AT_CTL, v ||| 3#32)
  | .dark rq v => some (rq, Reg.LL_CMD, v ||| 1#32)
  | .wake rq v => some (rq, Reg.LL_CMD, v ||| 2#32)
  | .retry rq v => some (rq, Reg.LL_CMD, v ||| 4#32)
  | .pmbusTransaction rq v => some (rq, Reg.LL_PMCMD, v ||| 0x80000#32)
  | .rgWake rq r v => some (rq, Reg.RG_PCTL + rgOff r.toNat, v ||| 0x20000#32)
  | .retrain (some (rq, v)) => some (rq, Reg.GL_LINK_CTL, v ||| 8#32)
  | _ => none

/-- The commands that are the read of one register. -/
def readOf : Instr → Option (Requester × Nat)
  | .pairLoRead rq a | .rcRead rq a => some (rq, a.toNat)
  | .tyPop rq => some (rq, Reg.TY_POP)
  | .ptTxtsid rq p => some (rq, Reg.PT_TXTSID + ptOff p.toNat)
  | _ => none

/-- The field of a word. -/
def fieldOf (f : RegField) (w : Word32) : Nat := bitsGet w f.lo f.width

/-- What a field holds after a write of `v` over `w`: RW takes the value, but an S field of a block that runs keeps its own;
W1C clears and W1S sets where the value has a 1; RO, WO and RC keep theirs (00 R8, R11, R14). -/
def fieldAfter (stopped : Bool) (v w : Word32) (f : RegField) : Nat :=
  match f.acc with
  | .rw => if f.upd == .stopped && !stopped then fieldOf f w else fieldOf f v
  | .w1c => fieldOf f w &&& ((2 ^ f.width - 1) ^^^ fieldOf f v)
  | .w1s => fieldOf f w ||| fieldOf f v
  | _ => fieldOf f w

end Sys2Proof.Says

/-! ### The registers of the I/O space -/

/-- Every command that is the write of one register writes that register, and the device acts on it; every command that is a
read answers the word that it finds, with the effect of the read. A BAR finds all ones where no register lies, and writes
nothing there. -/
def Obligations.RegisterCommands : Prop :=
  ∀ (s : State) (c : Instr),
    (∀ rq a v d k b, writeOf c = some (rq, a, v) → Serves s rq a true d k b → s.postWaits a v = false →
      exec c s = .next (s.writeReg rq d k b v).settleOn) ∧
    (∀ rq a d k b, readOf c = some (rq, a) → Serves s rq a false d k b →
      exec c s = .next ((s.readReg rq d k b).2.emit (.reply rq a (s.readReg rq d k b).1))) ∧
    (∀ f a, readOf c = some (.pf f, a) → a < 2 ^ 24 → s.routeLive (.pf f) = true → s.blockAsleep a = none →
      routeOk (.pf f) a = false ∨ findReg a = none → exec c s = .next (s.emit (.reply (.pf f) a 0xFFFFFFFF#32))) ∧
    (∀ f a v, writeOf c = some (.pf f, a, v) → routeOk (.pf f) a = false → exec c s = .next s)

/-- A plain register after a write (every field by its access type and update category; a discarded change of an S field is
marked in LG_STS.WR_IGNORED), and any register but the two that hand out items after a read (its RC fields are cleared).
No two fields of a register share a bit. -/
def Sys2Proof.Says.RegisterFields : Prop :=
  ∀ (s : State) (rq : Requester) (a : IoAddr) (d : RegDesc) (k b : Nat),
    (∀ n d' i, findReg n = some (d', i) →
      d'.fields.Pairwise (fun f g => f.lo + f.width ≤ g.lo ∨ g.lo + g.width ≤ f.lo) ∧
      ∀ f ∈ d'.fields, f.lo + f.width ≤ 32) ∧
    (∀ v, Serves s rq a.toNat true d k b → b / 0x10000 ∈ [0x02, 0x0C, 0x0E] → s.writeDiscarded d.base b = none →
      d.base ∉ [Reg.PO_DROP_MBF, Reg.PO_DROP_DEST, Reg.PO_DROP_P] →
      let ok := s.stoppedFor d.base k v
      ∃ s', exec (.registerWrite rq a v) s = .next s' ∧ s'.mem = s.mem ∧
        (∀ f ∈ d.fields, fieldOf f (s'.reg b) = fieldAfter ok v (s.reg b) f) ∧
        (ok = false → (∃ f ∈ d.fields, f.acc = .rw ∧ f.upd = .stopped ∧ fieldOf f v ≠ fieldOf f (s.reg b)) →
          s'.get Fld.LG_STS_WR_IGNORED = 1)) ∧
    (Serves s rq a.toNat false d k b → pairLows.contains d.base = false → isPairHi b = false →
      d.base ∉ [Reg.TY_POP, Reg.PT_TXTSID, Reg.CO_SLACK] →
      ∃ s', exec (.rcRead rq a) s = .next s' ∧ s'.mem = s.mem ∧
        s'.emitted = s.emitted ++ [.reply rq a.toNat (s.view rq d k b)] ∧ (∀ n, n ≠ b → s'.reg n = s.reg n) ∧
        ∀ f ∈ d.fields, fieldOf f (s'.reg b) = if f.acc = .rc then 0 else fieldOf f (s.reg b))

/-- A 64-bit pair: a write of _HI is held; a write of _LO stores both halves together; a read of _LO keeps the upper half of
that moment for the read of _HI. -/
def Sys2Proof.Says.RegisterPairs : Prop :=
  ∀ (s : State) (rq : Requester) (a h : IoAddr) (d e : RegDesc) (i j : Nat) (lo hi : Word32),
    h.toNat = a.toNat + 4 → pairLows.contains d.base = true →
    (Serves s rq a.toNat false d i a.toNat → Serves s rq h.toNat false e j h.toNat →
      ∃ s', exec (.pairLoRead rq a) s = .next s' ∧ s'.mem = s.mem ∧
        s'.emitted = s.emitted ++ [.reply rq a.toNat (s.view rq d i a.toNat)] ∧
        ∃ s'', exec (.rcRead rq h) s' = .next s'' ∧
          s''.emitted = s'.emitted ++ [.reply rq h.toNat (s.view rq e j h.toNat)]) ∧
    (Serves s rq a.toNat true d i a.toNat → Serves s rq h.toNat true e j h.toNat →
      d.base ∈ [Reg.GL_WIN_SRC_LO, Reg.GL_WIN_DST_LO] →
      ∃ s', exec (.pairHiWrite rq h hi) s = .next s' ∧ s'.reg a.toNat = s.reg a.toNat ∧ s'.reg h.toNat = s.reg h.toNat ∧
        (Serves s' rq a.toNat true d i a.toNat →
          ∃ s'', exec (.pairLoWrite rq a lo) s' = .next s'' ∧ s''.mem = s.mem ∧
            (∀ f ∈ d.fields, fieldOf f (s''.reg a.toNat) = fieldAfter true lo (s.reg a.toNat) f) ∧
            ∀ f ∈ e.fields, fieldOf f (s''.reg h.toNat) = fieldAfter true hi (s.reg h.toNat) f))

/-- A register after a write or a read, by its fields' access types and update categories, and the 64-bit pairs. -/
def Obligations.RegisterAccess : Prop := RegisterFields ∧ RegisterPairs


/-! ### The Timebase -/

/-- STEP adds the pair's 64-bit value at one tick, SET replaces the nanoseconds and zeroes the fraction, each held while the
PLL is not locked or a wake is still to set the Timebase; SLEW starts an offset; a write of TB_DISC establishes or ends discipline. -/
def Sys2Proof.Says.TimebaseWrites : Prop :=
  ∀ (s : State) (rq : Requester) (v : Word32) (d : RegDesc) (k b : Nat),
    let step := (tblGet s.hold Reg.TB_STEP_LO).getD 0 ++ v
    let set := (tblGet s.hold Reg.TB_SET_LO).getD 0 ++ v
    let locked := s.flag Fld.TB_STS_PLLLOCK && s.tb.onEdge != .set
    (Serves s rq Reg.TB_STEP_LO true d k b → ∃ s', exec (.tbStep rq v) s = .next s' ∧ s'.mem = s.mem ∧
      s'.tb = if locked then { s.tb with now := s.tb.now + step }
        else { s.tb with heldAct := s.tb.heldAct.filter (fun a => a.1) ++ [(false, step)] }) ∧
    (Serves s rq Reg.TB_SET_LO true d k b → ∃ s', exec (.tbSet rq v) s = .next s' ∧ s'.mem = s.mem ∧
      (locked = true → s'.get Fld.TB_STS_UNSET = 0) ∧
      s'.tb = if locked then { s.tb with now := set, frac := 0 }
        else { s.tb with heldAct := s.tb.heldAct.filter (fun a => !a.1) ++ [(true, set)] }) ∧
    (Serves s rq Reg.TB_SLEW true d k b → ∃ s', exec (.slew rq v) s = .next s' ∧ s'.mem = s.mem ∧
      s'.reg Reg.TB_SLEW = v ∧ s'.tb = { s.tb with slewAcc := 0 } ∧
      s'.get Fld.TB_STS_SLEWING = if v = 0 then 0 else 1) ∧
    (Serves s rq Reg.TB_DISC true d k b →
      (∃ s', exec (.discOk rq v) s = .next s' ∧ s'.mem = s.mem ∧ s'.tb.now = s.tb.now ∧ s'.get Fld.TB_STS_LOCKED = 1 ∧
        (s.get Fld.TB_STS_LOCKED = 0 → s'.get Fld.TB_UNC_NS = 0 ∧ s'.get Fld.TB_STS_COAST = 0 ∧
          s'.get Fld.TB_STS_UNSET = 0)) ∧
      ∃ s', exec (.discLost rq v) s = .next s' ∧ s'.mem = s.mem ∧ s'.tb.now = s.tb.now ∧ s'.get Fld.TB_STS_LOCKED = 0)

/-- PPS_EDGE captures the Timebase; with MODE 1 an edge that is a first one or within the window sets TB_PPSERR and slews the
error away, and one outside it is counted as rejected. PPS_LOSS, PPSOK_EXPIRY, SLEW_COMPLETE and REFERENCE_LOST change
their status bits. -/
def Sys2Proof.Says.TimebaseEvents : Prop :=
  ∀ (s : State), s.dieOn = true →
    let cap := s.tb.now
    let err := ppsError cap
    (∀ rising, rising ≠ s.flag Fld.TB_CTL_PPSPOL → s.flag Fld.TB_CTL_MODE = false →
      ∃ s', exec (.ppsEdge rising) s = .next s' ∧ s'.mem = s.mem ∧ s'.tb = s.tb ∧
        s'.reg Reg.TB_PPSCAP_HI ++ s'.reg Reg.TB_PPSCAP_LO = cap) ∧
    (∀ rising, rising ≠ s.flag Fld.TB_CTL_PPSPOL → s.flag Fld.TB_CTL_MODE = true → s.tb.ppsFirst = true →
      err.natAbs ≤ s.get Fld.TB_PPSCFG_STEPLIM * 1000 →
      ∃ s', exec (.ppsEdge rising) s = .next s' ∧ s'.mem = s.mem ∧ s'.tb.now = cap ∧
        s'.reg Reg.TB_PPSCAP_HI ++ s'.reg Reg.TB_PPSCAP_LO = cap ∧ s'.reg Reg.TB_PPSERR = BitVec.ofInt 32 err ∧
        s'.reg Reg.TB_SLEW = BitVec.ofInt 32 (-err) ∧ s'.get Fld.TB_STS_PPSOK = 1 ∧ s'.tb.ppsCap = cap) ∧
    (∀ rising t, rising ≠ s.flag Fld.TB_CTL_PPSPOL → s.flag Fld.TB_CTL_MODE = true → s.tb.ppsFirst = false →
      s.tb.ppsAt = some t → t + 1000000000 + 1000 * s.get Fld.TB_PPSCFG_WIN < s.now →
      ∃ s', exec (.ppsEdge rising) s = .next s' ∧ s'.mem = s.mem ∧ s'.tb.now = cap ∧ s'.tb.ppsAt = some t ∧
        s'.reg Reg.TB_SLEW = s.reg Reg.TB_SLEW ∧ s'.tb.ppsRej = s.tb.ppsRej + 1 ∧
        s'.get Fld.TB_CNT_PPSREJ_COUNT = min (s.get Fld.TB_CNT_PPSREJ_COUNT + 1) (2 ^ 32 - 1)) ∧
    (∀ t, s.tb.ppsAt = some t →
      (s.flag Fld.TB_CTL_MODE = true → t + 3500000000 ≤ s.now → ∃ s', exec .ppsLoss s = .next s' ∧ s'.mem = s.mem ∧
        s'.get Fld.TB_STS_LOCKED = 0) ∧
      (t + 1500000000 ≤ s.now → ∃ s', exec .ppsokExpiry s = .next s' ∧ s'.mem = s.mem ∧ s'.tb = s.tb ∧
        s'.get Fld.TB_STS_PPSOK = 0)) ∧
    (s.reg Reg.TB_SLEW = 0 → ∃ s', exec .slewComplete s = .next s' ∧ s'.mem = s.mem ∧ s'.tb = s.tb ∧
      s'.get Fld.TB_STS_SLEWING = 0) ∧
    ∀ lost, lost = s.flag Fld.TB_STS_REFOK → ∃ s', exec (.referenceLost lost) s = .next s' ∧ s'.mem = s.mem ∧
      s'.tb = s.tb ∧ s'.get Fld.TB_STS_REFOK = b2n (!lost)

/-- The Timebase under its writes and under its events. -/
def Obligations.TimebaseChanges : Prop := TimebaseWrites ∧ TimebaseEvents


/-! ### The Crier and the entries it causes -/

/-- SWSET makes each software-set source whose bit is 1 pending and SWCLR withdraws it, before the device looks at itself
again; a COMPLETE by the claiming thread ends its claim, and a level source that is still asserted becomes pending anew. -/
def Sys2Proof.Says.SoftwareSources : Prop :=
  ∀ (s : State) (rq : Requester) (w : BitVec 3) (v : Word32) (d : RegDesc) (k b : Nat),
    (Serves s rq (Reg.CR_SWSET + 4 * w.toNat) true d k b →
      ∃ u : State, exec (.swset rq w v) s = .next u.settleOn ∧ u.mem = s.mem ∧
        ∀ j, j < 32 → (u.src (768 + 32 * w.toNat + j)).pend =
          (v.getLsbD j || (s.src (768 + 32 * w.toNat + j)).pend)) ∧
    (Serves s rq (Reg.CR_SWCLR + 4 * w.toNat) true d k b →
      ∃ u : State, exec (.swclr rq w v) s = .next u.settleOn ∧ u.mem = s.mem ∧
        ∀ j, j < 32 → (u.src (768 + 32 * w.toNat + j)).pend =
          (!v.getLsbD j && (s.src (768 + 32 * w.toNat + j)).pend)) ∧
    ∀ (t : Tid) (n : Nat), n < 256 → bitsGet v 0 10 = n → (s.src n).claimed = some t.toNat →
      Serves s rq (Reg.CR_TCMPL + 16 * t.toNat) true d k b →
      ∃ u : State, exec (.complete rq (some t) v) s = .next u.settleOn ∧ u.mem = s.mem ∧ (u.src n).claimed = none ∧
        (u.src n).pend = (s.src n).asserted

/-- INTERRUPT_ENTRY enters the handler of the best interrupt offered (vector 32 + level), and IL becomes its level;
MODERATION_HOLD_OFF lets a held source through; DECLINE ends the standing offers that the thread no longer admits and counts them. -/
def Sys2Proof.Says.InterruptEntries : Prop :=
  ∀ (s : State) (t : Tid),
    (∀ o, s.bestOffer t.toNat = some o → s.atBoundary t.toNat = true → (s.thr t.toNat).resume = none →
      (s.thr t.toNat).tstate ≠ .meteredRun → 1 ≤ o.level →
      o.level ≤ 15 → EntrySpace s t (32 + o.level) →
      ∃ s', exec (.interruptEntry t) s = .next s' ∧ Entered s s' t (32 + o.level) (s.thr t.toNat).pc ∧
        (s'.thr t.toNat).st = bitsSet (stAfterEntry (s.thr t.toNat).st) 4 4 o.level ∧
        ∃ c, c ∈ (s'.thr t.toNat).claims ∧ c.level = o.level ∧ (o.key = none → c.lt = true) ∧
          (∀ n, o.key = some n → c.lt = false ∧ c.src = srcOf n)) ∧
    (s.bestOffer t.toNat = none → exec (.interruptEntry t) s = .next s) ∧
    (∀ (n : SourceId) (th : BitVec 2), 768 ≤ n.toNat → (s.src n.toNat).pend = true → s.srcHold n.toNat ≠ 0 →
      (∃ since, (s.src n.toNat).heldAt = some since ∧ since + 64 * s.srcHold n.toNat ≤ s.now) →
      ∃ s', exec (.moderationHoldOff n th) s = .next s' ∧ s'.mem = s.mem ∧ s'.threads = s.threads ∧
        (s'.src n.toNat).pend = true ∧ (s'.src n.toNat).offered = true) ∧
    let gone := s.crier.offers.filter (fun o => o.thread == t.toNat && s.stands o && !s.candidate o.level t.toNat)
    (gone ≠ [] → ∃ s', exec (.decline t) s = .next s' ∧ s'.mem = s.mem ∧ s'.threads = s.threads ∧
      (∀ o ∈ gone, o ∉ s'.crier.offers) ∧
      s'.get Fld.CR_CNT_DECLINE_COUNT = min (s.get Fld.CR_CNT_DECLINE_COUNT + gone.length) (2 ^ 32 - 1)) ∧
    (gone = [] → exec (.decline t) s = .next s)

/-- Sources become pending, are claimed by an entry and are completed. -/
def Obligations.InterruptFlow : Prop := SoftwareSources ∧ InterruptEntries


/-- THREAD_RESET of an enabled thread outside the Metered role: registers, HELD, WTMO and status as R136 gives them, the
thread Ready at the address in vector 0 (RST is that write of CO_TCTL). WAIT_TIMEOUT takes the WAITE time-out exception
(vector 11) at the word after WAITE; LOCAL_TIMER_EXPIRY disarms the timer and sets PEND; BOUNDARY_UPDATE puts the
Boundary fields of a register into effect. -/
def Obligations.ThreadEvents : Prop :=
  ∀ (s : State) (t : Tid),
    let th := s.thr t.toNat
    let fresh (s' : State) : Prop :=
      s'.mem = s.mem ∧ (∀ r, (s'.thr t.toNat).get r = 0) ∧ (s'.thr t.toNat).held = 0 ∧ (s'.thr t.toNat).wtmo = 0 ∧
      (s'.thr t.toNat).vbase = th.vbase ∧ (s'.thr t.toNat).tstate = .ready ∧
      (s'.thr t.toNat).pc = sramWord s t th.vbase.toNat ∧ (∀ g, (t.toNat, g) ∉ s'.resvs) ∧
      (s'.thr t.toNat).st = if t = 0 then 8 else 0
    (s.threadOn t.toNat = true → s.coreRetired (t.toNat / 4) = false → s.coreMetered (t.toNat / 4) = false → Clean s →
      th.vbase.toNat + 4 ≤ 0x8000 → (sramWord s t th.vbase.toNat).toNat % 4 = 0 →
      (∃ s', exec (.threadReset t) s = .next s' ∧ fresh s') ∧
      ∀ rq v d k b, Serves s rq (Reg.CO_TCTL + thOff t.toNat) true d k b → s.blockRetired b = false → rq ≠ .core t →
        ∃ s', exec (.rst rq t v) s = .next s' ∧ fresh s') ∧
    (∀ since, th.waitAt = some (since, true) → th.tstate = .wait → th.wtmo ≠ 0 → since + th.wtmo.toNat ≤ s.now →
      s.awake t.toNat = true → s.copyWriting (t.toNat / 32) = false → s.bestOffer t.toNat = none → EntrySpace s t 11 →
      ∃ s', exec (.waitTimeout t) s = .next s' ∧ Entered s s' t 11 th.pc) ∧
    (∀ (c : CoreId) e, (s.core c.toNat).ltimer = some e → e ≤ s.now →
      ∃ s', exec (.localTimerExpiry c) s = .next s' ∧ s'.mem = s.mem ∧ (s'.core c.toNat).ltimer = none ∧
        s'.get Fld.CO_LTCTL_PEND (coOff c.toNat) = 1) ∧
    ∀ (a : IoAddr) d i, findReg a.toNat = some (d, i) → d.base ≠ Reg.CO_CTL → a.toNat ≠ Reg.PS_BANK →
      a.toNat / 0x10000 ≠ 0x0D →
      ∃ s', exec (.boundaryUpdate a) s = .next s' ∧ s'.mem = s.mem ∧
        ∀ f ∈ d.fields, fieldOf f (s'.effReg a.toNat) =
          if f.upd = .boundary then fieldOf f (s.reg a.toNat) else fieldOf f (s.effReg a.toNat)

namespace Sys2Proof.Says

open Sys2Proof.Machine

/-- The command `c` takes `s` to `u`, after which the device looks at itself: its conditions, its pending interrupts, its
headers that wait (`State.settle`). -/
def Acts (c : Instr) (s u : State) : Prop := exec c s = .next u.settle

/-- Vector `q` may send now: not masked, its function enabled for MSI-X, Bus Master Enable 1, not in D3hot, the link usable
(09 R314). -/
def MaySend (s : State) (q : Nat) : Prop :=
  (s.vec q).ctrl.getLsbD 0 = false ∧ (s.func (q / 2048)).msixEn = true ∧ (s.func (q / 2048)).msixMask = false ∧
    (s.func (q / 2048)).bme = true ∧ (s.func (q / 2048)).d3 = false ∧ s.linkUsable = true

/-- Posted writes of queue `q`'s function that carry `bs` to `a`, none larger than its Max_Payload_Size (10 R319). -/
def writesOf (s : State) (q a : Nat) (bs : List Byte) : List Emit :=
  (cuts (s.func (q / 2048)).payload bs.length a bs.length).map
    (fun p => .hostWrite (q / 2048) p.1 (slice bs (p.1 - a) p.2) {})

/-- From `s` to `u` the device sends `es` on the host link: at once in Active; in L1 they wait for the exit, in order
(10 R322). -/
def Sends (s u : State) (es : List Emit) : Prop :=
  (s.linkState = 2 → u.emitted = s.emitted ++ es) ∧
  (s.linkState = 4 → u.link.held.map (·.what) = s.link.held.map (·.what) ++ es)

/-- The bytes of a completion with `len` bytes of data in one slot, written at the CQ's tail: the data to the slot, then the
entry, whose phase is the queue's (10 R331 to R333). -/
def oneSlot (s : State) (q ty status op cid : Nat) (info data : List Byte) : List Emit :=
  let i := s.get Fld.HQ_CQPOS_TAIL (hqOff q)
  let n := s.cqSize q
  (if data = [] then [] else writesOf s q (s.slotAddr q (i % n)) data) ++
    writesOf s q (s.cqEntryAddr q i)
      (firstEntry ty status 1 op (s.get Fld.HQ_SQPOS_HEAD (hqOff q)) cid data.length s.tb.now.toNat
        (phaseWord n i 0 (s.hq q).phase) info)

/-- The queue's tail moves past one entry. -/
def tailMoves (s u : State) (q : Nat) : Prop :=
  u.get Fld.HQ_CQPOS_TAIL (hqOff q) = (s.get Fld.HQ_CQPOS_TAIL (hqOff q) + 1) % s.cqSize q

/-- The queue's SQHEAD moves past one descriptor. -/
def headMoves (s u : State) (q : Nat) : Prop :=
  u.get Fld.HQ_SQPOS_HEAD (hqOff q) = (s.get Fld.HQ_SQPOS_HEAD (hqOff q) + 1) % s.sqSize q

end Sys2Proof.Says

/-! ### The host link and its queues -/

/-- A start with valid fields runs the queue from empty positions with phase 1, and one with invalid fields sets CFGERR; a
stop with nothing in flight ends the run; the doorbells move their index where it lies in its ring, else set DBERR. -/
def Obligations.QueueControl : Prop :=
  ∀ (s : State) (rq : Requester) (q : QueueId) (v : Word32) (i : BitVec 16) (d : RegDesc) (k b : Nat),
    let o := hqOff q.toNat
    (Serves s rq (Reg.HQ_CFG + o) true d k b →
      (s.get Fld.HQ_STS_RUN o = 0 →
        let w := s.storeReg d k b (v ||| 1#32)
        ∃ u : State, exec (.queueStart rq q v) s = .next u.settleOn ∧ u.mem = s.mem ∧
          (w.hqValid q.toNat = true → u.get Fld.HQ_STS_RUN o = 1 ∧ u.reg (Reg.HQ_SQPOS + o) = 0 ∧
            u.reg (Reg.HQ_CQPOS + o) = 0 ∧ u.hq q.toNat = { phase := true, rx := [], desc := none }) ∧
          (w.hqValid q.toNat = false → u.get Fld.HQ_STS_RUN o = 0 ∧ u.get Fld.HQ_STS_CFGERR o = 1)) ∧
      (s.get Fld.HQ_STS_RUN o = 1 → (s.hq q.toNat).desc = none → (s.hq q.toNat).reading = none →
        (s.hq q.toNat).staged = [] → (s.hq q.toNat).rx = [] →
        ∃ u : State, exec (.queueStop rq q v) s = .next u.settleOn ∧ u.mem = s.mem ∧ u.get Fld.HQ_STS_RUN o = 0)) ∧
    (Serves s rq (Reg.HQ_DB + o) true d k b →
      (∃ u : State, exec (.sqtail rq q i) s = .next u.settleOn ∧ u.mem = s.mem ∧
        if s.cfg Fld.HQ_CFG_SQSZ o = 0 ∨ s.sqSize q.toNat ≤ i.toNat then u.get Fld.HQ_STS_DBERR o = 1
        else u.get Fld.HQ_SQPOS_TAIL o = i.toNat) ∧
      (∃ u : State, exec (.cqhead rq q i) s = .next u.settleOn ∧ u.mem = s.mem ∧
        if s.cqSize q.toNat ≤ i.toNat ∨
            ringDist (s.cqSize q.toNat) (s.get Fld.HQ_CQPOS_HEAD o) (s.get Fld.HQ_CQPOS_TAIL o) <
              ringDist (s.cqSize q.toNat) (s.get Fld.HQ_CQPOS_HEAD o) i.toNat then u.get Fld.HQ_STS_DBERR o = 1
        else u.get Fld.HQ_CQPOS_HEAD o = i.toNat) ∧
      ∃ u : State, exec (.sqhead rq q i) s = .next u.settleOn ∧ u.mem = s.mem ∧
        if s.on Fld.HQ_CFG_SWQ o = false ∨ s.cfg Fld.HQ_CFG_SQSZ o = 0 ∨ s.sqSize q.toNat ≤ i.toNat ∨
            ringDist (s.sqSize q.toNat) (s.get Fld.HQ_SQPOS_HEAD o) (s.get Fld.HQ_SQPOS_TAIL o) <
              ringDist (s.sqSize q.toNat) (s.get Fld.HQ_SQPOS_HEAD o) i.toNat then u.get Fld.HQ_STS_DBERR o = 1
        else u.get Fld.HQ_SQPOS_HEAD o = i.toNat)

/-- The engine's descriptors. SQ_DESCRIPTOR sends the read of the next one, 64 bytes at HQ_BASE * 65,536 + 64 * SQHEAD, and at its
end takes what came: a descriptor that passes its check is held, one that fails it completes with its status, one that cannot
be read sets DMAERR. TX and MSG allot free cells and send the read of the data; at its end the bytes go to those cells, and
the frame joins its egress queue or its header its thread's mailbox. SQ_NOP, TX and MSG so end a held descriptor. -/
def Obligations.QueueDescriptors : Prop :=
  ∀ (s : State) (q : QueueId) (d : List Byte),
    let n := q.toNat
    let o := hqOff n
    s.hqValid n = true → s.promptWaits = false → s.link.stopping = [] → (s.hq n).failed = false →
    let held (op : Nat) : Prop := (s.hq n).desc = some (d, 0) ∧ descOp d = op ∧ s.hqMoves n = true
    ((s.hq n).desc = none → (s.hq n).reading = none → s.hqRun n = true → s.hqMoves n = true →
      s.on Fld.HQ_CFG_SWQ o = false → s.cfg Fld.HQ_CFG_SQSZ o ≠ 0 →
      s.get Fld.HQ_SQPOS_HEAD o ≠ s.get Fld.HQ_SQPOS_TAIL o → s.tagsFree n 1 = true →
      ∀ x, ∃ u, Acts (.sqDescriptor q x) s u ∧ u.mem = s.mem ∧ u.regs = s.regs ∧ (u.hq n).reading = some (s.now, 1) ∧
        Sends s u [.hostRead (n / 2048) (65536 * s.get Fld.HQ_BASE_ADDR o + 64 * s.get Fld.HQ_SQPOS_HEAD o) 64 {}]) ∧
    ((s.hq n).desc = none → (s.hq n).reading.isSome = true → s.hqMoves n = true →
      (d.length = 64 → s.descCheck d = 0 → ∃ u, Acts (.sqDescriptor q (some d)) s u ∧ (u.hq n).desc = some (d, 0) ∧
        (u.hq n).reading = none ∧ u.regs = s.regs) ∧
      (d.length = 64 → 1 ≤ s.cqRoom n → s.descCheck d ≠ 0 → ∃ u, Acts (.sqDescriptor q (some d)) s u ∧
        (u.hq n).desc = none ∧ headMoves s u n ∧ tailMoves s u n ∧ u.get Fld.HQ_STS_SQERR o = 1) ∧
      (1 ≤ s.cqRoom n → ∃ u, Acts (.sqDescriptor q none) s u ∧ u.get Fld.HQ_STS_DMAERR o = 1 ∧ headMoves s u n ∧
        tailMoves s u n)) ∧
    (held 0 → s.descRoom n d 0 = true → ∃ u, Acts (.sqNop q) s u ∧ u.mem = s.mem ∧ (u.hq n).desc = none ∧
      headMoves s u n ∧ ((byteAt d 1).getLsbD 0 = true → tailMoves s u n)) ∧
    (∀ cell a x, (s.hq n).got = none → s.findCells cell (cellsOf (descLen d)) = some a →
      s.fits (descCls d) (cellsOf (descLen d)) = true →
      s.tagsFree n (s.tagsFor n (descAddr d) (descLen d)) = true →
      let starts (u : State) (g : Allotted) : Prop := u.mem = s.mem ∧ (u.hq n).got = some g ∧
        (u.hq n).reading = some (s.now, s.tagsFor n (descAddr d) (descLen d))
      (held 1 → s.egressUsed (descPort d) (descCls d) < 256 →
        ∃ u, Acts (.tx q cell x) s u ∧ starts u { cell := a, tx := some (descPort d, descCls d) }) ∧
      (held 2 → s.placeOk (descCls d) (s.resolveDest (descCls d) 3 (descDest d)) = true →
        ∃ u, Acts (.msg q cell x) s u ∧ starts u { cell := a, place := descCls d == 1 })) ∧
    (∀ cell g bs, (s.hq n).got = some g → bs.length = descLen d → s.targetFrozen 9 false = false →
      s.descRoom n d 0 = true → s.memCanonical →
      (held 1 → ∃ u, Acts (.tx q cell (some bs)) s u ∧ u.bytes (frameBase + 256 * g.cell) bs.length = bs ∧
        (u.hq n).desc = none ∧ headMoves s u n ∧
        u.egressQ (descPort d) (descCls d) = s.egressQ (descPort d) (descCls d) ++
          [{ addr := frameBase + 256 * g.cell, len := bs.length, src := .queue n, at_ := s.now }]) ∧
      (∀ t, held 2 → destOf (descDest d) = .thread t → s.takesHeaders t = true → s.gated (t / 256) = false →
        (s.thr t).mailbox.length < 8 → s.porter.store = [] →
        ∃ u, Acts (.msg q cell (some bs)) s u ∧ u.bytes (frameBase + 256 * g.cell) bs.length = bs ∧
          (u.hq n).desc = none ∧ headMoves s u n ∧ (u.thr t).mailbox = (s.thr t).mailbox ++ [s.msgHeader d g.cell]))

/-- HQ_POST of a valid block and RX_COMPLETION of the next waiting frame write the data and one completion entry at the CQ's
tail; an invalid block sets PDISC and writes nothing. MSIX_UNMASK and MSIX_HOLD_OFF send the vector's message where it may
be sent. -/
def Obligations.QueueCompletions : Prop :=
  ∀ (s : State) (q : QueueId),
    let n := q.toNat
    let o := hqOff n
    s.hqValid n = true →
    (∀ rq v d k b, Serves s rq (Reg.HQ_POST + o) true d k b →
      s.postWaits (Reg.HQ_POST + o) v = false →
      (∀ src len user, s.postBlock v = some (src, len, user) → s.hqRun n = true → s.hqMoves n = true → Clean s →
        s.promptWaits = false → (s.hq n).staged = [] → s.nslot n len = 1 → 1 ≤ s.cqRoom n →
        ∃ u tail, exec (.hqPost rq q v) s = .next (State.settleOn u) ∧ u.mem = s.mem ∧ tailMoves s u n ∧
          Sends s u (oneSlot s n 2 0 0 0 user (s.bytes src len) ++ tail)) ∧
      (s.postBlock v = none → Clean s → ∃ u, exec (.hqPost rq q v) s = .next (State.settleOn u) ∧ u.mem = s.mem ∧
        u.emitted = s.emitted ∧ u.get Fld.HQ_STS_PDISC o = 1)) ∧
    (∀ x, nextRx (s.hq n).rx = some x → s.hqMoves n = true → s.targetFrozen 9 false = false → s.promptWaits = false →
      x.slot = none → Clean s → s.nslot n x.hdr.len.toNat = 1 → 1 ≤ s.cqRoom n →
      ∃ u tail, Acts (.rxCompletion q) s u ∧ u.mem = s.mem ∧ (u.hq n).rx = (s.hq n).rx.erase x ∧ tailMoves s u n ∧
        Sends s u (oneSlot s n 1 0 0 0 (Header.bytes { x.hdr with fboff := 0 })
          (s.bytes (frameBase + x.hdr.fboff.toNat) x.hdr.len.toNat) ++ tail)) ∧
    (∀ since hold, (s.vec n).heldAt = some since → s.cfg Fld.HQ_MOD_HOLD o = hold → hold ≠ 0 → since + 64 * hold ≤ s.now →
      MaySend s n → ∃ u, Acts (.msixHoldOff q) s u ∧ u.mem = s.mem ∧ (u.vec n).heldAt = none ∧ (u.vec n).cnt = 0 ∧
        Sends s u [.msix (n / 2048) (n % 2048)]) ∧
    ((s.vec n).pend = true → MaySend { s with vecs := tblPut s.vecs n { s.vec n with ctrl := 0#32 } } n →
      ∃ u, Acts (.msixUnmask q) s u ∧ u.mem = s.mem ∧ (u.vec n).pend = false ∧ (u.vec n).ctrl.getLsbD 0 = false ∧
        Sends s u [.msix (n / 2048) (n % 2048)])

/-- Requests of the partner die: a register DWORD is read or written as by IN or OUT; frame-buffer bytes are read and written;
the MSI-X table's words; the configuration fields of a function, and what its configuration space reports (revision 0x02 and
class code 0x0B_4000); a Function Level Reset. -/
def Sys2Proof.Says.HostRequests : Prop :=
  ∀ (s : State) (f : FnId), s.dieOn = true → s.linkUsable = true → s.link.bars = [] →
    (∀ (off : BitVec 26) (a : Nat) d k b, barReg f off.toNat = some a → off.toNat % 4 = 0 → barFrame f off.toNat 4 = false →
      (Serves s (.pf f) a false d k b → ∃ u, Acts (.barAccess f (.readReg off 4)) s u ∧
        u = (s.readReg (.pf f) d k b).2.sendLink (.barData f.toNat (leBytes 4 (s.readReg (.pf f) d k b).1.toNat) false)) ∧
      ∀ w : Word32, Serves s (.pf f) a true d k b → s.postWaits a w = false →
        Acts (.barAccess f (.writeReg off (leBytes 4 w.toNat))) s (s.writeReg (.pf f) d k b w).settleOn) ∧
    (∀ (off : BitVec 26) n bs, barFrame 0 off.toNat n = true → Clean s → s.targetFrozen 9 false = false → s.memCanonical →
      let p := frameBase + (off.toNat - 0x2000000)
      Acts (.barAccess 0 (.readReg off n)) s (s.sendLink (.barData 0 (s.bytes p n) false)) ∧
      (bs.length = n → ∃ u, Acts (.barAccess 0 (.writeReg off bs)) s u ∧ u.bytes p n = bs ∧
        ∀ x, x < p ∨ p + n ≤ x → u.byte x = s.byte x)) ∧
    (∀ (off : BitVec 16) w, off.toNat < 0x8000 → off.toNat % 4 = 0 → ¬ off.toNat % 16 = 12 →
      ∃ u, Acts (.barAccess f (.writeBar2 off w)) s u ∧ u.mem = s.mem ∧ u.regs = s.regs ∧
        u.bar2Read f.toNat off.toNat = (if off.toNat % 16 = 0 then w &&& 0xFFFFFFFC#32 else w) ∧
        Acts (.barAccess f (.readBar2 off)) u
          (u.sendLink (.barData f.toNat (leBytes 4 (u.bar2Read f.toNat off.toNat).toNat) false))) ∧
    (∀ off, Acts (.configAccess f (.read off)) s (s.sendLink (.config f.toNat (off.toNat / 4 * 4) (s.configRead f.toNat off.toNat)))) ∧
    s.configRead f.toNat 8 = 0x0B400002#32 ∧
    (∀ x, ∃ u, Acts (.configAccess f x) s u ∧ u.mem = s.mem ∧ ((∀ on, x ≠ .busMaster on) → u.regs = s.regs) ∧ u.func f.toNat = (match x with
      | .busMaster on => { s.func f.toNat with bme := on }
      | .msix en mask => { s.func f.toNat with msixEn := en, msixMask := mask }
      | .tags w => { s.func f.toNat with tags := w }
      | .devCtl2 c => { s.func f.toNat with cto := c }
      | .relaxed on => { s.func f.toNat with relaxed := on }
      | .power d3 => { s.func f.toNat with d3 := d3 }
      | .payload p r => { s.func f.toNat with mps := p, mrrs := r }
      | .errors on w => { s.func f.toNat with errEn := on, aer := (s.func f.toNat).aer &&& ~~~ w }
      | .read _ => s.func f.toNat)) ∧
    ∃ u, Acts (.functionLevelReset f) s u ∧ u.mem = s.mem ∧ u.func f.toNat = {} ∧
      ∀ q, q / 2048 = f.toNat → u.vec q = {}

/-- A completion for a thread's host read gives the command its bytes, and the command runs again; a completion time-out, or a
completion that fails, lets it run again with the read failed, which is counted. -/
def Sys2Proof.Says.HostReadsEnd : Prop :=
  ∀ (s : State) (t : Tid) (r : HostRead), (s.thr t.toNat).hostRd = some r → (encodeWord r.instr).isSome = true →
    let got (ok : Bool) (data : List Byte) : State → State := fun u =>
      u.modThr t.toNat (fun th => { th with
        hostRd := none,
        hostGot := th.hostGot ++ (List.range r.len).map (fun i => (r.va + i, if ok then some (byteAt data i) else none)) })
    let failed := s.bump Fld.GL_HL_RDERR_COUNT
    (s.linkUsable = true → ∀ data, data.length = r.len →
      ∃ w, exec r.instr (got true data s) = .next w ∧ Acts (.hostReadCompletion t true data) s w) ∧
    (s.linkUsable = true → ∀ data, ∃ w, exec r.instr (got false data failed) = .next w ∧
      Acts (.hostReadCompletion t false data) s w) ∧
    (r.sentAt + ctoNs (s.func r.fn).cto ≤ s.now →
      ∃ w, exec r.instr (got false [] ((s.pcieError r.fn 14).bump Fld.GL_HL_RDERR_COUNT)) = .next w ∧
      Acts (.completionTimeout (.thread t)) s w)

/-- Requests of the partner die, and the ends of the device's own reads. -/
def Obligations.HostTransfers : Prop := HostRequests ∧ HostReadsEnd


/-- The states of the link: training ends in Active, and its third failure in a row in LinkError; a retraining leaves Active
and is counted; L1 and its exit; training again 10 ms after LinkError; a hot reset trains anew and resets every
function. -/
def Obligations.LinkStates : Prop :=
  ∀ (s : State),
    let goes (c : Instr) (st : Nat) : Prop := ∃ s', exec c s = .next s' ∧ s'.mem = s.mem ∧ s'.get Fld.GL_LINK_STS_STATE = st
    (∀ speed repair, s.dieOn = true → s.linkState = 0 ∨ s.linkState = 1 ∨ s.linkState = 3 →
      goes (.linkTraining true speed repair) 2 ∧
      (s.link.attempts = 2 → s.hqs = [] → (∀ t, (s.thr t).hostRd = none) →
        goes (.linkTraining false speed repair) 6)) ∧
    (s.dieOn = true → s.linkState = 2 → (∃ s', exec (.retrain none) s = .next s' ∧ s'.mem = s.mem ∧
      s'.get Fld.GL_LINK_STS_STATE = 3 ∧
      s'.get Fld.GL_LINK_RETRAIN_COUNT = min (s.get Fld.GL_LINK_RETRAIN_COUNT + 1) (2 ^ Fld.GL_LINK_RETRAIN_COUNT.width - 1))) ∧
    (s.linkState = 2 → s.dstate = 4 → s.flag Fld.GL_LINK_CTL_L1EN = true → s.flag Fld.GL_LINK_STS_L1BLK = false →
      s.linkIdle = true → goes .l1 4) ∧
    (s.linkState = 4 → goes .l1Exit 2) ∧
    (s.linkState = 6 → s.link.since + 10000000 ≤ s.now → goes .linkError 1) ∧
    (s.dieOn = true → ∃ s', exec .linkHotReset s = .next s' ∧ s'.mem = s.mem ∧ s'.get Fld.GL_LINK_STS_STATE = 0 ∧
      ∀ f, f < 8 → s'.func f = {})

namespace Sys2Proof.Says

open Sys2Proof.Machine

/-- Port `p` after its own count of a frame that passed the checks: corrected codewords and one frame more (06 R189). -/
def counted (s : State) (p : Nat) (rx : RxFrame) : State :=
  ((((s.frameFields p).bump Fld.PT_FECCORR_COUNT rx.corrected (ptOff p)).bump Fld.PT_FECUNC_COUNT 0 (ptOff p)).modPort p
    (fun x => { x with uncAt := x.uncAt ++ [] })).bump Fld.PT_RXOK_COUNT 1 (ptOff p)

/-- A counter after one more event: it stops at its largest value. -/
def oneMore (s u : State) (f : FieldRef) (off : Nat) : Prop := u.get f off = min (s.get f off + 1) (2 ^ f.width - 1)

end Sys2Proof.Says

/-! ### Ports, Porter, Toll -/

/-- A received frame: a runt, an overlong frame or one that fails its checks is counted and goes no further; one that passes
and whose walk, class and meters let it through to a thread's mailbox has its bytes in the free cells found, and its header
at the end of that mailbox. HEADER_WRITE moves the oldest held header of a thread to its mailbox. -/
def Obligations.FramesReceived : Prop :=
  ∀ (s : State) (p : PortId) (rx : RxFrame),
    let n := p.toNat
    let o := ptOff n
    (s.portInService n = true → s.flag Fld.PT_STS_LINK o = true →
      (rx.bytes.length + 4 < 64 → ∃ u, Acts (.frameReceive p rx) s u ∧ u.mem = s.mem ∧ u.threads = s.threads ∧
        oneMore s u Fld.PT_RXRUNT_COUNT o) ∧
      (9220 < rx.bytes.length + 4 → ∃ u, Acts (.frameReceive p rx) s u ∧ u.mem = s.mem ∧ u.threads = s.threads ∧
        oneMore s u Fld.PT_RXLONG_COUNT o) ∧
      (64 ≤ rx.bytes.length + 4 → rx.bytes.length + 4 ≤ 9220 → rx.fcsOk = false ∨ rx.uncorrectable ≠ 0 →
        ∃ u, Acts (.frameReceive p rx) s u ∧ u.mem = s.mem ∧ u.threads = s.threads ∧ oneMore s u Fld.PT_RXFCS_COUNT o) ∧
      (64 ≤ rx.bytes.length + 4 → rx.bytes.length + 4 ≤ 9220 → rx.fcsOk = true → rx.uncorrectable = 0 →
        isPfcFrame rx.bytes = false → s.flag Fld.PO_CTL_EN = true → s.holding = false → s.darkening = false →
        s.porter.ingress = [] → s.targetFrozen 8 false = false → s.targetFrozen 9 false = false → s.targetFrozen 9 true = false →
        let s1 := counted s n rx
        let bank := s1.cfg Fld.PO_CTL_GBANK
        let s2 := s1.put Fld.PO_STS_BANK bank
        let w := s2.walk n bank rx.bytes 16 (s2.startNode n) {}
        let tci := vlanTci rx.bytes
        let h : Header := {
          len := BitVec.ofNat 16 rx.bytes.length, port := p, payoff := BitVec.ofNat 16 w.off,
          rxts := s1.rxStamp n rx.bytes.length, vlan := tci.isSome, tci := BitVec.ofNat 16 (tci.getD 0) }
        let r := s2.classify w h tci
        ∀ t cell s3, r.1.drop = false → destOf r.1.code = .thread t → r.1.cls ∈ [1, 2, 3] →
          r.2.meterFrame n r.1.cls rx.bytes.length (if r.1.hdr.noSess then none else some r.1.hdr.session.toNat) =
            (false, s3) →
          s3.findCells rx.cell (cellsOf rx.bytes.length) = some cell → s3.fits r.1.cls (cellsOf rx.bytes.length) = true →
          s3.placeOk r.1.cls r.1.code = true → s3.porter.store = [] → s3.takesHeaders t = true → s3.gated (t / 256) = false → (s3.thr t).mailbox.length < 8 →
          s3.memCanonical →
          ∃ u, Acts (.frameReceive p rx) s u ∧ u.bytes (frameBase + 256 * cell) rx.bytes.length = rx.bytes ∧
            (u.thr t).mailbox = (s3.thr t).mailbox ++
              [{ r.1.hdr with fboff := BitVec.ofNat 32 (256 * cell), cls := BitVec.ofNat 2 r.1.cls }])) ∧
    ∀ (t : Tid) x, s.redirectHeld = s → s.porter.store.find? (fun y => y.thread == t.toNat) = some x →
      s.gated (t.toNat / 256) = false → (s.thr t.toNat).mailbox.length < 8 →
      ∃ u, Acts (.headerWrite t) s u ∧ u.mem = s.mem ∧ u.porter.store = s.porter.store.erase x ∧
        (u.thr t.toNat).mailbox = (s.thr t.toNat).mailbox ++ [x.hdr]

/-- FRAME_BOUNDARY sends the head frame of the class chosen, padded to 60 bytes, and counts it. Pause frames: a received one
pauses the priorities it names for their quanta, until their time is over; a port that pauses its partner repeats its own at
half the quanta time. -/
def Obligations.FramesSentAndPaused : Prop :=
  ∀ (s : State) (p : PortId),
    let n := p.toNat
    let o := ptOff n
    (∀ c f rest, s.portSends n = true → s.flag Fld.PT_CTL_PGUARD o = false → s.flag Fld.PT_CTL_TAGUPD o = false →
      s.flag Fld.PT_CTL_PTPEN o = false → (((s.fillShapers n).egressFields n).fillShapers n).nextClass n = some c →
      s.egressQ n c = f :: rest → s.sourceAsleep f = none → s.sourceFrozen c f = false → Clean s →
      ∃ u sent, Acts (.frameBoundary p) s u ∧ u.mem = s.mem ∧ u.egressQ n c = rest ∧ u.emitted = s.emitted ++ sent ∧
        Emit.frame n (s.bytes f.addr f.len ++ List.replicate (60 - f.len) 0) false ∈ sent ∧
        oneMore s u Fld.PT_TXOK_COUNT o) ∧
    (∀ (prios : BitVec 8) (quanta : List (BitVec 16)), s.portInService n = true → s.flag Fld.PT_STS_LINK o = true →
      keysRise (s.port n).pausedUntil = true →
      ∃ u, Acts (.pfcReceive p prios quanta) s u ∧ u.mem = s.mem ∧ oneMore s u Fld.PT_PFCRX_COUNT o ∧
        ∀ i, i < 8 → (prios.getLsbD i = true → bitOf (s.get Fld.PT_PFC_RXEN o) i = true →
          tblGet (u.port n).pausedUntil i = if (quanta.getD i 0).toNat = 0 then none
            else some (s.now + s.pauseNs (quanta.getD i 0).toNat)) ∧
          (prios.getLsbD i = false ∨ bitOf (s.get Fld.PT_PFC_RXEN o) i = false →
            tblGet (u.port n).pausedUntil i = tblGet (s.port n).pausedUntil i)) ∧
    (∀ (prio : BitVec 3) t, tblGet (s.port n).pausedUntil prio.toNat = some t → t ≤ s.now →
      keysRise (s.port n).pausedUntil = true →
      ∃ u, Acts (.pfcPauseExpiry p prio) s u ∧ u.mem = s.mem ∧ tblGet (u.port n).pausedUntil prio.toNat = none) ∧
    ((s.port n).pausing = true → (s.port n).pauseAt + s.pauseNs (s.get Fld.PT_PFC_QUANTA o) / 2 ≤ s.now →
      ∃ u, Acts (.pfcRepeat p) s u ∧ u.mem = s.mem ∧ (u.port n).pauseAt = s.now ∧
        u.emitted = s.emitted ++ [.pfc n (BitVec.ofNat 8 (s.get Fld.PT_PFC_AEN o))
          (BitVec.ofNat 16 (s.get Fld.PT_PFC_QUANTA o))] ∧ oneMore s u Fld.PT_PFCTX_COUNT o)

/-- The link of a port: LINK rises and falls and asserts the port's source; LPI is entered only with nothing to send, neither
frames nor a pause's repeats, and left for a frame; sixteen uncorrectable codewords within a millisecond set FECBURST. -/
def Obligations.PortLinks : Prop :=
  ∀ (s : State) (p : PortId),
    let n := p.toNat
    let o := ptOff n
    (∀ ok, s.flag Fld.PT_CTL_EN o = true → s.portInService n = true → s.flag Fld.LG_STS_OUT = true →
      s.get Fld.PT_STS_LINK o = 0 → (s.arrives (8 + n)).1 = true →
      ∃ u, Acts (.linkUp p ok) s u ∧ u.mem = s.mem ∧ u.get Fld.PT_STS_LINK o = 1 ∧ u.get Fld.PT_STS_LPIOK o = b2n ok ∧
        (u.src (8 + n)).pend = true) ∧
    (s.portInService n = true → s.get Fld.PT_STS_LINK o = 1 → (s.arrives (8 + n)).1 = true →
      ∃ u, Acts (.portLinkLoss p) s u ∧ u.mem = s.mem ∧ u.get Fld.PT_STS_LINK o = 0 ∧ u.get Fld.PT_STS_LPIOK o = 0 ∧
        (u.src (8 + n)).pend = true) ∧
    (s.get Fld.PT_CTL_LPIEN o = 1 → s.get Fld.PT_STS_LPIOK o = 1 → s.get Fld.PT_STS_LINK o = 1 →
      (s.egressIdle n = true → (s.port n).pausing = false →
        ∃ u, Acts (.lpi p) s u ∧ u.mem = s.mem ∧ u.get Fld.PT_STS_LPI o = 1) ∧
      (s.egressIdle n = false ∨ (s.port n).pausing = true → exec (.lpi p) s = .next s)) ∧
    (s.get Fld.PT_STS_LPI o = 1 → s.egressIdle n = false →
      ∃ u, Acts (.lpiWake p) s u ∧ u.mem = s.mem ∧ u.get Fld.PT_STS_LPI o = 0) ∧
    (16 ≤ ((s.port n).uncAt.filter (fun t => decide (s.now ≤ t + 1000000))).length →
      ∃ u, Acts (.laneErrorBurst p) s u ∧ u.mem = s.mem ∧ u.get Fld.PT_STS_FECBURST o = 1)

/-- An arbiter that is not stopped grants one waiting request: the first to arrive, at a near-Annex arbiter the first whose unit is
not at work, or, at a fabric target, the one with the highest input number of those that find an entry, the request channel
yielding to a ready escape; one that is stopped grants none. A near-Annex operation in a Metered cluster is granted by 64-byte
steps, and waits again after each but its last. STARVATION flags an input that has waited longer than the limit. -/
def Obligations.ArbitersGrant : Prop :=
  ∀ (s : State) (a : ArbiterId) (arrivals : List ArbRequest) (answered : List (BitVec 7)),
    let x := s.arrive a ((s.arb (arbKey a)).answer answered) arrivals
    let again (w : ArbWait) : List ArbWait := match a with
      | .annex c _ => if s.meteredRole = true ∧ 48 ≤ c.toNat ∧ 1 < w.steps then
          [{ w with steps := w.steps - 1, at_ := s.now }] else []
      | _ => []
    let took (w : ArbWait) : Prop := ∃ s' o, exec (.arbiterGrant a arrivals answered) s = .next s' ∧ s'.mem = s.mem ∧
      (s'.arb (arbKey a)).waiting = x.waiting.erase w ++ again w ∧ (s'.arb (arbKey a)).out = x.out ++ [o] ∧
      o.input = w.input ∧ o.cls = w.cls
    s.dieOn = true →
    (s.arbStopped a = true → ∃ s', exec (.arbiterGrant a arrivals answered) s = .next s' ∧ s'.mem = s.mem ∧
      s'.arb (arbKey a) = x) ∧
    (s.arbStopped a = false → (∀ t ch, a ≠ .fabric t ch) → (∀ c u, a ≠ .annex c u) →
      ∀ w r, x.waiting = w :: r → took w) ∧
    (∀ c u, a = .annex c u → s.arbStopped a = false → ∀ before w after, x.waiting = before ++ w :: after →
      (∀ v ∈ before, ∃ o ∈ x.out, o.unit = v.unit) → (∀ o ∈ x.out, o.unit ≠ w.unit) → took w) ∧
    (∀ t ch, a = .fabric t ch → s.arbStopped a = false → ch ≠ 0 ∨ s.escapeReady t.toNat = false →
      let fits (w : ArbWait) : Bool := ch != 0 || (s.entryFor t.toNat w.cls x.out).isSome
      (∃ w ∈ x.waiting, fits w = true) →
      ∃ w ∈ x.waiting, fits w = true ∧ (∀ v ∈ x.waiting, fits v = true → v.input ≤ w.input) ∧ took w) ∧
    ∀ t ch (i : BitVec 7) w, a = .fabric t ch → (s.arb (arbKey a)).waiting.find? (fun v => v.input == i.toNat) = some w →
      s.get Fld.TL_STCFG_LIMIT ≠ 0 → w.at_ + s.get Fld.TL_STCFG_LIMIT < s.now →
      ∃ u, Acts (.starvation a i) s u ∧ u.mem = s.mem ∧
        (u.reg (Reg.TL_STARVE + 4 * (w.input / 32))).getLsbD (w.input % 32) = true

namespace Sys2Proof.Says

open Sys2Proof.Machine

/-- The Assay has no open matter: no earlier fault of a window, none tested or retiring, and room in its queue (08 R286 to
R288). -/
def NoFaults (s : State) : Prop :=
  s.assay.faults = [] ∧ s.assay.running = [] ∧ s.assay.retiring = [] ∧ s.assay.queue.length < 64

/-- Thread 0 of core `c` as a dispatch leaves it: the message's registers, sp at the top of the data SRAM, every other
register 0, PC at the group's entry, privileged bits 0 and MODE and AMODE as given (04 R143). -/
def Dispatched (s s' : State) (c : Nat) (m : PromptMsg) : Prop :=
  let th := s'.thr (4 * c)
  th.tstate = .meteredRun ∧ th.get 1 = m.hdr.session.setWidth 64 ∧
  th.get 2 = BitVec.ofNat 64 (frameBase + m.hdr.fboff.toNat) ∧ th.get 3 = m.hdr.len.setWidth 64 ∧
  th.get 4 = BitVec.ofNat 64 (s.cfg Fld.PS_GENT_B (16 * m.group)) ∧ th.get 30 = 0x8000 ∧
  (∀ r, r ∉ [(1 : RegNo), 2, 3, 4, 30] → th.get r = 0) ∧ th.mode = true ∧ th.held = 0 ∧ th.cur = some m.hdr ∧
  th.pc = BitVec.ofNat 32 (4 * s.cfg Fld.PS_GENT_ENTRY (16 * m.group)) ∧
  (s'.core c).cbuf = [] ∧ (s'.core c).beats = 0 ∧ (s'.core c).budget = s.cfg Fld.PS_GENT_B (16 * m.group)

/-- Both Twins of a pair idle, their buffers empty. -/
def PairIdle (s' : State) (p : Nat) : Prop :=
  (s'.pair p).phase = .idle ∧ (s'.pair p).msg = none ∧
  ∀ c, c = (pairCores p).1 ∨ c = (pairCores p).2 →
    (s'.thr (4 * c)).tstate = .meteredIdle ∧ (s'.core c).cbuf = [] ∧ (s'.core c).beats = 0 ∧ (s'.core c).doneAt = none

end Sys2Proof.Says

/-! ### The Prompt scheduler, Metered runs, the Accord -/

/-- SLOT_BOUNDARY begins the next slot: service starts where EN, the role and OUT are 1; the oldest header of the slot's group
goes to its pair where that is free, else the slot counts as missed. HANDLER_ENTRY gives both Twins the dispatch state.
BANK_SWITCH, or the boundary of slot 0 itself, puts the pending bank into effect; FALLBACK sends a header that has waited too long to its group's
fallback; CONDITION_CLEAR clears the bit of a condition that holds again. -/
def Obligations.PromptScheduler : Prop :=
  ∀ (s : State), s.holding = false →
    let i := s.prompt.slot
    (s.flag Fld.PS_CTL_EN = true → s.meteredRole = true → s.flag Fld.LG_STS_OUT = true →
      s.prompt.seriesAt ≤ s.now * 1000 → (i = 0 → s.flag Fld.PS_STS_SWPEND = false) →
      (s.slotEntry s.activeBank i = none → ∃ u, Acts .slotBoundary s u ∧ u.mem = s.mem ∧ u.get Fld.PS_STS_RUN = 1 ∧
        u.prompt.slot = (i + 1) % 256) ∧
      ∀ p g m, s.slotEntry s.activeBank i = some (p, g) → s.oldest g = some m →
        (s.pairFree (s.serving p) = true → ∃ u, Acts .slotBoundary s u ∧ u.mem = s.mem ∧
          u.prompt.slot = (i + 1) % 256 ∧ u.prompt.waiting = s.prompt.waiting.erase m ∧
          (u.pair (s.serving p)).phase = .dispatched ∧ (u.pair (s.serving p)).msg = some m ∧
          oneMore s u Fld.PS_DISP_COUNT 0) ∧
        (s.pairFree (s.serving p) = false → ∃ u, Acts .slotBoundary s u ∧ u.mem = s.mem ∧
          u.prompt.slot = (i + 1) % 256 ∧ u.prompt.waiting = s.prompt.waiting ∧
          oneMore s u Fld.PS_SLOTMISS_COUNT 0)) ∧
    (∀ (p : PairId) m, (s.pair p.toNat).phase = .dispatched → (s.pair p.toNat).msg = some m →
      (s.pair p.toNat).dispAt + 40 ≤ s.now →
      ∃ s', exec (.handlerEntry p) s = .next s' ∧ s'.mem = s.mem ∧ (s'.pair p.toNat).phase = .running ∧
        Dispatched s s' (pairCores p.toNat).1 m ∧ Dispatched s s' (pairCores p.toNat).2 m) ∧
    (s.flag Fld.PS_STS_SWPEND = true → i = 0 → s.prompt.seriesAt ≤ s.now * 1000 → ∀ c, c = Instr.bankSwitch ∨ c = .slotBoundary →
      ∃ u, Acts c s u ∧ u.mem = s.mem ∧
        u.get Fld.PS_STS_ABANK = s.get Fld.PS_BANK_SEL ∧ u.get Fld.PS_STS_SWPEND = 0) ∧
    (∀ (g : BitVec 4) m t, s.oldest g.toNat = some m → s.cfg Fld.PS_FBWAIT_US ≠ 0 →
      m.since + 1000 * s.cfg Fld.PS_FBWAIT_US < s.now → s.porter.store = [] →
      destOf (s.cfg Fld.PS_GFB_DEST (16 * m.group)) = .thread t → s.takesHeaders t = true → s.gated (t / 256) = false →
      (s.thr t).mailbox.length < 8 →
      ∃ u, Acts (.fallback g) s u ∧ u.mem = s.mem ∧ u.prompt.waiting = s.prompt.waiting.erase m ∧
        (u.thr t).mailbox = (s.thr t).mailbox ++ [{ m.hdr with cls := 0 }] ∧ oneMore s u Fld.PS_FALLBK_COUNT 0) ∧
    ∀ n : BitVec 4, n.toNat < 9 →
      (s.fillPrompt.condFails n.toNat = false → ∃ s', exec (.conditionClear n) s = .next s' ∧ s'.mem = s.mem ∧
        bitOf (s'.get Fld.PS_COND_COND) n.toNat = false) ∧
      (s.fillPrompt.condFails n.toNat = true → ∃ s', exec (.conditionClear n) s = .next s' ∧ s'.mem = s.mem ∧
        s'.get Fld.PS_COND_COND = s.get Fld.PS_COND_COND)

/-- What ends or restarts a run: a budget exceeded is flagged; DONE of one Twin alone for 8 beats is a timing disagreement,
recorded, and the first of a run stops it; a stopped run is entered again with the second mark; a runaway run is counted and
discarded, and its pair idle. -/
def Obligations.MeteredRuns : Prop :=
  ∀ (s : State),
    (∀ c : CoreId, (s.thr (4 * c.toNat)).tstate = .meteredRun → (s.core c.toNat).budget < (s.core c.toNat).beats →
      ∃ s', exec (.budget c) s = .next s' ∧ s'.mem = s.mem ∧ s'.get Fld.CO_STS_BUDGET (coOff c.toNat) = 1) ∧
    ∀ p : PairId,
      let n := p.toNat
      let x := s.pair n
      (∀ d, x.phase = .running → x.second = false → (s.core (pairCores n).1).doneAt = some d →
        (s.core (pairCores n).2).doneAt = none → d.1 + 8 ≤ (s.core (pairCores n).2).beats → NoFaults s →
        ∃ s', exec (.doneTiming p) s = .next s' ∧ s'.mem = s.mem ∧ (s'.pair n).phase = .stopped ∧
          s'.reg Reg.AS_ACCLOG0 = BitVec.ofNat 32 (n + ((x.msg.map (·.group)).getD 0) * 64 + 2048) ∧
          s'.reg Reg.AS_ACCLOG1 = BitVec.ofNat 32 (d.1 % 8192)) ∧
      (∀ m, x.phase = .stopped → x.msg = some m → s.holding = false →
        ∃ s', exec (.restart p) s = .next s' ∧ s'.mem = s.mem ∧ (s'.pair n).phase = .running ∧
          (s'.pair n).second = true ∧ (s'.pair n).msg = some m ∧
          Dispatched s s' (pairCores n).1 m ∧ Dispatched s s' (pairCores n).2 m) ∧
      (x.phase = .running → (s.core (pairCores n).1).doneAt = none → (s.core (pairCores n).2).doneAt = none →
        4096 ≤ (s.core (pairCores n).1).beats →
        ∃ s', exec (.runaway p) s = .next s' ∧ s'.mem = s.mem ∧ PairIdle s' n ∧ oneMore s s' Fld.AS_CNT_RUNAWAY_COUNT 0)

/-- The Accord: the second DONE of a pair whose buffers and signatures agree begins the release; a released data write stores
its eight bytes, a released RELS writes 0, a released SEND joins the port's Prompt egress queue, each leaving the buffer;
with the buffer empty the pair is idle. -/
def Obligations.AccordReleases : Prop :=
  ∀ (s : State) (p : PairId),
    let n := p.toNat
    let c := (pairCores n).1
    (∀ (t : Tid) (o : Nat) (y : Nat × Word), Ready s t → t.toNat = 4 * c → o = (pairCores n).2 →
      (s.thr t.toNat).mode = true → (s.pair n).phase = .running → s.sendsPending t.toNat = false →
      (s.core o).doneAt = some y → (s.core c).cbuf = (s.core o).cbuf →
      signature (s.thr t.toNat) ((s.core c).beats + 1) = y.2 → (s.core c).beats + 1 ≤ y.1 + 8 → y.1 ≤ (s.core c).beats + 9 →
      ∃ s', exec (.done t) s = .next s' ∧ s'.mem = s.mem ∧ (s'.pair n).phase = .releasing ∧
        (s'.thr t.toNat).tstate = .meteredIdle) ∧
    ((s.pair n).phase = .releasing →
      (∀ e, (s.core c).cbuf = [e] → s.releaseWait c e = .go → s.memCanonical → Clean s →
        (e.kind = 0 → e.mask = 0xFF →
          ∃ s', exec (.release p) s = .next s' ∧ (s'.core c).cbuf = [] ∧
            s'.bytes (physOf c e.addr.toNat) 8 = leBytes 8 e.data.toNat ∧
            ∀ x, x < physOf c e.addr.toNat ∨ physOf c e.addr.toNat + 8 ≤ x → s'.byte x = s.byte x) ∧
        (e.kind = 2 →
          ∃ s', exec (.release p) s = .next s' ∧ (s'.core c).cbuf = [] ∧
            s'.bytes (physOf c e.addr.toNat) 8 = leBytes 8 0 ∧
            ∀ x, x < physOf c e.addr.toNat ∨ physOf c e.addr.toNat + 8 ≤ x → s'.byte x = s.byte x) ∧
        (e.kind = 6 →
          ∃ u f, Acts (.release p) s u ∧ u.mem = s.mem ∧ (u.core c).cbuf = [] ∧
            u.egressQ (e.data.toNat / 65536 % 8) 0 = s.egressQ (e.data.toNat / 65536 % 8) 0 ++ [f] ∧
            f.addr = globalAddr c e.addr.toNat ∧ f.len = e.data.toNat % 65536 ∧ f.src = .accord n)) ∧
      ((s.core c).cbuf = [] → ∃ s', exec (.accordComplete p) s = .next s' ∧ s'.mem = s.mem ∧ PairIdle s' n))

namespace Sys2Proof.Says

open Sys2Proof.Machine

/-- Where the routing nibble of device record type `ty` names an enabled sub-ring with room, the record joins its end: `n`
items with the time and `body` (11 R362, R363, R370). -/
def Recorded (s u : State) (ty n : Nat) (body : List Byte) : Prop :=
  let p := (s.route ty).2
  (s.route ty).1 = true → s.ringOn p = true → (s.ring p).items.length + n ≤ s.ringSize p →
    (u.ring p).items = (s.ring p).items ++ recordItems p ty n (leBytes 8 s.tb.now.toNat ++ body)

end Sys2Proof.Says

/-! ### The Tally -/

/-- The ring's reader: TY_POP answers the header of the oldest item and copies the item to TY_ITEM0 to TY_ITEM7; TY_DROP
discards the rest of the record in reading; TY_PUSH files a software record of a valid block. -/
def Sys2Proof.Says.TallyReader : Prop :=
  ∀ (s : State) (rq : Requester) (v : Word32) (d : RegDesc) (k b : Nat),
    (∀ p it rest, Serves s rq Reg.TY_POP false d k b → s.tally.reader = none → p < 4 → (s.ring p).items = it :: rest →
      (∀ q, q < p → (s.ring q).items = []) →
      ∃ s', exec (.tyPop rq) s = .next s' ∧ s'.mem = s.mem ∧ (s'.ring p).items = rest ∧
        s'.tally.reader = (if itemLast it then none else some p) ∧
        (∀ i, i < 8 → s'.reg (Reg.TY_ITEM + 4 * i) = it.getD i 0) ∧
        ∃ more, s'.emitted = s.emitted ++ more ++ [.reply rq Reg.TY_POP (it.headD 0)]) ∧
    (∀ p, Serves s rq Reg.TY_DROP true d k b → s.tally.reader = some p → s.tally.broken = none →
      ∃ u : State, exec (.tyDrop rq v) s = .next u.settleOn ∧ u.mem = s.mem ∧ u.tally.reader = none ∧
        (u.ring p).items = (s.ring p).items.drop (oldestLen (s.ring p).items)) ∧
    ∀ a p n, Serves s rq Reg.TY_PUSH true d k b → Clean s → blockRef v = some a → p = bitsGet v 0 2 →
      n = bitsGet v 2 3 + 1 → blockPlace a (32 * n) = true → 0xC0 ≤ (s.byte (a + 1)).toNat → s.ringOn p = true →
      (s.ring p).items.length + n ≤ s.ringSize p →
      ∃ u : State, exec (.tyPush rq v) s = .next u.settleOn ∧ u.mem = s.mem ∧
        (u.ring p).items = (s.ring p).items ++ recordItems p (s.byte (a + 1)).toNat n
          ((List.range n).flatMap (fun i => s.bytes (a + 32 * i + 4) 28))

/-- What the Tally measures: a refresh of the sensors; the periodic records of sensors and of ADC results; an ADC conversion
of the channel whose turn it is gives, with no averaging, the result; a capture of the Timebase at a selected edge; what was
written to a PWM generator takes effect at a boundary of its period; a snapshot of the
histograms; a meter's record with its excess since the last. -/
def Sys2Proof.Says.TallyMeasures : Prop :=
  ∀ (s : State), s.dieOn = true →
    (∀ m, ∃ s', exec (.sensorRefresh m) s = .next s' ∧ s'.mem = s.mem ∧
      (∀ i, i < 16 → s'.reg (Reg.TY_TEMP + 4 * i) = sensorWord (((m.temps[i]?).join).map (·.toNat))) ∧
      ∀ r, r < 8 → s'.reg (Reg.TY_VSNS + 4 * r) = sensorWord (((m.vsns[r]?).join).map (·.toNat))) ∧
    (s.get Fld.TY_SCFG_PER ≠ 0 → s.tally.sensorAt + 1000 * s.get Fld.TY_SCFG_PER ≤ s.now →
      ∃ u, Acts .sensorRecord s u ∧ u.mem = s.mem ∧ u.tally.sensorAt = s.now ∧
        Recorded s u 0x01 2 ((List.range 16).flatMap s.tempBytes ++
          (List.range 8).flatMap (fun r => leBytes 2 (s.get Fld.TY_VSNS_VAL (4 * r))))) ∧
    (s.get Fld.TY_ADCCTL_RECPER ≠ 0 → s.tally.adcRecAt + 1000000 * s.get Fld.TY_ADCCTL_RECPER ≤ s.now →
      ∃ u, Acts .adcRecord s u ∧ u.mem = s.mem ∧ u.tally.adcRecAt = s.now ∧
        Recorded s u 0x02 2 ((List.range 16).flatMap (fun c => leBytes 2
          (if bitOf (s.get Fld.TY_ADCCTL_CHEN) c then s.get Fld.TY_ADC_VALUE (4 * c) else 0xFFFF)))) ∧
    (∀ (ch : BitVec 4) (v : BitVec 12), s.adcDue = some ch.toNat →
      s.get Fld.TY_ADCCTL_AVG = 0 → s.adcChan ch.toNat = {} →
      ∃ s', exec (.adcConversion ch v) s = .next s' ∧ s'.mem = s.mem ∧
        s'.get Fld.TY_ADC_VALUE (4 * ch.toNat) = v.toNat ∧ s'.get Fld.TY_ADC_VALID (4 * ch.toNat) = 1) ∧
    (∀ (e : BitVec 7) rising, e.toNat < 96 → s.get Fld.TY_CE_MODE (4 * e.toNat) = 2 →
      bitOf (s.get Fld.TY_CE_EDGE (4 * e.toNat)) (if rising then 0 else 1) = true → s.tbTicks = true →
      (s.arrives (32 + e.toNat)).1 = true →
      ∃ s', exec (.capture e rising) s = .next s' ∧ s'.mem = s.mem ∧
        s'.reg (Reg.TY_CAP_HI + 8 * e.toNat) ++ s'.reg (Reg.TY_CAP_LO + 8 * e.toNat) = s.tb.now ∧
        s'.get Fld.TY_CE_LASTEDGE (4 * e.toNat) = b2n rising) ∧
    (∀ g : BitVec 3, let per := s.cfg Fld.TY_PWM_PER_NS (4 * g.toNat)
      let boundary : Prop := s.tbTicks = true ∧
        (per = 0 ∨ (s.tb.now - 1).toNat / max 16 per ≠ s.tb.now.toNat / max 16 per)
      (boundary → ∃ s', exec (.pwmPeriod g) s = .next s' ∧ s'.mem = s.mem ∧ s'.regs = s.regs ∧
        s'.effReg (Reg.TY_PWM_PER + 4 * g.toNat) = s.reg (Reg.TY_PWM_PER + 4 * g.toNat) ∧
        s'.effReg (Reg.TY_PWM_HIGH + 4 * g.toNat) = s.reg (Reg.TY_PWM_HIGH + 4 * g.toNat)) ∧
      (¬ boundary → exec (.pwmPeriod g) s = .next s)) ∧
    (s.get Fld.TY_HCTL_PER ≠ 0 → s.tally.snapAt + 1000000 * s.get Fld.TY_HCTL_PER ≤ s.now →
      keysRise s.tally.hists = true →
      ∃ u, Acts .snapshotPeriod s u ∧ u.mem = s.mem ∧ u.tally.snapAt = s.now ∧ ∀ h, h < 5 →
        u.liveBins h = List.replicate 32 0 ∧
        ∀ k, k < 32 → u.reg (Reg.TY_HBIN + 128 * h + 4 * k) = BitVec.ofNat 32 ((s.liveBins h).getD k 0)) ∧
    ∀ m : BitVec 16, m.toNat < 1024 → (s.meter m.toNat).exc ≠ 0 →
      ((tblGet s.tally.meterAt m.toNat).getD 0) + 1000000 ≤ s.now →
      ∃ u, Acts (.meterRecord m) s u ∧ u.mem = s.mem ∧ (u.meter m.toNat).exc = 0 ∧ (u.meter m.toNat).drops = 0 ∧
        Recorded s u 0x05 1 (leBytes 2 m.toNat ++ [0, 0] ++
          leBytes 4 (s.get Fld.TY_SM_CFG_SESSION (16 * m.toNat)) ++ leBytes 4 (s.meter m.toNat).exc ++
          leBytes 4 (s.meter m.toNat).drops)

/-- The Tally: its ring and its measurements. -/
def Obligations.TallyRecords : Prop := TallyReader ∧ TallyMeasures


/-! ### The Bellows and the Assay -/

/-- The governor: an evaluation notes the power and the rings, and steps an Elastic region's setpoint up for load and down
without; a Metered region whose stage delay and margin exceed the beat rises by 2 codes; a word's slack below SLKMIN raises its Metered region by 2 codes, an overrun by 5, up to MAX; UNSHED lets the
region shed last wake. -/
def Obligations.BellowsSteps : Prop :=
  ∀ (s : State),
    (∀ (m : BellowsInputs) (r : Nat) x, m.regions.length = 8 → m.regions[r]? = some x → s.dieOn = true →
      s.flag Fld.BW_CTL_EN = true → s.steered r = true → s.regionMetered r = false → s.powerCap = 0 →
      s.bellows.shed.contains r = false →
      s.envMin r ≤ s.setpt r → s.setpt r ≤ s.envMax r →
      ∃ s', exec (.bellowsEvaluation m) s = .next s' ∧ s'.mem = s.mem ∧
        s'.get Fld.BW_PWR_AVG = min 4095 m.power ∧ s'.get Fld.BW_RING_DLY (4 * r) = x.dly.toNat ∧
        (s.mostlyBusy r = true → s'.setpt r = min (s.setpt r + 1) (s.envMax r)) ∧
        (s.mostlyBusy r = false → s.mostlyIdle r = true → s.fullestMailbox r ≤ 1 → s'.setpt r = max (s.setpt r - 1) (s.envMin r)) ∧
        (s.mostlyBusy r = false → s.mostlyIdle r = false → s.fullestMailbox r < 4 → s'.setpt r = s.setpt r)) ∧
    (∀ (m : BellowsInputs) (r : Nat) x, m.regions.length = 8 → m.regions[r]? = some x → s.dieOn = true →
      s.flag Fld.BW_CTL_EN = true → s.steered r = true → s.regionMetered r = true →
      s.beatPs < x.dly.toNat + s.margin r x → s.envMin r ≤ s.setpt r → s.setpt r < s.envMax r →
      min 4095 m.power + (Config.raisePower r (s.setpt r) (min 2 (s.envMax r - s.setpt r))).toNat ≤ s.ceiling →
      ∃ s', exec (.bellowsEvaluation m) s = .next s' ∧ s'.mem = s.mem ∧
        s'.setpt r = min (s.setpt r + 2) (s.envMax r) ∧ s'.get Fld.BW_SET_SHORT (4 * r) = 0) ∧
    (∀ (c : CoreId) (ps : BitVec 12), (s.thr (4 * c.toNat)).tstate = .meteredRun →
      let r := c.toNat / 64
      let v := s.setpt r
      let room (n : Nat) : Prop := v < s.envMax r ∧ s.power_ + (Config.raisePower r v (min n (s.envMax r - v))).toNat ≤ s.ceiling
      s.raisable c.toNat = true →
      (room 2 → ps.toNat < s.cfg Fld.BW_MCFG_SLKMIN → ∃ s', exec (.slackRaise c ps) s = .next s' ∧ s'.mem = s.mem ∧
        s'.get Fld.CO_SLACK_MINPS (coOff c.toNat) = min (s.get Fld.CO_SLACK_MINPS (coOff c.toNat)) ps.toNat ∧
        s'.setpt r = min (v + 2) (s.envMax r)) ∧
      (room 5 → ∃ s', exec (.overrunRaise c false) s = .next s' ∧ s'.mem = s.mem ∧
        s'.get Fld.CO_STS_BOVR (coOff c.toNat) = 1 ∧ s'.get Fld.CO_SLACK_MINPS (coOff c.toNat) = 0 ∧
        s'.get Fld.BW_STS_OVRRAISE = 1 ∧ s'.setpt r = min (v + 5) (s.envMax r))) ∧
    ∀ r, s.nextUnshed = some r → s.flag Fld.BW_CTL_EN = true → s.underLong = true → s.unshedDue = true →
      s.pstate r = 3 ∨ s.pstate r = 4 →
      ∃ u, Acts .unshed s u ∧ u.mem = s.mem ∧ u.bellows.shed = s.bellows.shed.erase r ∧
        u.get Fld.BW_SET_SHED (4 * r) = 0 ∧ r ∈ u.power.wakeReq

/-- Reports and tests: a report with no open matter is logged with the time, opens a window and queues the fault; TEST_START
takes the first fault that can be tested and holds its cores; a pass is a transient verdict, a failure a lasting one whose
unit then awaits retirement. Of a pair the two cores are tested one after the other. -/
def Sys2Proof.Says.FaultsAndVerdicts : Prop :=
  ∀ (s : State),
    let k := s.assay.count
    let n := 16 * (k % 32)
    let logged (s' : State) (unit : Word32) (cause detail : Nat) : Prop :=
      s'.mem = s.mem ∧ s'.reg (Reg.AS_LOG_UNIT + n) = unit ∧
      s'.reg (Reg.AS_LOG_INFO + n) = BitVec.ofNat 32 (cause + detail * 65536) ∧
      s'.reg (Reg.AS_LOG_T_HI + n) ++ s'.reg (Reg.AS_LOG_T_LO + n) = s.tb.now ∧ s'.get Fld.AS_STS_WOPEN = 1 ∧
      s'.assay.queue = s.assay.queue ++ [{ unit := unit.toNat, cause := cause, log := k }] ∧ s'.assay.count = k + 1
    (∀ (unit : Word32) (cause : BitVec 4) (detail : BitVec 16), s.dieOn = true → NoFaults s →
      (s.assay.window = none ∨ s.get Fld.AS_STS_WOPEN = 1) → unitDefined unit.toNat = true → cause.toNat ≤ 10 →
      ∃ s', exec (.errorReport unit cause detail) s = .next s' ∧ logged s' unit cause.toNat detail.toNat ∧
        (isRow unit.toNat = true → cause = 1 → detail.toNat < 64 →
          rowAddr unit.toNat detail.toNat ∈ s'.eccU)) ∧
    (∀ rq v d j b, Serves s rq Reg.AS_TREQ true d j b → s.dieOn = true → NoFaults s →
      (s.assay.window = none ∨ s.get Fld.AS_STS_WOPEN = 1) → unitDefined v.toNat = true → unitClass v.toNat ≠ 15 →
      ∃ s', exec (.asTreq rq v) s = .next s' ∧ logged s' v 9 0) ∧
    (∀ f r, s.assay.queue = f :: r → s.assay.running = [] → s.meteredRole = false → s.safeHold = false →
      ∃ s', exec .testStart s = .next s' ∧ s'.mem = s.mem ∧
        s'.assay.running = [{ f with startedAt := some s.now }] ∧ s'.assay.queue = r.filter (fun q => q.log != f.log) ∧
        ∀ c ∈ coresUnder (testUnit f), (s'.core c).tested = true) ∧
    ∀ (unit : Word32) f, s.assay.running = [f] → testUnit f = unit.toNat →
      (s.testPassed f true = true → unitClass f.unit = 15 → f.part = 0 → ∃ s', exec (.verdict unit true) s = .next s' ∧
        s'.mem = s.mem ∧ s'.assay.running = [] ∧
        s'.assay.queue = insertFault { f with part := 1, startedAt := none } s.assay.queue) ∧
      (s.testPassed f true = true → (unitClass f.unit = 15 → f.part ≠ 0) → s.transients f.unit < 2 → ∃ s', exec (.verdict unit true) s = .next s' ∧ s'.mem = s.mem ∧
        s'.assay.running = [] ∧ oneMore s s' Fld.AS_CNT_TRANS_COUNT 0 ∧
        (k ≤ f.log + 32 → s'.get Fld.AS_LOG_INFO_VERDICT (16 * (f.log % 32)) = 1 ∧
          s'.get Fld.AS_LOG_INFO_DONE (16 * (f.log % 32)) = 1) ∧
        ∀ c ∈ coresUnder (testUnit f), (s'.core c).tested = false) ∧
      (s.testPassed f false = false → holdsSteward f.unit = false → isSharedBlock f.unit = false → s.assay.faults = [(f.unit, 0)] →
        ∃ s', exec (.verdict unit false) s = .next s' ∧ s'.mem = s.mem ∧ s'.assay.running = [] ∧
          s'.assay.retiring = s.assay.retiring ++ [f] ∧ oneMore s s' Fld.AS_CNT_LAST_COUNT 0 ∧
          (k ≤ f.log + 32 → s'.get Fld.AS_LOG_INFO_VERDICT (16 * (f.log % 32)) = 2))

/-- RETIREMENT of a core disables its four threads and marks it; a window whose time is over closes once its faults are
complete, else is marked late; RESUME whose test passes ends Safe Hold. -/
def Sys2Proof.Says.RecoveryEnds : Prop :=
  ∀ (s : State),
    (∀ (unit : Word32) f, s.assay.retiring = [f] → f.unit = unit.toNat → unitClass f.unit = 0 → unitIndex f.unit < 512 →
      s.coreRetired (unitIndex f.unit) = false → s.meteredRole = false → s.answersOwed f.unit = false →
      ∃ s', exec (.retirement unit) s = .next s' ∧ s'.mem = s.mem ∧ s'.coreRetired (unitIndex f.unit) = true ∧
        s'.assay.retiring = [] ∧ ∀ i, i < 4 → (s'.thr (4 * unitIndex f.unit + i)).tstate = .disabled) ∧
    (s.windowOver = true →
      (s.faultsDone = true → ∃ s', exec .recoveryWindow s = .next s' ∧ s'.mem = s.mem ∧ s'.assay.window = none ∧
        s'.get Fld.AS_STS_WOPEN = 0) ∧
      (s.faultsDone = false → ∃ s', exec .recoveryWindow s = .next s' ∧ s'.mem = s.mem ∧
        s'.assay.window = s.assay.window ∧ s'.get Fld.AS_STS_WLATE = 1)) ∧
    ∀ rq v d k b, Serves s rq Reg.AS_HOLD true d k b → s.safeHold = true → s.assay.entering = none →
      ∃ s', exec (.resume rq v true) s = .next s' ∧ s'.mem = s.mem ∧ s'.safeHold = false

/-- From a report through test and verdict to retirement and the end of recovery. -/
def Obligations.AssayRecovery : Prop := FaultsAndVerdicts ∧ RecoveryEnds


/-! ### Power and reset -/

namespace Sys2Proof.Says

open Sys2Proof.Machine

/-- A wake has begun: LL_WKREASON says why, the supplies start and the die waits for REG_READY (12 R399). -/
def Woken (s s' : State) (kind src : Nat) : Prop :=
  s'.mem = s.mem ∧ s'.dstate = 2 ∧ s'.get Fld.LL_WKREASON_KIND = kind ∧ s'.get Fld.LL_WKREASON_SRC = src ∧
    s'.get Fld.LL_STS_VIOSW = 1 ∧ s'.get Fld.LL_STS_LDOLP = 0 ∧ s'.power.upStep = 1 ∧ s'.power.upWake = true

/-- A valid entry of the wake set names source `n`, which can arise in Dark (09 R313; 12 R398). -/
def Listed (s : State) (n : Nat) : Prop :=
  (n = 23 ∨ (32 ≤ n ∧ n ≤ 47) ∨ (192 ≤ n ∧ n ≤ 199)) ∧
    ∃ e, e < 64 ∧ s.get Fld.CR_WAKE_VALID (4 * e) = 1 ∧ s.get Fld.CR_WAKE_SRC (4 * e) = n

/-- The device is in Dark: the Lamplighter keeps its registers, every memory and the rest of the die are at reset. -/
def InDark (s s' : State) : Prop :=
  s'.dstate = 1 ∧ s'.get Fld.LL_STS_LDOLP = 1 ∧ s'.get Fld.LL_STS_VIOSW = 0 ∧ (∀ p, s'.byte p = 0) ∧ s'.threads = [] ∧
    s'.power.dynAddr = s.power.dynAddr ∧ s'.tb.now = s.tb.now ∧ (∀ k, k < 64 → s'.reg (Reg.CR_WAKE + 4 * k) = s.reg (Reg.CR_WAKE + 4 * k)) ∧
    ∀ a, Reg.LL_PMDATA < a → a < 0x71000 → s'.reg a = s.reg a

end Sys2Proof.Says

/-- A region's life: the idle timer starts Gated entry once the region has been Quiet for IDLE µs; entry ends in
Gated-retained or Gated-off; a wake asked for starts the leaving and is counted; leaving ends powered, with the memories
and threads of an unretained region at reset; a write of RG_PCTL.WAKE asks for the wake. -/
def Obligations.RegionPower : Prop :=
  ∀ (s : State) (r : RegionId),
    let n := r.toNat
    let idle := s.get Fld.RG_PCTL_IDLE (rgOff n)
    (∀ t, tblGet s.power.quietAt n = some t → idle ≠ 0 → s.dieOn = true → s.regionQuiet n = true → t + 1000 * idle ≤ s.now →
      ∃ s', exec (.idleTimer r) s = .next s' ∧ s'.mem = s.mem ∧ s'.cores = s.cores ∧ s'.pstate n = 2) ∧
    (∀ t ret, tblGet s.power.gating n = some (t, ret) → s.power.wakeReq = [] →
      (∀ kx ∈ s.arbs, arbRegion kx.1 = some n → kx.2.out = []) →
      ∃ s', exec (.gatedEntry r) s = .next s' ∧ s'.mem = s.mem ∧ s'.cores = s.cores ∧
        s'.pstate n = if ret then 3 else 4) ∧
    (n ∈ s.power.wakeReq → n ∉ s.bellows.shed → s.pstate n = 3 ∨ s.pstate n = 4 →
      ∃ s', exec (.regionWake r) s = .next s' ∧ s'.mem = s.mem ∧ s'.cores = s.cores ∧ s'.pstate n = 5 ∧
        oneMore s s' Fld.RG_PSTS_WAKES (rgOff n)) ∧
    (∀ t ret, tblGet s.power.leaving n = some (t, ret) → n ∉ s.bellows.shed →
      ∃ s', exec (.leavingGated r) s = .next s' ∧ s'.pstate n = 0 ∧
        (ret = true → s'.mem = s.mem ∧ s'.cores = s.cores) ∧
        (ret = false → (∀ p, s'.byte p = if inRegion n p then 0 else s.byte p) ∧
          ∀ t, 256 ≤ t → t / 256 = n → (s'.thr t).tstate = .disabled)) ∧
    ∀ rq v d k b, Serves s rq (Reg.RG_PCTL + rgOff n) true d k b → s.regionRetired n = false →
      s.pstate n = 2 ∨ s.pstate n = 3 ∨ s.pstate n = 4 →
      ∃ u : State, exec (.rgWake rq r v) s = .next u.settleOn ∧ u.mem = s.mem ∧ n ∈ u.power.wakeReq

/-- Dark entry: LL_CMD.DARK and the device idle timer start it (Safe Hold refuses it); DRAIN goes on once the Prompt and
Assured messages are complete and counts the Bulk and Idle frames dropped, or gives up after LL_DRAIN; L2_TIMEOUT gives
up; DARK_ENTERED, an over-temperature and a loss of VIN_CORE begin the closing, for which the next crystal edge saves the
Timebase, and with that saved end in Dark (no rail to switch off). -/
def Obligations.DarkEntries : Prop :=
  ∀ (s : State),
    let begun (u : State) : Prop := u.mem = s.mem ∧ u.dstate = 5 ∧ u.power.dkStep = 1 ∧ u.power.dkAt = s.now
    let givenUp (u : State) (cause : Nat) : Prop :=
      u.mem = s.mem ∧ u.dstate = (if s.allGated = true then 4 else 3) ∧ u.power.dkStep = 0 ∧
        u.get Fld.LL_STS_DKREF = cause ∧ u.get Fld.LL_EVT_CODE = 4
    let still : Prop := s.get Fld.LL_STRAP_PMMST = 0 ∧ s.railsDone = true
    let saved : Prop := if s.power.dkStep = 3 then s.tb.onEdge ≠ .save else s.tb.coast.isSome = true
    let closing (s' : State) : Prop := s'.mem = s.mem ∧ s'.dstate = 5 ∧ s'.power.dkStep = 3 ∧ s'.tb.onEdge = .save
    (∀ rq v d k b, Serves s rq Reg.LL_CMD true d k b → s.dstate = 3 ∨ s.dstate = 4 →
      (s.holding = false → ∃ u : State, exec (.dark rq v) s = .next u.settleOn ∧ begun u) ∧
      (s.holding = true → ∃ u : State, exec (.dark rq v) s = .next u.settleOn ∧ u.mem = s.mem ∧ u.dstate = s.dstate ∧
        u.get Fld.LL_STS_DKREF = 1 ∧ u.get Fld.LL_EVT_CODE = 4)) ∧
    (∀ t, s.power.bankedAt = some t → s.dstate = 4 → s.holding = false → s.get Fld.LL_DIDLE_MS ≠ 0 →
      t + 1000000 * s.get Fld.LL_DIDLE_MS ≤ s.now → ∃ u, Acts .deviceIdleTimer s u ∧ begun u) ∧
    (s.power.dkStep = 1 →
      (s.messagesDone = true → ∃ u, Acts .drain s u ∧ u.power.dkStep = 2 ∧ u.power.dkAt = s.now ∧
        u.get Fld.LL_DKDROP_BULK = min (s.get Fld.LL_DKDROP_BULK + (s.porter.held.filter (fun h => h.cls == 2)).length) 65535 ∧
        u.get Fld.LL_DKDROP_IDLE = min (s.get Fld.LL_DKDROP_IDLE + (s.porter.held.filter (fun h => h.cls == 3)).length) 65535) ∧
      (s.messagesDone = false → s.power.dkAt + 1000000 * max 1 (s.get Fld.LL_DRAIN_MS) ≤ s.now →
        ∃ u, Acts .drain s u ∧ givenUp u 2)) ∧
    (s.power.dkStep = 2 → s.power.dkAt + 1000000 ≤ s.now → ∃ u, Acts .l2Timeout s u ∧ givenUp u 3) ∧
    (s.power.dkStep = 2 ∨ s.power.dkStep = 3 → s.power.dkWake = [] → still → saved →
      ∃ s', exec .darkEntered s = .next s' ∧ InDark s s') ∧
    (s.power.dkStep = 2 → s.tb.coast = none → ∃ s', exec .darkEntered s = .next s' ∧ closing s') ∧
    (s.dieOn = true → (∃ kv ∈ s.power.hotAt, kv.2 + 100000 ≤ s.now) →
      (s.power.dkWake = [] → still → saved →
        ∃ s', exec .thermalShutdown s = .next s' ∧ InDark s s' ∧ s'.get Fld.LL_RST_CAUSE_THERM = 1 ∧ s'.faultLow = true) ∧
      (s.tb.coast = none → ∃ s', exec .thermalShutdown s = .next s' ∧ closing s' ∧
        s'.get Fld.LL_RST_CAUSE_THERM = 1 ∧ s'.faultLow = true)) ∧
    (s.power.resetLow = [] → 3 ≤ s.dstate →
      (s.power.dkWake = [] → still → saved →
        ∃ s', exec .vinCoreLoss s = .next s' ∧ InDark s s' ∧ s'.get Fld.LL_RST_CAUSE_VCORE = 1 ∧ s'.faultLow = true ∧
          s'.power.supplyOk = false) ∧
      (s.power.dkStep ≠ 3 → s.tb.coast = none → ∃ s', exec .vinCoreLoss s = .next s' ∧ closing s' ∧
        s'.get Fld.LL_RST_CAUSE_VCORE = 1 ∧ s'.faultLow = true ∧ s'.power.supplyOk = false))

/-- In Dark a wake event of an enabled kind, an entry of the wake set, LL_CMD.WAKE and the alarm begin a wake, and
LL_CMD.RETRY begins it again after a failure; an event in steps 1 to 5 of Dark entry abandons the entry. -/
def Sys2Proof.Says.WakesBegin : Prop :=
  ∀ (s : State),
    (s.power.resetLow = [] → s.dstate = 1 → s.flag Fld.LL_STS_WKF = false →
      (s.get Fld.LL_CTL_I3CWK = 1 → ∃ s', exec (.wakeEvent .addressMatch) s = .next s' ∧ Woken s s' 1 0) ∧
      (∃ s', exec (.wakeEvent .command) s = .next s' ∧ Woken s s' 2 0) ∧
      (s.get Fld.LL_CTL_SBWK = 1 → ∃ s', exec (.wakeEvent .ucie) s = .next s' ∧ Woken s s' 3 0) ∧
      (∀ n : SourceId, Listed s n.toNat →
        (∃ s', exec (.wakeEvent (.wakeSet n)) s = .next s' ∧ Woken s s' 4 n.toNat ∧ n.toNat ∈ s'.crier.latched) ∧
        ∃ s', exec (.wakeSetEvent n) s = .next s' ∧ Woken s s' 4 n.toNat ∧ n.toNat ∈ s'.crier.latched) ∧
      (∀ a, a = (s.reg Reg.LL_ALARM_LO).toNat + s.get Fld.LL_ALARM_HI_VAL * 2 ^ 32 → a ≠ 0 → s.tb.xtal.toNat = a →
        s.power.alarmed ≠ some a → Listed s 23 →
        ∃ s', exec .alarm s = .next s' ∧ Woken s s' 4 23 ∧ s'.power.alarmed = some a ∧ s'.get Fld.LL_EVT_CODE = 9)) ∧
    (∀ rq v d k b, Serves s rq Reg.LL_CMD true d k b → s.dstate = 1 →
      (s.flag Fld.LL_STS_WKF = false → ∃ s', exec (.wake rq v) s = .next s' ∧ Woken s s' 2 0) ∧
      (s.flag Fld.LL_STS_WKF = true → ∃ s', exec (.retry rq v) s = .next s' ∧ s'.mem = s.mem ∧ s'.dstate = 2 ∧
        s'.get Fld.LL_WKREASON_KIND = s.get Fld.LL_WKREASON_KIND ∧ s'.power.upStep = 1 ∧
        s'.get Fld.LL_STS_WKF = 0 ∧ s'.get Fld.LL_WKREASON_PEND = 0)) ∧
    (s.power.resetLow = [] → s.dstate = 1 → s.flag Fld.LL_STS_WKF = true →
      ∃ s', exec (.wakeEvent .command) s = .next s' ∧ s'.mem = s.mem ∧ s'.dstate = 1 ∧ s'.get Fld.LL_WKREASON_PEND = 1) ∧
    (s.power.resetLow = [] → s.dstate = 5 → s.power.dkStep ≠ 3 →
      ∃ s', exec (.wakeEvent .command) s = .next s' ∧ s'.mem = s.mem ∧ s'.dstate = (if s.allGated = true then 4 else 3) ∧
        s'.power.dkStep = 0 ∧ s'.get Fld.LL_STS_DKREF = 4)

/-- The steps of a wake or a boot: REG_READY starts the PLLs; PLL_LOCK starts the clocks, at boot the memory clear too; a
failure is recorded, tried again after 1 ms, and the second ends in Dark with FAULT_N low; WAKE_COMPLETE is Lit. -/
def Sys2Proof.Says.WakesEnd : Prop :=
  ∀ (s : State),
    (s.power.upStep = 1 → s.power.resetLow = [] →
      exec .regReady s = .next (s.modPower (fun x => { x with upStep := 2, upAt := s.now }))) ∧
    (s.power.upStep = 2 → s.power.resetLow = [] →
      (s.power.upWake = true → ∃ s', exec .pllLock s = .next s' ∧ s'.mem = s.mem ∧ s'.power.upStep = 3 ∧
        s'.get Fld.TB_STS_PLLLOCK = 1) ∧
      (s.power.upWake = false → ∃ u, Acts .pllLock s u ∧ u.mem = s.mem ∧ u.power.upStep = 0 ∧
        u.boot.clearing = true ∧ u.get Fld.TB_STS_PLLLOCK = 1)) ∧
    (s.power.resetLow = [] → s.power.upStep = 1 → s.power.upAt + 1000 * max 50 (s.get Fld.LL_WK_TMO_US) ≤ s.now →
      ∃ s', exec (.wakeFailure 1) s = .next s' ∧ s'.mem = s.mem ∧ s'.get Fld.LL_WKFAIL_CODE = 1 ∧
        s'.get Fld.LL_STS_VIOSW = 0 ∧
        (s.power.upFails = 0 → s'.get Fld.LL_WKFAIL_ATT = 1 ∧ s'.power.upStep = 4) ∧
        (s.power.upFails ≠ 0 → s'.get Fld.LL_WKFAIL_ATT = 2 ∧ s'.dstate = 1 ∧ s'.get Fld.LL_STS_WKF = 1 ∧
          s'.get Fld.LL_STS_LDOLP = 1 ∧ s'.get Fld.LL_RST_CAUSE_WKFAIL = 1 ∧ s'.get Fld.LL_EVT_CODE = 2 ∧ s'.faultLow = true)) ∧
    (∀ code : BitVec 2, code = 2 ∨ code = 3 → s.power.resetLow = [] → s.power.upStep = 2 → s.power.upAt + 500000 ≤ s.now →
      s.power.upFails = 0 → ∃ s', exec (.wakeFailure code) s = .next s' ∧ s'.mem = s.mem ∧
        s'.get Fld.LL_WKFAIL_CODE = code.toNat ∧ s'.get Fld.LL_WKFAIL_ATT = 1 ∧ s'.power.upStep = 4) ∧
    (s.power.upStep = 4 → s.power.upAt + 1000000 ≤ s.now → ∃ s', exec .wakeRetry s = .next s' ∧ s'.mem = s.mem ∧
      s'.power.upStep = 1 ∧ s'.power.upAt = s.now ∧ s'.get Fld.LL_STS_VIOSW = 1) ∧
    (s.power.upStep = 3 → s.railsDone = true → s.tb.onEdge ≠ .set → ∃ u, Acts .wakeComplete s u ∧ u.mem = s.mem ∧ u.dstate = 3 ∧
      u.power.upStep = 0 ∧ u.boot.clearing = true ∧ u.crier.latched = [] ∧
      u.get Fld.LG_BOOT_DEBUG = b2n (s.pins.bootsel && !s.flag Fld.GL_SEC_DBGLOCK) ∧
      ∀ n ∈ s.crier.latched, isReservedSrc n = false → n ≠ 24 → (u.src n).pend = true)

/-- A wake from its cause to the Lit state. -/
def Obligations.Wakes : Prop := WakesBegin ∧ WakesEnd


/-- The board's events: WAKE_EDGE of the polarity that POL selects is an event of its source, or a wake source in Dark;
CONTROL_ESCAPE_EDGE and HOLD_N set the level of a pin; PMALERT shows in LL_PMSTS and asserts source 24. A PMBus
transaction of the host starts at once on an idle bus; its end gives the data, or after two retries the error; the end of
a rail's DELAY starts the next rail. -/
def Obligations.BoardAndBus : Prop :=
  ∀ (s : State),
    (∀ (n : BitVec 3) rising short, s.power.resetLow = [] →
      let k := n.toNat
      let active : Bool := rising != bitOf (s.get Fld.LL_WAKECFG_POL) k && !(short && bitOf (s.get Fld.LL_WAKECFG_FILT) k)
      (active = true → s.dstate = 3 ∨ s.dstate = 4 → (s.arrives (192 + k)).1 = true → ∃ u, Acts (.wakeEdge n rising short) s u ∧ u.mem = s.mem ∧
        u.pins.wakeHigh.contains k = rising ∧ (u.src (192 + k)).pend = true) ∧
      (active = true → s.dstate = 1 → s.flag Fld.LL_STS_WKF = false → Listed s (192 + k) →
        ∃ s', exec (.wakeEdge n rising short) s = .next s' ∧ Woken s s' 4 (192 + k)) ∧
      (active = false → ∃ s', exec (.wakeEdge n rising short) s = .next s' ∧ s' = { s with pins := s'.pins } ∧
        s'.pins.wakeHigh.contains k = rising)) ∧
    (∀ (e : BitVec 7) level, e.toNat < 96 → s.dieOn = true → s.get Fld.TY_CE_MODE (4 * e.toNat) ≠ 2 →
      s.darkening = false ∨ 16 ≤ e.toNat →
      ∃ u, Acts (.controlEscapeEdge e level) s u ∧ u = { s with pins := u.pins } ∧
        ∀ k, u.pins.ceHigh.contains k = if k = e.toNat then level else s.pins.ceHigh.contains k) ∧
    (∀ level, exec (.holdN level) s = .next { s with pins := { s.pins with holdN := level } }) ∧
    (∀ low, s.dieOn = true → ∃ u, Acts (.pmalert low) s u ∧ u.mem = s.mem ∧ u.get Fld.LL_PMSTS_ALERT = b2n low ∧
      (u.src 24).asserted = low) ∧
    (∀ rq v d k b, Serves s rq Reg.LL_PMCMD true d k b → s.get Fld.LL_PMSTS_BUSY = 0 → s.dstate ≠ 1 →
      s.power.pmCur = none → s.power.delayAt = none → s.power.rails = [] → s.get Fld.LL_STRAP_PMMST = 1 →
      ∃ (u : State) (x : PmTxn), exec (.pmbusTransaction rq v) s = .next u.settleOn ∧ u.mem = s.mem ∧
        u.get Fld.LL_PMSTS_BUSY = 1 ∧ u.power.pmCur = some x ∧ u.emitted = s.emitted ++ [.pmbus x] ∧ x.host = true ∧
        x.addr = bitsGet v 0 7 ∧ x.read = v.getLsbD 7 ∧ x.cmd = bitsGet v 8 8 ∧ x.len = min 2 (bitsGet v 16 2) ∧
        x.pec = v.getLsbD 18 ∧ x.data = s.get Fld.LL_PMDATA_DATA) ∧
    (∀ x ok data, s.power.pmCur = some x → s.power.rails = [] → s.power.hostTxn = none → s.power.delayAt = none →
      (ok = true → s.get Fld.LL_STRAP_PMMST = 1 → x.host = true → x.read = true → x.len ≤ 2 → x.delay = 0 →
        ∃ s', exec (.pmbusComplete ok data) s = .next s' ∧ s'.mem = s.mem ∧ s'.power.pmCur = none ∧
          s'.get Fld.LL_PMSTS_BUSY = 0 ∧ (x.len ≠ 0 → s'.get Fld.LL_PMDATA_DATA = data.toNat % 256 ^ x.len)) ∧
      (ok = false → s.power.tries < 2 → ∃ s', exec (.pmbusComplete ok data) s = .next s' ∧ s'.mem = s.mem ∧
        s'.power.pmCur = some x ∧ s'.power.tries = s.power.tries + 1) ∧
      (ok = false → 2 ≤ s.power.tries → x.rail < 16 → ∃ s', exec (.pmbusComplete ok data) s = .next s' ∧ s'.mem = s.mem ∧
        s'.power.pmCur = none ∧ s'.get Fld.LL_PMSTS_ERR = 1 ∧ s'.get Fld.LL_PMSTS_RAIL = x.rail ∧
        s'.get Fld.LL_EVT_CODE = 7)) ∧
    ∀ ms t x rest, s.power.delayAt = some (ms, t) → t + 1000000 * ms ≤ s.now → s.power.pmCur = none →
      s.power.rails = x :: rest → ∃ s', exec .railDelay s = .next s' ∧ s'.mem = s.mem ∧ s'.power.delayAt = none ∧
        s'.power.pmCur = some x ∧ s'.power.rails = rest

/-- The resets: a power-on reset leaves every register at its reset value but the straps, the fuses and the causes; a warm
reset keeps the Lamplighter's, the wake set's and the Timebase's; a reset pin that is low, and a brown-out, hold the die
in reset. The memory clear of the boot ends in LG_BOOT.STATE 1, or 3 with ERR 7 where the ROM check fails. -/
def Obligations.Resets : Prop :=
  ∀ (s : State),
    let empty (s' : State) : Prop := (∀ p, s'.byte p = 0) ∧ s'.threads = []
    (∀ why straps bootsel, ∃ s', exec (.powerOnReset why straps bootsel) s = .next s' ∧ empty s' ∧
      s'.reg Reg.LL_STRAP = straps.setWidth 32 ∧ s'.get Fld.PO_DEVNUM_DIE = bitsGet (straps.setWidth 32) 0 2 ∧
      s'.get Fld.LG_BOOT_DEBUG = b2n (bootsel && !s.flag Fld.GL_SEC_DBGLOCK) ∧
      (why = .porst → s'.get Fld.LL_RST_CAUSE_PORST = 1 ∧ ∀ a, isFused a = false →
        a ∉ [Reg.LL_RST_CAUSE, Reg.LL_STRAP, Reg.PO_DEVNUM, Reg.LL_PMSTS, Reg.LG_BOOT] → s'.reg a = resetAt a) ∧
      (why = .lamplighter → (3 ∉ s.power.resetLow → s'.reg Reg.LL_RST_CAUSE = s.reg Reg.LL_RST_CAUSE) ∧
        (3 ∈ s.power.resetLow → s'.get Fld.LL_RST_CAUSE_AONPOR = 1) ∧ s'.get Fld.LL_EVT_CODE = 6) ∧
      (why = .vinAon → s'.reg Reg.LL_RST_CAUSE = 1 ∧ s'.get Fld.LL_EVT_CODE = 6)) ∧
    (∀ bootsel, 3 ≤ s.dstate → (∀ x ∈ s.power.resetLow, x = 1) →
      ∃ s', exec (.warmReset bootsel) s = .next s' ∧ empty s' ∧ s'.tb = { s.tb with onEdge := .nothing } ∧ s'.dstate = 3 ∧ s'.power.resetLow = [] ∧
        s'.get Fld.LL_RST_CAUSE_WARM = 1 ∧ (∀ k, k < 64 → s'.reg (Reg.CR_WAKE + 4 * k) = s.reg (Reg.CR_WAKE + 4 * k)) ∧
        (∀ a, Reg.TB_CTL ≤ a → a < 0x50000 → s'.reg a = s.reg a) ∧
        (∀ a, Reg.LL_PMDATA < a → a < 0x71000 → s'.reg a = s.reg a)) ∧
    (3 ≤ s.dstate → ∃ s', exec (.resetAssert true) s = .next s' ∧ empty s' ∧ s'.get Fld.LL_RST_CAUSE_WARM = 1 ∧
      s'.dieOn = false) ∧
    (∃ s', exec (.resetAssert false) s = .next s' ∧ empty s' ∧ s'.get Fld.LL_RST_CAUSE_PORST = 1 ∧ s'.dieOn = false) ∧
    (∀ why, ∃ s', exec (.brownOut why) s = .next s' ∧ empty s' ∧ s'.dieOn = false ∧
      (why = .ldo → s.get Fld.LL_STS_LDOLP = 1 → s'.get Fld.LL_RST_CAUSE_BOLP = 1) ∧
      (why = .ldo → s.get Fld.LL_STS_LDOLP = 0 → s'.get Fld.LL_RST_CAUSE_BOHP = 1)) ∧
    (s.boot.clearing = true → s.dieOn = true → ∀ romOk, ∃ u, Acts (.memoryClear romOk) s u ∧ u.boot.clearing = false ∧
      (∀ p, u.byte p = if bootCleared p then 0 else s.byte p) ∧
      (romOk = true → u.get Fld.LG_BOOT_STATE = 1 ∧ u.get Fld.LG_BOOT_ERR = 0) ∧
      (romOk = false → u.get Fld.LG_BOOT_STATE = 3 ∧ u.get Fld.LG_BOOT_ERR = 7 ∧ (u.thr 0).tstate = .halted ∧
        u.faultLow = true))

/-! ### The sideband and the test access port -/

/-- A sideband transfer writes or reads one register for each whole group of four bytes, the first byte the least
significant: 0x0000 to 0x0FFF is the LL block, 0x1000 to 0x10FF the wake set, and no register lies above (a read answers
0). The target keeps the offset that a transfer leaves, and a read without one goes on from there. -/
def Sys2Proof.Says.SidebandTransfers : Prop :=
  ∀ (s : State) (off : BitVec 16),
    let a := if off.toNat < 0x1000 then 0x70000 + off.toNat else Reg.CR_WAKE + (off.toNat - 0x1000)
    (∀ b0 b1 b2 b3 d k b, off.toNat < 0x1100 → Serves s .sideband a true d k b →
      exec (.sidebandWrite off [b0, b1, b2, b3]) s =
        .next ((s.writeReg .sideband d k b (b3 ++ b2 ++ b1 ++ b0)).settleOn.sideAt (off.toNat + 4))) ∧
    (∀ bs rest, bs.length = 4 → let w := s.sideWrite 1 off.toNat bs
      exec (.sidebandWrite off bs) s = .next (w.sideAt (off.toNat + 4)) ∧
      exec (.sidebandWrite off (bs ++ rest)) s =
        .next ((w.sideWrite (rest.length / 4) ((off.toNat + 4) % 65536) rest).sideAt (off.toNat + 4 + 4 * (rest.length / 4)))) ∧
    (∀ bs, bs.length < 4 ∨ 0x1100 ≤ off.toNat ∧ bs.length < 8 →
      exec (.sidebandWrite off bs) s = .next (s.sideAt (off.toNat + 4 * (bs.length / 4)))) ∧
    (∀ d k b, off.toNat < 0x1100 → Serves s .sideband a false d k b → let r := s.readReg .sideband d k b
      exec (.sidebandRead (some off) 1) s = .next ((r.2.sideAt (off.toNat + 4)).emit (.i3c (leBytes 4 r.1.toNat)))) ∧
    (∀ n, s.power.sideOff = off.toNat → exec (.sidebandRead none n) s = exec (.sidebandRead (some off) n) s) ∧
    (∀ n, s.routeLive .sideband = true → ∃ s' bs, exec (.sidebandRead (some off) n) s = .next s' ∧ s'.mem = s.mem ∧
      s'.emitted = s.emitted ++ [.i3c bs] ∧ bs.length = 4 * n ∧
      s'.power.sideOff = (off.toNat + 4 * n) % 65536 ∧ (0x1100 ≤ off.toNat → n = 1 → bs = [0, 0, 0, 0]))

/-- The common command codes that the target answers: the dynamic address, the 48-bit provisional ID, BCR and DCR, the
status whose upper byte is LG_STS.STATE, OUT and AS_STS.HOLD, the in-band interrupts. The four instructions of the JTAG
TAP, while VIO_SW is on, and what leaves at TDO, while outputs are not held. -/
def Sys2Proof.Says.CommonCodesAndJtag : Prop :=
  ∀ (s : State),
    (s.routeLive .sideband = true →
      (∀ a, exec (.entdaa a) s = .next { s with power := { s.power with dynAddr := some (s.power.dynAddr.getD a) } }) ∧
      (∀ a, exec (.setdasa a) s = .next { s with power := { s.power with dynAddr := some (s.power.dynAddr.getD a) } }) ∧
      (∀ a old, s.power.dynAddr = some old →
        exec (.setnewda a) s = .next { s with power := { s.power with dynAddr := some a } }) ∧
      exec .rstdaa s = .next { s with power := { s.power with dynAddr := none } } ∧
      (∀ id : BitVec 48, id = s.fuses.mipi ++ 0#1 ++ 0x8410#16 ++ 0#2 ++ (s.reg Reg.LL_STRAP).extractLsb' 0 2 ++ 0#12 →
        exec .getpid s = .next (s.emit (.i3c ((List.range 6).map (fun i => id.extractLsb' (40 - 8 * i) 8))))) ∧
      exec .getbcr s = .next (s.emit (.i3c [Config.i3cBcr])) ∧ exec .getdcr s = .next (s.emit (.i3c [Config.i3cDcr])) ∧
      (∃ s' low, exec .getstatus s = .next s' ∧ s'.mem = s.mem ∧ s'.regs = s.regs ∧ s'.emitted = s.emitted ++ [.i3c
        [BitVec.ofNat 8 (s.get Fld.LG_STS_STATE + 8 * s.get Fld.LG_STS_OUT + 16 * s.get Fld.AS_STS_HOLD), low]]) ∧
      (∀ ev, exec (.enec ev) s = .next { s with power := { s.power with ibiOn := s.power.ibiOn || ev.getLsbD 0 } }) ∧
      ∀ ev, exec (.disec ev) s = .next { s with power := { s.power with ibiOn := s.power.ibiOn && !ev.getLsbD 0 } }) ∧
    let atTdo (s' : State) (bits : List Bool) : Prop :=
      s'.emitted = s.emitted ++ (if s.outputsHeld = true then [] else [.jtag bits])
    (s.flag Fld.LL_STS_VIOSW = true →
      (∃ s', exec .bypass s = .next s' ∧ s'.power.jtag = .bypass ∧ atTdo s' [false] ∧
        s' = { s with power := s'.power, emitted := s'.emitted }) ∧
      (∃ s' bits, exec .idcode s = .next s' ∧ s'.power.jtag = .idcode ∧ atTdo s' bits ∧
        bits.length = 32 ∧ (∀ i, i < 32 → bits[i]? = some (Config.jtagId.getLsbD i)) ∧
        s' = { s with power := s'.power, emitted := s'.emitted }) ∧
      (∀ cells, ∃ s' bits, exec (.samplePreload cells) s = .next s' ∧ s'.power.jtag = .sample ∧ s'.power.cells = cells ∧
        atTdo s' bits ∧ bits.length = cells.length ∧
        s' = { s with power := s'.power, emitted := s'.emitted, freeCtr := s'.freeCtr }) ∧
      exec .extest s = .next { s with power := { s.power with jtag := .extest } }) ∧
    (s.flag Fld.LL_STS_VIOSW = false → exec .bypass s = .next s ∧ exec .idcode s = .next s ∧ exec .extest s = .next s ∧
      ∀ cells, exec (.samplePreload cells) s = .next s)

/-- The sideband target and the test access port. -/
def Obligations.SidebandAndJtag : Prop := SidebandTransfers ∧ CommonCodesAndJtag


/-! ### Boot image, Attar and Ledger -/

/-- GO starts the verification of the boot image; an image that fails a check gives STATE 3 and its ERR; one that passes is
placed and the steward starts at ENTRY with R1, R2 and R30 as the rules give them. -/
def Obligations.BootImage : Prop :=
  ∀ (s : State),
    (∀ rq v d k b, Serves s rq Reg.LG_BOOT true d k b → s.get Fld.LG_BOOT_STATE = 1 ∨ s.get Fld.LG_BOOT_STATE = 3 →
      3 ∉ s.power.faults → ∃ s', exec (.go rq v) s = .next s' ∧ s'.mem = s.mem ∧
        s'.get Fld.LG_BOOT_STATE = 2 ∧ s'.get Fld.LG_BOOT_ERR = 0) ∧
    (s.get Fld.LG_BOOT_STATE = 2 → s.dieOn = true → Clean s → s.memCanonical →
      let len := s.get Fld.LG_BOOTLEN_BYTES
      let img := s.bytes frameBase (max 256 len)
      (s.imageErr img ≠ 0 → ∃ s', exec .verification s = .next s' ∧ s'.mem = s.mem ∧
        s'.get Fld.LG_BOOT_STATE = 3 ∧ s'.get Fld.LG_BOOT_ERR = s.imageErr img) ∧
      (leAt img 0 4 ≠ 0x84101A0B → s.imageErr img = 1) ∧
      (leAt img 0 4 = 0x84101A0B → leAt img 4 2 = 1 → len < 512 → s.imageErr img = 2) ∧
      (s.imageErr img = 0 → ∃ s', exec .verification s = .next s' ∧ s'.get Fld.LG_BOOT_STATE = 4 ∧
        s'.get Fld.LG_BOOT_ERR = 0 ∧ (s'.thr 0).pc = BitVec.ofNat 32 (leAt img 0x10 4) ∧ (s'.thr 0).tstate = .ready ∧
        (s'.thr 0).get 1 = BitVec.ofNat 64 frameBase ∧ (s'.thr 0).get 2 = BitVec.ofNat 64 len ∧
        (s'.thr 0).get 30 = 0x8000 ∧ (s'.thr 0).st = 8 ∧ (∀ r, r ∉ [1, 2, 30] → (s'.thr 0).get r = 0) ∧
        (∀ x ∈ sectionsOf img,
          (x.ty = 1 → s'.bytes (isramBase 0 + x.dest) x.len = slice img x.off x.len) ∧
          (x.ty = 2 → s'.bytes (dsramBase 0 + x.dest) x.len = slice img x.off x.len) ∧
          (x.ty = 3 → s'.bytes (clusterBase 0 + x.dest) x.len = slice img x.off x.len) ∧
          (x.ty = 4 → s'.reg Reg.LG_BPATCH_OFF = BitVec.ofNat 32 x.off ∧ s'.reg Reg.LG_BPATCH_LEN = BitVec.ofNat 32 x.len) ∧
          (x.ty = 5 → s'.reg Reg.LG_BLDG_OFF = BitVec.ofNat 32 x.off ∧ s'.reg Reg.LG_BLDG_LEN = BitVec.ofNat 32 x.len))))

/-- The Attar: AT_PLOAD acts once after a reset and loads the master with a container that passes its checks; a reload asks
for every copy, or the one named, to be written anew, unless the master's read finds an uncorrectable word (whether it does is
open, log entry 105), which sets MERR and writes no copy; the end of a write gives the copy the master and AT_LOADED. -/
def Obligations.AttarCopies : Prop :=
  ∀ (s : State),
    (∀ rq v d k b, Serves s rq Reg.AT_PLOAD true d k b →
      (s.attar.acted = true → ∃ u : State, exec (.atPload rq v) s = .next u.settleOn ∧ u.mem = s.mem ∧
        u.attar.master = s.attar.master ∧ u.get Fld.AT_STS_ERR = 4) ∧
      (s.attar.acted = false → blockRef v = none → ∃ u : State, exec (.atPload rq v) s = .next u.settleOn ∧
        u.mem = s.mem ∧ u.attar.master = s.attar.master ∧ u.get Fld.AT_STS_ERR = 1) ∧
      (∀ a p, s.attar.acted = false → blockRef v = some a → Clean s → let n := s.get Fld.AT_PLEN_BYTES
        0x130 ≤ n → blockPlace a n = true → s.openPatch (s.bytes a n) = (0, p) →
        ∃ u : State, exec (.atPload rq v) s = .next u.settleOn ∧ u.mem = s.mem ∧ u.attar.acted = true ∧
          u.attar.master = ⟨wordsLe (leAt (s.bytes a n) 8 2) (p.drop 128), wordsLe 32 p⟩ ∧
          u.get Fld.AT_STS_LOADED = 1 ∧ u.get Fld.AT_STS_ERR = 0 ∧
          u.get Fld.AT_ID_PATCHREV = leAt (s.bytes a n) 6 2)) ∧
    (∀ rq v d k b, Serves s rq Reg.AT_CTL true d k b → s.flag Fld.AT_STS_RLBUSY = false → s.attar.bad = false →
      let bad := Config.masterBad s.freeCtr
      (∃ u : State, exec (.reload rq v) s = .next u.settleOn ∧ u.mem = s.mem ∧ u.attar.master = s.attar.master ∧
        (bad = true ∧ u.attar.bad = true ∨ ∀ cl, cl < 64 → s.clusterRetired cl = false →
          (tblGet u.attar.todo cl).isSome = true ∨ ∃ why, u.attar.writing = some (cl, why))) ∧
      (∀ cl, cl = bitsGet v 2 6 → s.clusterRetired cl = false → s.meteredRole = false → s.attar.todo = [] → s.attar.writing = none →
        s.pstate (cl / 8) ≤ 1 → (∀ c ∈ clusterCores cl, (s.core c).tested = false) →
        ∃ u : State, exec (.reloadOne rq v) s = .next u.settleOn ∧ u.mem = s.mem ∧ u.attar.writing = (if bad then none else some (cl, 2)) ∧
          u.attar.todo = [] ∧ u.get Fld.AT_STS_RLBUSY = b2n (!bad) ∧ (bad = true → u.get Fld.AT_STS_MERR = 1) ∧
          (bad = false → bitOf (u.reg (Reg.AT_LOADED + 4 * (cl / 32))).toNat (cl % 32) = false))) ∧
    ∀ (cl : ClusterId) why, s.attar.writing = some (cl.toNat, why) → s.flag Fld.AT_STS_MERR = false →
      s.attar.todo = [] → ∃ u, Acts (.copyWriteEnd cl) s u ∧ u.mem = s.mem ∧ u.attar.writing = none ∧
        tblGet u.attar.copies cl.toNat = some s.attar.master ∧ u.get Fld.AT_STS_RLBUSY = 0 ∧
        bitOf (u.reg (Reg.AT_LOADED + 4 * (cl.toNat / 32))).toNat (cl.toNat % 32) = true ∧
        (why = 2 → oneMore s u Fld.AT_CNT_RELOAD_COUNT 0)

/-- A Ledger's application: LG_APPLY takes a list that passes its checks; WRITE writes its words to ascending registers,
MODIFY the masked bits, WAIT waits for a value or gives FAIL 5, END gives STATE 2, or 4 with FAIL 4 after a write that was
discarded. -/
def Obligations.LedgerRecords : Prop :=
  ∀ (s : State),
    let on := s.get Fld.LG_STS_STATE = 1 ∧ s.dieOn = true
    let reaches (a : Nat) (d : RegDesc) (k : Nat) : Prop :=
      findReg a = some (d, k) ∧ a / 0x10000 ≠ 1 ∧ a < 0xFF0000 ∧ s.blockAsleep a = none
    let cause (s' : State) (c : Nat) : Prop :=
      s'.get Fld.LG_STS_HCAUSE = if s.get Fld.LG_STS_OUT = 1 then s.get Fld.LG_STS_HCAUSE else c
    (∀ rq v d k b, Serves s rq Reg.LG_APPLY true d k b →
      (s.get Fld.LG_STS_STATE = 1 → ∃ s', exec (.lgApply rq v) s = .next s' ∧ s'.mem = s.mem ∧ s'.ledger = s.ledger ∧
        s'.get Fld.LG_STS_STATE = 1 ∧ s'.get Fld.LG_STS_BUSYREF = 1) ∧
      (∀ a, s.get Fld.LG_STS_STATE ≠ 1 → blockRef v = some a → Clean s → let n := s.get Fld.LG_LLEN_BYTES
        32 ≤ n → blockPlace a n = true → let c := s.checkLedger (s.bytes a n)
        ∃ s', exec (.lgApply rq v) s = .next s' ∧ s'.mem = s.mem ∧
          (c.1 = 0 → s'.get Fld.LG_STS_STATE = 1 ∧ s'.ledger = { recs := c.2, seq := leAt (s.bytes a n) 8 4 } ∧ cause s' 1) ∧
          (c.1 ≠ 0 → s'.get Fld.LG_STS_STATE = 4 ∧ s'.get Fld.LG_STS_FAIL = c.1 ∧ s'.ledger = s.ledger ∧ cause s' c.1))) ∧
    (∀ a count v vs rest d k, on → s.ledger.recs = ⟨1, a, count, v :: vs⟩ :: rest → s.ledger.done = 0 → reaches a d k →
      s.stoppedFor d.base k v = true →
      let u := (s.writeReg .ledger d k a v).settleOn
      exec .ledgerWrite s = .next (u.writeWords rest a vs 1) ∧
        (vs = [] → exec .ledgerWrite s = .next { u with ledger := { u.ledger with recs := rest, done := 0, waitAt := none } })) ∧
    (∀ a count m v rest d k, on → s.ledger.recs = ⟨2, a, count, [m, v]⟩ :: rest → reaches a d k →
      let q := s.readReg .ledger d k a
      let w := (q.1 &&& ~~~ m) ||| (v &&& m)
      q.2.stoppedFor d.base k w = true →
      let u := (q.2.writeReg .ledger d k a w).settleOn
      exec .ledgerModify s = .next { u with ledger := { u.ledger with recs := rest, done := 0, waitAt := none } }) ∧
    (∀ a count m v rest d k since, on → s.ledger.recs = ⟨3, a, count, [m, v]⟩ :: rest → reaches a d k →
      since = s.ledger.waitAt.getD s.now → let w := (s.readReg .ledger d k a).1
      (w &&& m = v → ∃ s', exec .ledgerWait s = .next s' ∧ s'.mem = s.mem ∧ s'.ledger.recs = rest) ∧
      (w &&& m ≠ v → s.now < since + 1000 * count → ∃ s', exec .ledgerWait s = .next s' ∧ s'.mem = s.mem ∧
        s'.ledger = { s.ledger with waitAt := some since }) ∧
      (w &&& m ≠ v → since + 1000 * count ≤ s.now → ∃ s', exec .ledgerWait s = .next s' ∧ s'.mem = s.mem ∧
        s'.ledger.recs = [] ∧ s'.get Fld.LG_STS_STATE = 4 ∧ s'.get Fld.LG_STS_FAIL = 5 ∧ cause s' 4)) ∧
    ∀ a count ws, on → s.ledger.recs = [⟨0xFF, a, count, ws⟩] →
      (s.ledger.bad = false → ∃ s', exec .ledgerEnd s = .next s' ∧ s'.mem = s.mem ∧ s'.ledger.recs = [] ∧
        s'.get Fld.LG_STS_STATE = 2 ∧ cause s' 1) ∧
      (s.ledger.bad = true → ∃ s', exec .ledgerEnd s = .next s' ∧ s'.mem = s.mem ∧ s'.ledger.recs = [] ∧
        s'.get Fld.LG_STS_STATE = 4 ∧ s'.get Fld.LG_STS_FAIL = 4 ∧ cause s' 4)

/-- A commit takes every group's shadow at once if all pass their checks, and starts the outputs unless one is held; a
group that fails refuses it, and so does a state without an applied Ledger. A direct commit takes the groups it names
while outputs run. OUTPUTS_START follows the release of the holds. -/
def Obligations.Commits : Prop :=
  ∀ (s : State) (rq : Requester) (v : Word32) (d : RegDesc) (k b : Nat),
    let st := s.get Fld.LG_STS_STATE
    let taken (s' : State) (g : Nat) : Prop :=
      ∀ a e i, (tblGet s.regs a).isSome = true → findReg a = some (e, i) → groupOf e = some g → e.base ≠ Reg.PS_SPARE →
        ∀ f ∈ e.fields, f.upd = .commit → fieldOf f (s'.effReg a) = fieldOf f (s.reg a)
    (Serves s rq Reg.LG_COMMIT true d k b →
      (st = 2 → (∀ g, g < 8 → s.groupOk g = true) → ∃ s', exec (.commit rq v) s = .next s' ∧ s'.mem = s.mem ∧
        s'.get Fld.LG_STS_STATE = 3 ∧ s'.reg Reg.LG_SEQ = BitVec.ofNat 32 s.ledger.seq ∧ s'.boot.committed = true ∧
        (∀ g, g < 8 → taken s' g) ∧
        (s.get Fld.LG_STS_OUT = 0 → s'.get Fld.LG_STS_OUT = b2n s.outputsFree ∧
          s'.get Fld.LG_STS_HCAUSE = if s.outputsFree then 0 else 7)) ∧
      (∀ g, st = 2 → g < 8 → s.groupOk g = false → (∀ h, h < g → s.groupOk h = true) →
        ∃ s', exec (.commit rq v) s = .next s' ∧ s'.mem = s.mem ∧ s'.get Fld.LG_STS_STATE = 2 ∧
          s'.get Fld.LG_STS_REFUSED = 1 ∧ s'.get Fld.LG_STS_REFGRP = g ∧
          ∀ a, a ≠ Reg.PS_SPARE → a ≠ Reg.PS_SPARE + 4 → s'.effReg a = s.effReg a) ∧
      (st ≠ 2 → ∃ s', exec (.commit rq v) s = .next s' ∧ s'.mem = s.mem ∧ s'.get Fld.LG_STS_STATE = st ∧
        s'.get Fld.LG_STS_REFUSED = 1 ∧ (s.get Fld.LG_STS_OUT = 0 → s'.get Fld.LG_STS_HCAUSE = 5)) ∧
      (s.get Fld.LG_STS_OUT = 1 → st ≠ 1 → (∀ g, g < 8 → v.getLsbD g = true → s.groupOk g = true) →
        ∃ s', exec (.directCommit rq v) s = .next s' ∧ s'.mem = s.mem ∧ s'.get Fld.LG_STS_STATE = st ∧
          ∀ g, g < 8 → v.getLsbD g = true → taken s' g) ∧
      (s.get Fld.LG_STS_OUT = 0 ∨ st = 1 → ∃ s', exec (.directCommit rq v) s = .next s' ∧ s'.mem = s.mem ∧
        s'.get Fld.LG_STS_STATE = st ∧ s'.get Fld.LG_STS_REFUSED = 1)) ∧
    (s.boot.committed = true → s.get Fld.LG_STS_OUT = 0 → s.pins.holdN = true → s.get Fld.LG_CTL_HOLD = 0 →
      ∃ s', exec .outputsStart s = .next s' ∧ s'.mem = s.mem ∧ s'.get Fld.LG_STS_OUT = 1 ∧
        s'.get Fld.LG_STS_HCAUSE = 0)

/-! ### Completion -/

/-- Commands of engines, of links and of the board run and have their own effect, on conditions of the state alone: a far
request is sent, answered or timed out; a slot begins, a handler is entered, a bank switches, a header falls back, a
condition clears; a port's link rises, falls and rests; the host link trains, retrains and rests; the Tally's periods end; sensors and the ADC are read; memory is cleared; regions
and the die go to rest and wake. -/
def Obligations.EventsComplete : Prop :=
  ∀ (s : State),
    let ends (c : Instr) (P : State → Prop) : Prop := ∃ u, exec c s = .next u ∧ P u
    let acts (c : Instr) (P : State → Prop) : Prop := ∃ u : State, exec c s = .next u.settle ∧ P u
    (∀ (t : Tid) op rd ra rb fn, Ready s t → Elastic s t → s.farOk op = true →
      ends (.farx t op rd ra rb fn) (fun u => (u.thr t.toNat).tstate = .farWait ∧
        (u.thr t.toNat).far = some { tag := farTag t.toNat (s.thr t.toNat).farSeq op fn, rd := rd, sentAt := s.now })) ∧
    (∀ (t : Tid) r tag v, (s.thr t.toNat).tstate = .farWait → (s.thr t.toNat).far = some r →
      bitsGet tag 0 11 = t.toNat → bitsGet tag 11 5 = bitsGet r.tag 11 5 →
      ends (.farAnnexResponse (BitVec.ofNat 16 (s.get Fld.ANX_VID_VID)) tag v) (fun u => (u.thr t.toNat).tstate = .ready ∧
        (u.thr t.toNat).get r.rd = if r.rd = 0 then 0 else v)) ∧
    (∀ (t : Tid) r, (s.thr t.toNat).tstate = .farWait → (s.thr t.toNat).far = some r →
      r.sentAt + 1000 * max 1 (s.get Fld.ANX_TMO_US) ≤ s.now → EntrySpace s t 9 →
      ends (.annexTimeout t) (fun u => (u.thr t.toNat).tstate = .ready ∧
        (u.thr t.toNat).pc = sramWord s t ((s.thr t.toNat).vbase.toNat + 36))) ∧
    (s.prompt.seriesAt ≤ s.now * 1000 → acts .slotBoundary (fun u => u.prompt.slot = (s.prompt.slot + 1) % 256)) ∧
    (∀ (p : PairId) m, (s.pair p.toNat).phase = .dispatched → (s.pair p.toNat).msg = some m → s.holding = false →
      (s.pair p.toNat).dispAt + 40 ≤ s.now →
      ends (.handlerEntry p) (fun u => (u.pair p.toNat).phase = .running ∧
        (u.thr (4 * (pairCores p.toNat).1)).tstate = .meteredRun ∧ (u.thr (4 * (pairCores p.toNat).2)).tstate = .meteredRun)) ∧
    (s.flag Fld.PS_STS_SWPEND = true → s.prompt.slot = 0 → s.prompt.seriesAt ≤ s.now * 1000 →
      ends .bankSwitch (fun u => u.get Fld.PS_STS_SWPEND = 0 ∧ u.get Fld.PS_STS_ABANK = s.get Fld.PS_BANK_SEL)) ∧
    (∀ (g : BitVec 4) m, s.holding = false → s.oldest g.toNat = some m → s.cfg Fld.PS_FBWAIT_US ≠ 0 →
      m.since + 1000 * s.cfg Fld.PS_FBWAIT_US < s.now →
      acts (.fallback g) (fun u => oneMore s u Fld.PS_FALLBK_COUNT 0)) ∧
    (∀ n : BitVec 4, n.toNat < 9 → s.fillPrompt.condFails n.toNat = false →
      ends (.conditionClear n) (fun u => bitOf (u.get Fld.PS_COND_COND) n.toNat = false)) ∧
    (∀ p : PairId, (s.pair p.toNat).phase = .releasing → (s.core (pairCores p.toNat).1).cbuf = [] →
      ends (.accordComplete p) (fun u => (u.pair p.toNat).phase = .idle)) ∧
    (∀ (p : PortId) ok, let o := ptOff p.toNat
      s.portInService p.toNat = true →
      (s.flag Fld.PT_CTL_EN o = true → s.flag Fld.LG_STS_OUT = true →
        acts (.linkUp p ok) (fun u => u.get Fld.PT_STS_LINK o = 1)) ∧
      acts (.portLinkLoss p) (fun u => u.get Fld.PT_STS_LINK o = 0)) ∧
    (s.dieOn = true →
      (s.linkState = 0 → ∀ speed repair, acts (.linkTraining true speed repair) (fun u => u.linkState = 2)) ∧
      (s.linkState = 2 → acts (.retrain none) (fun u => u.linkState = 3)) ∧
      acts .linkHotReset (fun u => u.linkState = 0)) ∧
    (s.linkState = 2 → s.dstate = 4 → s.flag Fld.GL_LINK_CTL_L1EN = true → s.flag Fld.GL_LINK_STS_L1BLK = false →
      s.linkIdle = true → acts .l1 (fun u => u.linkState = 4)) ∧
    (s.linkState = 4 → acts .l1Exit (fun u => u.linkState = 2)) ∧
    (s.linkState = 6 → s.link.since + 10000000 ≤ s.now → acts .linkError (fun u => u.linkState = 1)) ∧
    (s.dieOn = true →
      (s.get Fld.TY_SCFG_PER ≠ 0 → s.tally.sensorAt + 1000 * s.get Fld.TY_SCFG_PER ≤ s.now →
        acts .sensorRecord (fun u => u.tally.sensorAt = s.now)) ∧
      (s.get Fld.TY_ADCCTL_RECPER ≠ 0 → s.tally.adcRecAt + 1000000 * s.get Fld.TY_ADCCTL_RECPER ≤ s.now →
        acts .adcRecord (fun u => u.tally.adcRecAt = s.now)) ∧
      (s.get Fld.TY_HCTL_PER ≠ 0 → s.tally.snapAt + 1000000 * s.get Fld.TY_HCTL_PER ≤ s.now →
        acts .snapshotPeriod (fun u => u.tally.snapAt = s.now)) ∧
      (∀ m : BitVec 16, m.toNat < 1024 → (s.meter m.toNat).exc ≠ 0 →
        ((tblGet s.tally.meterAt m.toNat).getD 0) + 1000000 ≤ s.now →
        acts (.meterRecord m) (fun u => (u.meter m.toNat).exc = 0))) ∧
    (s.windowOver = true → s.faultsDone = true → acts .recoveryWindow (fun u => u.assay.window = none)) ∧
    (∀ r : RegionId, let n := r.toNat
      (∀ t ret, tblGet s.power.gating n = some (t, ret) → s.power.wakeReq = [] → s.arbs = [] →
        acts (.gatedEntry r) (fun u => u.pstate n = if ret then 3 else 4)) ∧
      (n ∈ s.power.wakeReq → n ∉ s.bellows.shed → s.pstate n = 3 ∨ s.pstate n = 4 →
        acts (.regionWake r) (fun u => u.pstate n = 5)) ∧
      (∀ t, tblGet s.power.leaving n = some (t, true) → n ∉ s.bellows.shed →
        acts (.leavingGated r) (fun u => u.pstate n = 0))) ∧
    (s.power.dkStep = 1 → s.messagesDone = true → acts .drain (fun u => u.power.dkStep = 2 ∧ u.power.dkAt = s.now)) ∧
    (s.power.dkStep = 2 → s.power.dkAt + 1000000 ≤ s.now → acts .l2Timeout (fun u => u.power.dkStep = 0)) ∧
    (s.power.upStep = 1 → s.power.resetLow = [] → ends .regReady (fun u => u.power.upStep = 2)) ∧
    (s.power.upStep = 2 → s.power.resetLow = [] → s.power.upWake = true →
      ends .pllLock (fun u => u.power.upStep = 3 ∧ u.get Fld.TB_STS_PLLLOCK = 1)) ∧
    (s.power.upStep = 4 → s.power.upAt + 1000000 ≤ s.now → ends .wakeRetry (fun u => u.power.upStep = 1)) ∧
    (s.power.upStep = 3 → s.railsDone = true → s.tb.onEdge ≠ .set →
      acts .wakeComplete (fun u => u.dstate = 3 ∧ u.power.upStep = 0)) ∧
    (∀ low, s.dieOn = true → acts (.pmalert low) (fun u => u.get Fld.LL_PMSTS_ALERT = b2n low)) ∧
    (∀ p : PortId, let o := ptOff p.toNat
      (s.flag Fld.PT_CTL_LPIEN o = true → s.flag Fld.PT_STS_LPIOK o = true → s.flag Fld.PT_STS_LINK o = true →
        s.egressIdle p.toNat = true → (s.port p.toNat).pausing = false →
        acts (.lpi p) (fun u => u.get Fld.PT_STS_LPI o = 1)) ∧
      (s.flag Fld.PT_STS_LPI o = true → s.egressIdle p.toNat = false →
        acts (.lpiWake p) (fun u => u.get Fld.PT_STS_LPI o = 0)) ∧
      ((s.port p.toNat).pausing = true → (s.port p.toNat).pauseAt + s.pauseNs (s.get Fld.PT_PFC_QUANTA o) / 2 ≤ s.now →
        acts (.pfcRepeat p) (fun u => s.emitted.length < u.emitted.length))) ∧
    (∀ (ch : BitVec 4) v, s.dieOn = true → s.adcDue = some ch.toNat →
      (s.adcChan ch.toNat).count + 1 < 2 ^ min 4 (s.get Fld.TY_ADCCTL_AVG) →
      ends (.adcConversion ch v) (fun u => u.tally.adcNext = (ch.toNat + 1) % 16)) ∧
    (∀ m, s.dieOn = true → acts (.sensorRefresh m) (fun u => u.power.supplyOk = m.supplyOk)) ∧
    (∀ ok, s.dieOn = true → s.boot.clearing = true → acts (.memoryClear ok) (fun u => u.boot.clearing = false)) ∧
    (∀ t ms, s.power.bankedAt = some t → s.get Fld.LL_DIDLE_MS = ms → ms ≠ 0 → s.dstate = 4 → s.holding = false →
      t + 1000000 * ms ≤ s.now → acts .deviceIdleTimer (fun u => u.power.dkStep = 1 ∧ u.power.dkAt = s.now)) ∧
    (s.power.upStep = 1 → s.power.resetLow = [] → s.power.upFails = 0 →
      s.power.upAt + 1000 * max 50 (s.get Fld.LL_WK_TMO_US) ≤ s.now →
      ends (.wakeFailure 1) (fun u => u.power.upStep = 4)) ∧
    (s.tb.coast = none → (s.power.dkStep = 2 → ends .darkEntered (fun u => u.power.dkStep = 3)) ∧
      (3 ≤ s.dstate → s.power.dkStep ≠ 3 →
        (s.dieOn = true → (∃ kv ∈ s.power.hotAt, kv.2 + 100000 ≤ s.now) →
          ends .thermalShutdown (fun u => u.power.dkStep = 3)) ∧
        (s.power.resetLow = [] → ends .vinCoreLoss (fun u => u.power.dkStep = 3)))) ∧
    ∀ why, ends (.brownOut why) (fun u => u.dieOn = false ∧ 2 ∈ u.power.resetLow)
end

