-- ==== Sys2Proof/Laws/State.lean ====
section
/-! SUPPORT. One lemma for each field of the state under each update of `Ops.lean` that leaves the field alone. -/

namespace Sys2Proof.Machine

@[simp] theorem State.setReg_pending (s : State) (a : Nat) (v : Word32) : (s.setReg a v).pending = s.pending := rfl
@[simp] theorem State.setReg_mem (s : State) (a : Nat) (v : Word32) : (s.setReg a v).mem = s.mem := rfl
@[simp] theorem State.setReg_eccC (s : State) (a : Nat) (v : Word32) : (s.setReg a v).eccC = s.eccC := rfl
@[simp] theorem State.setReg_eccU (s : State) (a : Nat) (v : Word32) : (s.setReg a v).eccU = s.eccU := rfl
@[simp] theorem State.setReg_eff (s : State) (a : Nat) (v : Word32) : (s.setReg a v).eff = s.eff := rfl
@[simp] theorem State.setReg_hold (s : State) (a : Nat) (v : Word32) : (s.setReg a v).hold = s.hold := rfl
@[simp] theorem State.setReg_snap (s : State) (a : Nat) (v : Word32) : (s.setReg a v).snap = s.snap := rfl
@[simp] theorem State.setReg_threads (s : State) (a : Nat) (v : Word32) : (s.setReg a v).threads = s.threads := rfl
@[simp] theorem State.setReg_cores (s : State) (a : Nat) (v : Word32) : (s.setReg a v).cores = s.cores := rfl
@[simp] theorem State.setReg_caches (s : State) (a : Nat) (v : Word32) : (s.setReg a v).caches = s.caches := rfl
@[simp] theorem State.setReg_resvs (s : State) (a : Nat) (v : Word32) : (s.setReg a v).resvs = s.resvs := rfl
@[simp] theorem State.setReg_pairs (s : State) (a : Nat) (v : Word32) : (s.setReg a v).pairs = s.pairs := rfl
@[simp] theorem State.setReg_ports (s : State) (a : Nat) (v : Word32) : (s.setReg a v).ports = s.ports := rfl
@[simp] theorem State.setReg_porter (s : State) (a : Nat) (v : Word32) : (s.setReg a v).porter = s.porter := rfl
@[simp] theorem State.setReg_prompt (s : State) (a : Nat) (v : Word32) : (s.setReg a v).prompt = s.prompt := rfl
@[simp] theorem State.setReg_crier (s : State) (a : Nat) (v : Word32) : (s.setReg a v).crier = s.crier := rfl
@[simp] theorem State.setReg_funcs (s : State) (a : Nat) (v : Word32) : (s.setReg a v).funcs = s.funcs := rfl
@[simp] theorem State.setReg_vecs (s : State) (a : Nat) (v : Word32) : (s.setReg a v).vecs = s.vecs := rfl
@[simp] theorem State.setReg_hqs (s : State) (a : Nat) (v : Word32) : (s.setReg a v).hqs = s.hqs := rfl
@[simp] theorem State.setReg_link (s : State) (a : Nat) (v : Word32) : (s.setReg a v).link = s.link := rfl
@[simp] theorem State.setReg_tally (s : State) (a : Nat) (v : Word32) : (s.setReg a v).tally = s.tally := rfl
@[simp] theorem State.setReg_assay (s : State) (a : Nat) (v : Word32) : (s.setReg a v).assay = s.assay := rfl
@[simp] theorem State.setReg_bellows (s : State) (a : Nat) (v : Word32) : (s.setReg a v).bellows = s.bellows := rfl
@[simp] theorem State.setReg_arbs (s : State) (a : Nat) (v : Word32) : (s.setReg a v).arbs = s.arbs := rfl
@[simp] theorem State.setReg_power (s : State) (a : Nat) (v : Word32) : (s.setReg a v).power = s.power := rfl
@[simp] theorem State.setReg_fuses (s : State) (a : Nat) (v : Word32) : (s.setReg a v).fuses = s.fuses := rfl
@[simp] theorem State.setReg_boot (s : State) (a : Nat) (v : Word32) : (s.setReg a v).boot = s.boot := rfl
@[simp] theorem State.setReg_ledger (s : State) (a : Nat) (v : Word32) : (s.setReg a v).ledger = s.ledger := rfl
@[simp] theorem State.setReg_attar (s : State) (a : Nat) (v : Word32) : (s.setReg a v).attar = s.attar := rfl
@[simp] theorem State.setReg_tb (s : State) (a : Nat) (v : Word32) : (s.setReg a v).tb = s.tb := rfl
@[simp] theorem State.setReg_pins (s : State) (a : Nat) (v : Word32) : (s.setReg a v).pins = s.pins := rfl
@[simp] theorem State.setReg_emitted (s : State) (a : Nat) (v : Word32) : (s.setReg a v).emitted = s.emitted := rfl
@[simp] theorem State.setReg_freeCtr (s : State) (a : Nat) (v : Word32) : (s.setReg a v).freeCtr = s.freeCtr := rfl

@[simp] theorem State.setEff_pending (s : State) (a : Nat) (v : Word32) : (s.setEff a v).pending = s.pending := rfl
@[simp] theorem State.setEff_mem (s : State) (a : Nat) (v : Word32) : (s.setEff a v).mem = s.mem := rfl
@[simp] theorem State.setEff_eccC (s : State) (a : Nat) (v : Word32) : (s.setEff a v).eccC = s.eccC := rfl
@[simp] theorem State.setEff_eccU (s : State) (a : Nat) (v : Word32) : (s.setEff a v).eccU = s.eccU := rfl
@[simp] theorem State.setEff_regs (s : State) (a : Nat) (v : Word32) : (s.setEff a v).regs = s.regs := rfl
@[simp] theorem State.setEff_hold (s : State) (a : Nat) (v : Word32) : (s.setEff a v).hold = s.hold := rfl
@[simp] theorem State.setEff_snap (s : State) (a : Nat) (v : Word32) : (s.setEff a v).snap = s.snap := rfl
@[simp] theorem State.setEff_threads (s : State) (a : Nat) (v : Word32) : (s.setEff a v).threads = s.threads := rfl
@[simp] theorem State.setEff_cores (s : State) (a : Nat) (v : Word32) : (s.setEff a v).cores = s.cores := rfl
@[simp] theorem State.setEff_caches (s : State) (a : Nat) (v : Word32) : (s.setEff a v).caches = s.caches := rfl
@[simp] theorem State.setEff_resvs (s : State) (a : Nat) (v : Word32) : (s.setEff a v).resvs = s.resvs := rfl
@[simp] theorem State.setEff_pairs (s : State) (a : Nat) (v : Word32) : (s.setEff a v).pairs = s.pairs := rfl
@[simp] theorem State.setEff_ports (s : State) (a : Nat) (v : Word32) : (s.setEff a v).ports = s.ports := rfl
@[simp] theorem State.setEff_porter (s : State) (a : Nat) (v : Word32) : (s.setEff a v).porter = s.porter := rfl
@[simp] theorem State.setEff_prompt (s : State) (a : Nat) (v : Word32) : (s.setEff a v).prompt = s.prompt := rfl
@[simp] theorem State.setEff_crier (s : State) (a : Nat) (v : Word32) : (s.setEff a v).crier = s.crier := rfl
@[simp] theorem State.setEff_funcs (s : State) (a : Nat) (v : Word32) : (s.setEff a v).funcs = s.funcs := rfl
@[simp] theorem State.setEff_vecs (s : State) (a : Nat) (v : Word32) : (s.setEff a v).vecs = s.vecs := rfl
@[simp] theorem State.setEff_hqs (s : State) (a : Nat) (v : Word32) : (s.setEff a v).hqs = s.hqs := rfl
@[simp] theorem State.setEff_link (s : State) (a : Nat) (v : Word32) : (s.setEff a v).link = s.link := rfl
@[simp] theorem State.setEff_tally (s : State) (a : Nat) (v : Word32) : (s.setEff a v).tally = s.tally := rfl
@[simp] theorem State.setEff_assay (s : State) (a : Nat) (v : Word32) : (s.setEff a v).assay = s.assay := rfl
@[simp] theorem State.setEff_bellows (s : State) (a : Nat) (v : Word32) : (s.setEff a v).bellows = s.bellows := rfl
@[simp] theorem State.setEff_arbs (s : State) (a : Nat) (v : Word32) : (s.setEff a v).arbs = s.arbs := rfl
@[simp] theorem State.setEff_power (s : State) (a : Nat) (v : Word32) : (s.setEff a v).power = s.power := rfl
@[simp] theorem State.setEff_fuses (s : State) (a : Nat) (v : Word32) : (s.setEff a v).fuses = s.fuses := rfl
@[simp] theorem State.setEff_boot (s : State) (a : Nat) (v : Word32) : (s.setEff a v).boot = s.boot := rfl
@[simp] theorem State.setEff_ledger (s : State) (a : Nat) (v : Word32) : (s.setEff a v).ledger = s.ledger := rfl
@[simp] theorem State.setEff_attar (s : State) (a : Nat) (v : Word32) : (s.setEff a v).attar = s.attar := rfl
@[simp] theorem State.setEff_tb (s : State) (a : Nat) (v : Word32) : (s.setEff a v).tb = s.tb := rfl
@[simp] theorem State.setEff_pins (s : State) (a : Nat) (v : Word32) : (s.setEff a v).pins = s.pins := rfl
@[simp] theorem State.setEff_emitted (s : State) (a : Nat) (v : Word32) : (s.setEff a v).emitted = s.emitted := rfl
@[simp] theorem State.setEff_freeCtr (s : State) (a : Nat) (v : Word32) : (s.setEff a v).freeCtr = s.freeCtr := rfl

@[simp] theorem State.setThr_pending (s : State) (t : Nat) (x : Thread) : (s.setThr t x).pending = s.pending := rfl
@[simp] theorem State.setThr_mem (s : State) (t : Nat) (x : Thread) : (s.setThr t x).mem = s.mem := rfl
@[simp] theorem State.setThr_eccC (s : State) (t : Nat) (x : Thread) : (s.setThr t x).eccC = s.eccC := rfl
@[simp] theorem State.setThr_eccU (s : State) (t : Nat) (x : Thread) : (s.setThr t x).eccU = s.eccU := rfl
@[simp] theorem State.setThr_regs (s : State) (t : Nat) (x : Thread) : (s.setThr t x).regs = s.regs := rfl
@[simp] theorem State.setThr_eff (s : State) (t : Nat) (x : Thread) : (s.setThr t x).eff = s.eff := rfl
@[simp] theorem State.setThr_hold (s : State) (t : Nat) (x : Thread) : (s.setThr t x).hold = s.hold := rfl
@[simp] theorem State.setThr_snap (s : State) (t : Nat) (x : Thread) : (s.setThr t x).snap = s.snap := rfl
@[simp] theorem State.setThr_cores (s : State) (t : Nat) (x : Thread) : (s.setThr t x).cores = s.cores := rfl
@[simp] theorem State.setThr_caches (s : State) (t : Nat) (x : Thread) : (s.setThr t x).caches = s.caches := rfl
@[simp] theorem State.setThr_resvs (s : State) (t : Nat) (x : Thread) : (s.setThr t x).resvs = s.resvs := rfl
@[simp] theorem State.setThr_pairs (s : State) (t : Nat) (x : Thread) : (s.setThr t x).pairs = s.pairs := rfl
@[simp] theorem State.setThr_ports (s : State) (t : Nat) (x : Thread) : (s.setThr t x).ports = s.ports := rfl
@[simp] theorem State.setThr_porter (s : State) (t : Nat) (x : Thread) : (s.setThr t x).porter = s.porter := rfl
@[simp] theorem State.setThr_prompt (s : State) (t : Nat) (x : Thread) : (s.setThr t x).prompt = s.prompt := rfl
@[simp] theorem State.setThr_crier (s : State) (t : Nat) (x : Thread) : (s.setThr t x).crier = s.crier := rfl
@[simp] theorem State.setThr_funcs (s : State) (t : Nat) (x : Thread) : (s.setThr t x).funcs = s.funcs := rfl
@[simp] theorem State.setThr_vecs (s : State) (t : Nat) (x : Thread) : (s.setThr t x).vecs = s.vecs := rfl
@[simp] theorem State.setThr_hqs (s : State) (t : Nat) (x : Thread) : (s.setThr t x).hqs = s.hqs := rfl
@[simp] theorem State.setThr_link (s : State) (t : Nat) (x : Thread) : (s.setThr t x).link = s.link := rfl
@[simp] theorem State.setThr_tally (s : State) (t : Nat) (x : Thread) : (s.setThr t x).tally = s.tally := rfl
@[simp] theorem State.setThr_assay (s : State) (t : Nat) (x : Thread) : (s.setThr t x).assay = s.assay := rfl
@[simp] theorem State.setThr_bellows (s : State) (t : Nat) (x : Thread) : (s.setThr t x).bellows = s.bellows := rfl
@[simp] theorem State.setThr_arbs (s : State) (t : Nat) (x : Thread) : (s.setThr t x).arbs = s.arbs := rfl
@[simp] theorem State.setThr_power (s : State) (t : Nat) (x : Thread) : (s.setThr t x).power = s.power := rfl
@[simp] theorem State.setThr_fuses (s : State) (t : Nat) (x : Thread) : (s.setThr t x).fuses = s.fuses := rfl
@[simp] theorem State.setThr_boot (s : State) (t : Nat) (x : Thread) : (s.setThr t x).boot = s.boot := rfl
@[simp] theorem State.setThr_ledger (s : State) (t : Nat) (x : Thread) : (s.setThr t x).ledger = s.ledger := rfl
@[simp] theorem State.setThr_attar (s : State) (t : Nat) (x : Thread) : (s.setThr t x).attar = s.attar := rfl
@[simp] theorem State.setThr_tb (s : State) (t : Nat) (x : Thread) : (s.setThr t x).tb = s.tb := rfl
@[simp] theorem State.setThr_pins (s : State) (t : Nat) (x : Thread) : (s.setThr t x).pins = s.pins := rfl
@[simp] theorem State.setThr_emitted (s : State) (t : Nat) (x : Thread) : (s.setThr t x).emitted = s.emitted := rfl
@[simp] theorem State.setThr_freeCtr (s : State) (t : Nat) (x : Thread) : (s.setThr t x).freeCtr = s.freeCtr := rfl

@[simp] theorem State.setCore_pending (s : State) (c : Nat) (x : Core) : (s.setCore c x).pending = s.pending := rfl
@[simp] theorem State.setCore_mem (s : State) (c : Nat) (x : Core) : (s.setCore c x).mem = s.mem := rfl
@[simp] theorem State.setCore_eccC (s : State) (c : Nat) (x : Core) : (s.setCore c x).eccC = s.eccC := rfl
@[simp] theorem State.setCore_eccU (s : State) (c : Nat) (x : Core) : (s.setCore c x).eccU = s.eccU := rfl
@[simp] theorem State.setCore_regs (s : State) (c : Nat) (x : Core) : (s.setCore c x).regs = s.regs := rfl
@[simp] theorem State.setCore_eff (s : State) (c : Nat) (x : Core) : (s.setCore c x).eff = s.eff := rfl
@[simp] theorem State.setCore_hold (s : State) (c : Nat) (x : Core) : (s.setCore c x).hold = s.hold := rfl
@[simp] theorem State.setCore_snap (s : State) (c : Nat) (x : Core) : (s.setCore c x).snap = s.snap := rfl
@[simp] theorem State.setCore_threads (s : State) (c : Nat) (x : Core) : (s.setCore c x).threads = s.threads := rfl
@[simp] theorem State.setCore_resvs (s : State) (c : Nat) (x : Core) : (s.setCore c x).resvs = s.resvs := rfl
@[simp] theorem State.setCore_pairs (s : State) (c : Nat) (x : Core) : (s.setCore c x).pairs = s.pairs := rfl
@[simp] theorem State.setCore_ports (s : State) (c : Nat) (x : Core) : (s.setCore c x).ports = s.ports := rfl
@[simp] theorem State.setCore_porter (s : State) (c : Nat) (x : Core) : (s.setCore c x).porter = s.porter := rfl
@[simp] theorem State.setCore_prompt (s : State) (c : Nat) (x : Core) : (s.setCore c x).prompt = s.prompt := rfl
@[simp] theorem State.setCore_crier (s : State) (c : Nat) (x : Core) : (s.setCore c x).crier = s.crier := rfl
@[simp] theorem State.setCore_funcs (s : State) (c : Nat) (x : Core) : (s.setCore c x).funcs = s.funcs := rfl
@[simp] theorem State.setCore_vecs (s : State) (c : Nat) (x : Core) : (s.setCore c x).vecs = s.vecs := rfl
@[simp] theorem State.setCore_hqs (s : State) (c : Nat) (x : Core) : (s.setCore c x).hqs = s.hqs := rfl
@[simp] theorem State.setCore_link (s : State) (c : Nat) (x : Core) : (s.setCore c x).link = s.link := rfl
@[simp] theorem State.setCore_tally (s : State) (c : Nat) (x : Core) : (s.setCore c x).tally = s.tally := rfl
@[simp] theorem State.setCore_assay (s : State) (c : Nat) (x : Core) : (s.setCore c x).assay = s.assay := rfl
@[simp] theorem State.setCore_bellows (s : State) (c : Nat) (x : Core) : (s.setCore c x).bellows = s.bellows := rfl
@[simp] theorem State.setCore_arbs (s : State) (c : Nat) (x : Core) : (s.setCore c x).arbs = s.arbs := rfl
@[simp] theorem State.setCore_power (s : State) (c : Nat) (x : Core) : (s.setCore c x).power = s.power := rfl
@[simp] theorem State.setCore_fuses (s : State) (c : Nat) (x : Core) : (s.setCore c x).fuses = s.fuses := rfl
@[simp] theorem State.setCore_boot (s : State) (c : Nat) (x : Core) : (s.setCore c x).boot = s.boot := rfl
@[simp] theorem State.setCore_ledger (s : State) (c : Nat) (x : Core) : (s.setCore c x).ledger = s.ledger := rfl
@[simp] theorem State.setCore_attar (s : State) (c : Nat) (x : Core) : (s.setCore c x).attar = s.attar := rfl
@[simp] theorem State.setCore_tb (s : State) (c : Nat) (x : Core) : (s.setCore c x).tb = s.tb := rfl
@[simp] theorem State.setCore_pins (s : State) (c : Nat) (x : Core) : (s.setCore c x).pins = s.pins := rfl
@[simp] theorem State.setCore_emitted (s : State) (c : Nat) (x : Core) : (s.setCore c x).emitted = s.emitted := rfl
@[simp] theorem State.setCore_freeCtr (s : State) (c : Nat) (x : Core) : (s.setCore c x).freeCtr = s.freeCtr := rfl
@[simp] theorem State.setCore_caches (s : State) (c : Nat) (x : Core) : (s.setCore c x).caches = s.caches := rfl
@[simp] theorem State.setCaches_pending (s : State) (c : Nat) (x : Caches) : (s.setCaches c x).pending = s.pending := rfl
@[simp] theorem State.setCaches_mem (s : State) (c : Nat) (x : Caches) : (s.setCaches c x).mem = s.mem := rfl
@[simp] theorem State.setCaches_eccC (s : State) (c : Nat) (x : Caches) : (s.setCaches c x).eccC = s.eccC := rfl
@[simp] theorem State.setCaches_eccU (s : State) (c : Nat) (x : Caches) : (s.setCaches c x).eccU = s.eccU := rfl
@[simp] theorem State.setCaches_regs (s : State) (c : Nat) (x : Caches) : (s.setCaches c x).regs = s.regs := rfl
@[simp] theorem State.setCaches_eff (s : State) (c : Nat) (x : Caches) : (s.setCaches c x).eff = s.eff := rfl
@[simp] theorem State.setCaches_hold (s : State) (c : Nat) (x : Caches) : (s.setCaches c x).hold = s.hold := rfl
@[simp] theorem State.setCaches_snap (s : State) (c : Nat) (x : Caches) : (s.setCaches c x).snap = s.snap := rfl
@[simp] theorem State.setCaches_threads (s : State) (c : Nat) (x : Caches) : (s.setCaches c x).threads = s.threads := rfl
@[simp] theorem State.setCaches_resvs (s : State) (c : Nat) (x : Caches) : (s.setCaches c x).resvs = s.resvs := rfl
@[simp] theorem State.setCaches_pairs (s : State) (c : Nat) (x : Caches) : (s.setCaches c x).pairs = s.pairs := rfl
@[simp] theorem State.setCaches_ports (s : State) (c : Nat) (x : Caches) : (s.setCaches c x).ports = s.ports := rfl
@[simp] theorem State.setCaches_porter (s : State) (c : Nat) (x : Caches) : (s.setCaches c x).porter = s.porter := rfl
@[simp] theorem State.setCaches_prompt (s : State) (c : Nat) (x : Caches) : (s.setCaches c x).prompt = s.prompt := rfl
@[simp] theorem State.setCaches_crier (s : State) (c : Nat) (x : Caches) : (s.setCaches c x).crier = s.crier := rfl
@[simp] theorem State.setCaches_funcs (s : State) (c : Nat) (x : Caches) : (s.setCaches c x).funcs = s.funcs := rfl
@[simp] theorem State.setCaches_vecs (s : State) (c : Nat) (x : Caches) : (s.setCaches c x).vecs = s.vecs := rfl
@[simp] theorem State.setCaches_hqs (s : State) (c : Nat) (x : Caches) : (s.setCaches c x).hqs = s.hqs := rfl
@[simp] theorem State.setCaches_link (s : State) (c : Nat) (x : Caches) : (s.setCaches c x).link = s.link := rfl
@[simp] theorem State.setCaches_tally (s : State) (c : Nat) (x : Caches) : (s.setCaches c x).tally = s.tally := rfl
@[simp] theorem State.setCaches_assay (s : State) (c : Nat) (x : Caches) : (s.setCaches c x).assay = s.assay := rfl
@[simp] theorem State.setCaches_bellows (s : State) (c : Nat) (x : Caches) : (s.setCaches c x).bellows = s.bellows := rfl
@[simp] theorem State.setCaches_arbs (s : State) (c : Nat) (x : Caches) : (s.setCaches c x).arbs = s.arbs := rfl
@[simp] theorem State.setCaches_power (s : State) (c : Nat) (x : Caches) : (s.setCaches c x).power = s.power := rfl
@[simp] theorem State.setCaches_fuses (s : State) (c : Nat) (x : Caches) : (s.setCaches c x).fuses = s.fuses := rfl
@[simp] theorem State.setCaches_boot (s : State) (c : Nat) (x : Caches) : (s.setCaches c x).boot = s.boot := rfl
@[simp] theorem State.setCaches_ledger (s : State) (c : Nat) (x : Caches) : (s.setCaches c x).ledger = s.ledger := rfl
@[simp] theorem State.setCaches_attar (s : State) (c : Nat) (x : Caches) : (s.setCaches c x).attar = s.attar := rfl
@[simp] theorem State.setCaches_tb (s : State) (c : Nat) (x : Caches) : (s.setCaches c x).tb = s.tb := rfl
@[simp] theorem State.setCaches_pins (s : State) (c : Nat) (x : Caches) : (s.setCaches c x).pins = s.pins := rfl
@[simp] theorem State.setCaches_emitted (s : State) (c : Nat) (x : Caches) : (s.setCaches c x).emitted = s.emitted := rfl
@[simp] theorem State.setCaches_freeCtr (s : State) (c : Nat) (x : Caches) : (s.setCaches c x).freeCtr = s.freeCtr := rfl
@[simp] theorem State.setCaches_cores (s : State) (c : Nat) (x : Caches) : (s.setCaches c x).cores = s.cores := rfl

@[simp] theorem State.setPair_pending (s : State) (p : Nat) (x : Pair) : (s.setPair p x).pending = s.pending := rfl
@[simp] theorem State.setPair_mem (s : State) (p : Nat) (x : Pair) : (s.setPair p x).mem = s.mem := rfl
@[simp] theorem State.setPair_eccC (s : State) (p : Nat) (x : Pair) : (s.setPair p x).eccC = s.eccC := rfl
@[simp] theorem State.setPair_eccU (s : State) (p : Nat) (x : Pair) : (s.setPair p x).eccU = s.eccU := rfl
@[simp] theorem State.setPair_regs (s : State) (p : Nat) (x : Pair) : (s.setPair p x).regs = s.regs := rfl
@[simp] theorem State.setPair_eff (s : State) (p : Nat) (x : Pair) : (s.setPair p x).eff = s.eff := rfl
@[simp] theorem State.setPair_hold (s : State) (p : Nat) (x : Pair) : (s.setPair p x).hold = s.hold := rfl
@[simp] theorem State.setPair_snap (s : State) (p : Nat) (x : Pair) : (s.setPair p x).snap = s.snap := rfl
@[simp] theorem State.setPair_threads (s : State) (p : Nat) (x : Pair) : (s.setPair p x).threads = s.threads := rfl
@[simp] theorem State.setPair_cores (s : State) (p : Nat) (x : Pair) : (s.setPair p x).cores = s.cores := rfl
@[simp] theorem State.setPair_caches (s : State) (p : Nat) (x : Pair) : (s.setPair p x).caches = s.caches := rfl
@[simp] theorem State.setPair_resvs (s : State) (p : Nat) (x : Pair) : (s.setPair p x).resvs = s.resvs := rfl
@[simp] theorem State.setPair_ports (s : State) (p : Nat) (x : Pair) : (s.setPair p x).ports = s.ports := rfl
@[simp] theorem State.setPair_porter (s : State) (p : Nat) (x : Pair) : (s.setPair p x).porter = s.porter := rfl
@[simp] theorem State.setPair_prompt (s : State) (p : Nat) (x : Pair) : (s.setPair p x).prompt = s.prompt := rfl
@[simp] theorem State.setPair_crier (s : State) (p : Nat) (x : Pair) : (s.setPair p x).crier = s.crier := rfl
@[simp] theorem State.setPair_funcs (s : State) (p : Nat) (x : Pair) : (s.setPair p x).funcs = s.funcs := rfl
@[simp] theorem State.setPair_vecs (s : State) (p : Nat) (x : Pair) : (s.setPair p x).vecs = s.vecs := rfl
@[simp] theorem State.setPair_hqs (s : State) (p : Nat) (x : Pair) : (s.setPair p x).hqs = s.hqs := rfl
@[simp] theorem State.setPair_link (s : State) (p : Nat) (x : Pair) : (s.setPair p x).link = s.link := rfl
@[simp] theorem State.setPair_tally (s : State) (p : Nat) (x : Pair) : (s.setPair p x).tally = s.tally := rfl
@[simp] theorem State.setPair_assay (s : State) (p : Nat) (x : Pair) : (s.setPair p x).assay = s.assay := rfl
@[simp] theorem State.setPair_bellows (s : State) (p : Nat) (x : Pair) : (s.setPair p x).bellows = s.bellows := rfl
@[simp] theorem State.setPair_arbs (s : State) (p : Nat) (x : Pair) : (s.setPair p x).arbs = s.arbs := rfl
@[simp] theorem State.setPair_power (s : State) (p : Nat) (x : Pair) : (s.setPair p x).power = s.power := rfl
@[simp] theorem State.setPair_fuses (s : State) (p : Nat) (x : Pair) : (s.setPair p x).fuses = s.fuses := rfl
@[simp] theorem State.setPair_boot (s : State) (p : Nat) (x : Pair) : (s.setPair p x).boot = s.boot := rfl
@[simp] theorem State.setPair_ledger (s : State) (p : Nat) (x : Pair) : (s.setPair p x).ledger = s.ledger := rfl
@[simp] theorem State.setPair_attar (s : State) (p : Nat) (x : Pair) : (s.setPair p x).attar = s.attar := rfl
@[simp] theorem State.setPair_tb (s : State) (p : Nat) (x : Pair) : (s.setPair p x).tb = s.tb := rfl
@[simp] theorem State.setPair_pins (s : State) (p : Nat) (x : Pair) : (s.setPair p x).pins = s.pins := rfl
@[simp] theorem State.setPair_emitted (s : State) (p : Nat) (x : Pair) : (s.setPair p x).emitted = s.emitted := rfl
@[simp] theorem State.setPair_freeCtr (s : State) (p : Nat) (x : Pair) : (s.setPair p x).freeCtr = s.freeCtr := rfl

@[simp] theorem State.setPort_pending (s : State) (p : Nat) (x : Port) : (s.setPort p x).pending = s.pending := rfl
@[simp] theorem State.setPort_mem (s : State) (p : Nat) (x : Port) : (s.setPort p x).mem = s.mem := rfl
@[simp] theorem State.setPort_eccC (s : State) (p : Nat) (x : Port) : (s.setPort p x).eccC = s.eccC := rfl
@[simp] theorem State.setPort_eccU (s : State) (p : Nat) (x : Port) : (s.setPort p x).eccU = s.eccU := rfl
@[simp] theorem State.setPort_regs (s : State) (p : Nat) (x : Port) : (s.setPort p x).regs = s.regs := rfl
@[simp] theorem State.setPort_eff (s : State) (p : Nat) (x : Port) : (s.setPort p x).eff = s.eff := rfl
@[simp] theorem State.setPort_hold (s : State) (p : Nat) (x : Port) : (s.setPort p x).hold = s.hold := rfl
@[simp] theorem State.setPort_snap (s : State) (p : Nat) (x : Port) : (s.setPort p x).snap = s.snap := rfl
@[simp] theorem State.setPort_threads (s : State) (p : Nat) (x : Port) : (s.setPort p x).threads = s.threads := rfl
@[simp] theorem State.setPort_cores (s : State) (p : Nat) (x : Port) : (s.setPort p x).cores = s.cores := rfl
@[simp] theorem State.setPort_caches (s : State) (p : Nat) (x : Port) : (s.setPort p x).caches = s.caches := rfl
@[simp] theorem State.setPort_resvs (s : State) (p : Nat) (x : Port) : (s.setPort p x).resvs = s.resvs := rfl
@[simp] theorem State.setPort_pairs (s : State) (p : Nat) (x : Port) : (s.setPort p x).pairs = s.pairs := rfl
@[simp] theorem State.setPort_porter (s : State) (p : Nat) (x : Port) : (s.setPort p x).porter = s.porter := rfl
@[simp] theorem State.setPort_prompt (s : State) (p : Nat) (x : Port) : (s.setPort p x).prompt = s.prompt := rfl
@[simp] theorem State.setPort_crier (s : State) (p : Nat) (x : Port) : (s.setPort p x).crier = s.crier := rfl
@[simp] theorem State.setPort_funcs (s : State) (p : Nat) (x : Port) : (s.setPort p x).funcs = s.funcs := rfl
@[simp] theorem State.setPort_vecs (s : State) (p : Nat) (x : Port) : (s.setPort p x).vecs = s.vecs := rfl
@[simp] theorem State.setPort_hqs (s : State) (p : Nat) (x : Port) : (s.setPort p x).hqs = s.hqs := rfl
@[simp] theorem State.setPort_link (s : State) (p : Nat) (x : Port) : (s.setPort p x).link = s.link := rfl
@[simp] theorem State.setPort_tally (s : State) (p : Nat) (x : Port) : (s.setPort p x).tally = s.tally := rfl
@[simp] theorem State.setPort_assay (s : State) (p : Nat) (x : Port) : (s.setPort p x).assay = s.assay := rfl
@[simp] theorem State.setPort_bellows (s : State) (p : Nat) (x : Port) : (s.setPort p x).bellows = s.bellows := rfl
@[simp] theorem State.setPort_arbs (s : State) (p : Nat) (x : Port) : (s.setPort p x).arbs = s.arbs := rfl
@[simp] theorem State.setPort_power (s : State) (p : Nat) (x : Port) : (s.setPort p x).power = s.power := rfl
@[simp] theorem State.setPort_fuses (s : State) (p : Nat) (x : Port) : (s.setPort p x).fuses = s.fuses := rfl
@[simp] theorem State.setPort_boot (s : State) (p : Nat) (x : Port) : (s.setPort p x).boot = s.boot := rfl
@[simp] theorem State.setPort_ledger (s : State) (p : Nat) (x : Port) : (s.setPort p x).ledger = s.ledger := rfl
@[simp] theorem State.setPort_attar (s : State) (p : Nat) (x : Port) : (s.setPort p x).attar = s.attar := rfl
@[simp] theorem State.setPort_tb (s : State) (p : Nat) (x : Port) : (s.setPort p x).tb = s.tb := rfl
@[simp] theorem State.setPort_pins (s : State) (p : Nat) (x : Port) : (s.setPort p x).pins = s.pins := rfl
@[simp] theorem State.setPort_emitted (s : State) (p : Nat) (x : Port) : (s.setPort p x).emitted = s.emitted := rfl
@[simp] theorem State.setPort_freeCtr (s : State) (p : Nat) (x : Port) : (s.setPort p x).freeCtr = s.freeCtr := rfl

@[simp] theorem State.setFunc_pending (s : State) (f : Nat) (x : Func) : (s.setFunc f x).pending = s.pending := rfl
@[simp] theorem State.setFunc_mem (s : State) (f : Nat) (x : Func) : (s.setFunc f x).mem = s.mem := rfl
@[simp] theorem State.setFunc_eccC (s : State) (f : Nat) (x : Func) : (s.setFunc f x).eccC = s.eccC := rfl
@[simp] theorem State.setFunc_eccU (s : State) (f : Nat) (x : Func) : (s.setFunc f x).eccU = s.eccU := rfl
@[simp] theorem State.setFunc_regs (s : State) (f : Nat) (x : Func) : (s.setFunc f x).regs = s.regs := rfl
@[simp] theorem State.setFunc_eff (s : State) (f : Nat) (x : Func) : (s.setFunc f x).eff = s.eff := rfl
@[simp] theorem State.setFunc_hold (s : State) (f : Nat) (x : Func) : (s.setFunc f x).hold = s.hold := rfl
@[simp] theorem State.setFunc_snap (s : State) (f : Nat) (x : Func) : (s.setFunc f x).snap = s.snap := rfl
@[simp] theorem State.setFunc_threads (s : State) (f : Nat) (x : Func) : (s.setFunc f x).threads = s.threads := rfl
@[simp] theorem State.setFunc_cores (s : State) (f : Nat) (x : Func) : (s.setFunc f x).cores = s.cores := rfl
@[simp] theorem State.setFunc_caches (s : State) (f : Nat) (x : Func) : (s.setFunc f x).caches = s.caches := rfl
@[simp] theorem State.setFunc_resvs (s : State) (f : Nat) (x : Func) : (s.setFunc f x).resvs = s.resvs := rfl
@[simp] theorem State.setFunc_pairs (s : State) (f : Nat) (x : Func) : (s.setFunc f x).pairs = s.pairs := rfl
@[simp] theorem State.setFunc_ports (s : State) (f : Nat) (x : Func) : (s.setFunc f x).ports = s.ports := rfl
@[simp] theorem State.setFunc_porter (s : State) (f : Nat) (x : Func) : (s.setFunc f x).porter = s.porter := rfl
@[simp] theorem State.setFunc_prompt (s : State) (f : Nat) (x : Func) : (s.setFunc f x).prompt = s.prompt := rfl
@[simp] theorem State.setFunc_crier (s : State) (f : Nat) (x : Func) : (s.setFunc f x).crier = s.crier := rfl
@[simp] theorem State.setFunc_vecs (s : State) (f : Nat) (x : Func) : (s.setFunc f x).vecs = s.vecs := rfl
@[simp] theorem State.setFunc_hqs (s : State) (f : Nat) (x : Func) : (s.setFunc f x).hqs = s.hqs := rfl
@[simp] theorem State.setFunc_link (s : State) (f : Nat) (x : Func) : (s.setFunc f x).link = s.link := rfl
@[simp] theorem State.setFunc_tally (s : State) (f : Nat) (x : Func) : (s.setFunc f x).tally = s.tally := rfl
@[simp] theorem State.setFunc_assay (s : State) (f : Nat) (x : Func) : (s.setFunc f x).assay = s.assay := rfl
@[simp] theorem State.setFunc_bellows (s : State) (f : Nat) (x : Func) : (s.setFunc f x).bellows = s.bellows := rfl
@[simp] theorem State.setFunc_arbs (s : State) (f : Nat) (x : Func) : (s.setFunc f x).arbs = s.arbs := rfl
@[simp] theorem State.setFunc_power (s : State) (f : Nat) (x : Func) : (s.setFunc f x).power = s.power := rfl
@[simp] theorem State.setFunc_fuses (s : State) (f : Nat) (x : Func) : (s.setFunc f x).fuses = s.fuses := rfl
@[simp] theorem State.setFunc_boot (s : State) (f : Nat) (x : Func) : (s.setFunc f x).boot = s.boot := rfl
@[simp] theorem State.setFunc_ledger (s : State) (f : Nat) (x : Func) : (s.setFunc f x).ledger = s.ledger := rfl
@[simp] theorem State.setFunc_attar (s : State) (f : Nat) (x : Func) : (s.setFunc f x).attar = s.attar := rfl
@[simp] theorem State.setFunc_tb (s : State) (f : Nat) (x : Func) : (s.setFunc f x).tb = s.tb := rfl
@[simp] theorem State.setFunc_pins (s : State) (f : Nat) (x : Func) : (s.setFunc f x).pins = s.pins := rfl
@[simp] theorem State.setFunc_emitted (s : State) (f : Nat) (x : Func) : (s.setFunc f x).emitted = s.emitted := rfl
@[simp] theorem State.setFunc_freeCtr (s : State) (f : Nat) (x : Func) : (s.setFunc f x).freeCtr = s.freeCtr := rfl

@[simp] theorem State.setVec_pending (s : State) (q : Nat) (x : Vec) : (s.setVec q x).pending = s.pending := rfl
@[simp] theorem State.setVec_mem (s : State) (q : Nat) (x : Vec) : (s.setVec q x).mem = s.mem := rfl
@[simp] theorem State.setVec_eccC (s : State) (q : Nat) (x : Vec) : (s.setVec q x).eccC = s.eccC := rfl
@[simp] theorem State.setVec_eccU (s : State) (q : Nat) (x : Vec) : (s.setVec q x).eccU = s.eccU := rfl
@[simp] theorem State.setVec_regs (s : State) (q : Nat) (x : Vec) : (s.setVec q x).regs = s.regs := rfl
@[simp] theorem State.setVec_eff (s : State) (q : Nat) (x : Vec) : (s.setVec q x).eff = s.eff := rfl
@[simp] theorem State.setVec_hold (s : State) (q : Nat) (x : Vec) : (s.setVec q x).hold = s.hold := rfl
@[simp] theorem State.setVec_snap (s : State) (q : Nat) (x : Vec) : (s.setVec q x).snap = s.snap := rfl
@[simp] theorem State.setVec_threads (s : State) (q : Nat) (x : Vec) : (s.setVec q x).threads = s.threads := rfl
@[simp] theorem State.setVec_cores (s : State) (q : Nat) (x : Vec) : (s.setVec q x).cores = s.cores := rfl
@[simp] theorem State.setVec_caches (s : State) (q : Nat) (x : Vec) : (s.setVec q x).caches = s.caches := rfl
@[simp] theorem State.setVec_resvs (s : State) (q : Nat) (x : Vec) : (s.setVec q x).resvs = s.resvs := rfl
@[simp] theorem State.setVec_pairs (s : State) (q : Nat) (x : Vec) : (s.setVec q x).pairs = s.pairs := rfl
@[simp] theorem State.setVec_ports (s : State) (q : Nat) (x : Vec) : (s.setVec q x).ports = s.ports := rfl
@[simp] theorem State.setVec_porter (s : State) (q : Nat) (x : Vec) : (s.setVec q x).porter = s.porter := rfl
@[simp] theorem State.setVec_prompt (s : State) (q : Nat) (x : Vec) : (s.setVec q x).prompt = s.prompt := rfl
@[simp] theorem State.setVec_crier (s : State) (q : Nat) (x : Vec) : (s.setVec q x).crier = s.crier := rfl
@[simp] theorem State.setVec_funcs (s : State) (q : Nat) (x : Vec) : (s.setVec q x).funcs = s.funcs := rfl
@[simp] theorem State.setVec_hqs (s : State) (q : Nat) (x : Vec) : (s.setVec q x).hqs = s.hqs := rfl
@[simp] theorem State.setVec_link (s : State) (q : Nat) (x : Vec) : (s.setVec q x).link = s.link := rfl
@[simp] theorem State.setVec_tally (s : State) (q : Nat) (x : Vec) : (s.setVec q x).tally = s.tally := rfl
@[simp] theorem State.setVec_assay (s : State) (q : Nat) (x : Vec) : (s.setVec q x).assay = s.assay := rfl
@[simp] theorem State.setVec_bellows (s : State) (q : Nat) (x : Vec) : (s.setVec q x).bellows = s.bellows := rfl
@[simp] theorem State.setVec_arbs (s : State) (q : Nat) (x : Vec) : (s.setVec q x).arbs = s.arbs := rfl
@[simp] theorem State.setVec_power (s : State) (q : Nat) (x : Vec) : (s.setVec q x).power = s.power := rfl
@[simp] theorem State.setVec_fuses (s : State) (q : Nat) (x : Vec) : (s.setVec q x).fuses = s.fuses := rfl
@[simp] theorem State.setVec_boot (s : State) (q : Nat) (x : Vec) : (s.setVec q x).boot = s.boot := rfl
@[simp] theorem State.setVec_ledger (s : State) (q : Nat) (x : Vec) : (s.setVec q x).ledger = s.ledger := rfl
@[simp] theorem State.setVec_attar (s : State) (q : Nat) (x : Vec) : (s.setVec q x).attar = s.attar := rfl
@[simp] theorem State.setVec_tb (s : State) (q : Nat) (x : Vec) : (s.setVec q x).tb = s.tb := rfl
@[simp] theorem State.setVec_pins (s : State) (q : Nat) (x : Vec) : (s.setVec q x).pins = s.pins := rfl
@[simp] theorem State.setVec_emitted (s : State) (q : Nat) (x : Vec) : (s.setVec q x).emitted = s.emitted := rfl
@[simp] theorem State.setVec_freeCtr (s : State) (q : Nat) (x : Vec) : (s.setVec q x).freeCtr = s.freeCtr := rfl

@[simp] theorem State.setHq_pending (s : State) (q : Nat) (x : HQ) : (s.setHq q x).pending = s.pending := rfl
@[simp] theorem State.setHq_mem (s : State) (q : Nat) (x : HQ) : (s.setHq q x).mem = s.mem := rfl
@[simp] theorem State.setHq_eccC (s : State) (q : Nat) (x : HQ) : (s.setHq q x).eccC = s.eccC := rfl
@[simp] theorem State.setHq_eccU (s : State) (q : Nat) (x : HQ) : (s.setHq q x).eccU = s.eccU := rfl
@[simp] theorem State.setHq_regs (s : State) (q : Nat) (x : HQ) : (s.setHq q x).regs = s.regs := rfl
@[simp] theorem State.setHq_eff (s : State) (q : Nat) (x : HQ) : (s.setHq q x).eff = s.eff := rfl
@[simp] theorem State.setHq_hold (s : State) (q : Nat) (x : HQ) : (s.setHq q x).hold = s.hold := rfl
@[simp] theorem State.setHq_snap (s : State) (q : Nat) (x : HQ) : (s.setHq q x).snap = s.snap := rfl
@[simp] theorem State.setHq_threads (s : State) (q : Nat) (x : HQ) : (s.setHq q x).threads = s.threads := rfl
@[simp] theorem State.setHq_cores (s : State) (q : Nat) (x : HQ) : (s.setHq q x).cores = s.cores := rfl
@[simp] theorem State.setHq_caches (s : State) (q : Nat) (x : HQ) : (s.setHq q x).caches = s.caches := rfl
@[simp] theorem State.setHq_resvs (s : State) (q : Nat) (x : HQ) : (s.setHq q x).resvs = s.resvs := rfl
@[simp] theorem State.setHq_pairs (s : State) (q : Nat) (x : HQ) : (s.setHq q x).pairs = s.pairs := rfl
@[simp] theorem State.setHq_ports (s : State) (q : Nat) (x : HQ) : (s.setHq q x).ports = s.ports := rfl
@[simp] theorem State.setHq_porter (s : State) (q : Nat) (x : HQ) : (s.setHq q x).porter = s.porter := rfl
@[simp] theorem State.setHq_prompt (s : State) (q : Nat) (x : HQ) : (s.setHq q x).prompt = s.prompt := rfl
@[simp] theorem State.setHq_crier (s : State) (q : Nat) (x : HQ) : (s.setHq q x).crier = s.crier := rfl
@[simp] theorem State.setHq_funcs (s : State) (q : Nat) (x : HQ) : (s.setHq q x).funcs = s.funcs := rfl
@[simp] theorem State.setHq_vecs (s : State) (q : Nat) (x : HQ) : (s.setHq q x).vecs = s.vecs := rfl
@[simp] theorem State.setHq_link (s : State) (q : Nat) (x : HQ) : (s.setHq q x).link = s.link := rfl
@[simp] theorem State.setHq_tally (s : State) (q : Nat) (x : HQ) : (s.setHq q x).tally = s.tally := rfl
@[simp] theorem State.setHq_assay (s : State) (q : Nat) (x : HQ) : (s.setHq q x).assay = s.assay := rfl
@[simp] theorem State.setHq_bellows (s : State) (q : Nat) (x : HQ) : (s.setHq q x).bellows = s.bellows := rfl
@[simp] theorem State.setHq_arbs (s : State) (q : Nat) (x : HQ) : (s.setHq q x).arbs = s.arbs := rfl
@[simp] theorem State.setHq_power (s : State) (q : Nat) (x : HQ) : (s.setHq q x).power = s.power := rfl
@[simp] theorem State.setHq_fuses (s : State) (q : Nat) (x : HQ) : (s.setHq q x).fuses = s.fuses := rfl
@[simp] theorem State.setHq_boot (s : State) (q : Nat) (x : HQ) : (s.setHq q x).boot = s.boot := rfl
@[simp] theorem State.setHq_ledger (s : State) (q : Nat) (x : HQ) : (s.setHq q x).ledger = s.ledger := rfl
@[simp] theorem State.setHq_attar (s : State) (q : Nat) (x : HQ) : (s.setHq q x).attar = s.attar := rfl
@[simp] theorem State.setHq_tb (s : State) (q : Nat) (x : HQ) : (s.setHq q x).tb = s.tb := rfl
@[simp] theorem State.setHq_pins (s : State) (q : Nat) (x : HQ) : (s.setHq q x).pins = s.pins := rfl
@[simp] theorem State.setHq_emitted (s : State) (q : Nat) (x : HQ) : (s.setHq q x).emitted = s.emitted := rfl
@[simp] theorem State.setHq_freeCtr (s : State) (q : Nat) (x : HQ) : (s.setHq q x).freeCtr = s.freeCtr := rfl

@[simp] theorem State.setArb_pending (s : State) (k : Nat) (x : Arb) : (s.setArb k x).pending = s.pending := rfl
@[simp] theorem State.setArb_mem (s : State) (k : Nat) (x : Arb) : (s.setArb k x).mem = s.mem := rfl
@[simp] theorem State.setArb_eccC (s : State) (k : Nat) (x : Arb) : (s.setArb k x).eccC = s.eccC := rfl
@[simp] theorem State.setArb_eccU (s : State) (k : Nat) (x : Arb) : (s.setArb k x).eccU = s.eccU := rfl
@[simp] theorem State.setArb_regs (s : State) (k : Nat) (x : Arb) : (s.setArb k x).regs = s.regs := rfl
@[simp] theorem State.setArb_eff (s : State) (k : Nat) (x : Arb) : (s.setArb k x).eff = s.eff := rfl
@[simp] theorem State.setArb_hold (s : State) (k : Nat) (x : Arb) : (s.setArb k x).hold = s.hold := rfl
@[simp] theorem State.setArb_snap (s : State) (k : Nat) (x : Arb) : (s.setArb k x).snap = s.snap := rfl
@[simp] theorem State.setArb_threads (s : State) (k : Nat) (x : Arb) : (s.setArb k x).threads = s.threads := rfl
@[simp] theorem State.setArb_cores (s : State) (k : Nat) (x : Arb) : (s.setArb k x).cores = s.cores := rfl
@[simp] theorem State.setArb_caches (s : State) (k : Nat) (x : Arb) : (s.setArb k x).caches = s.caches := rfl
@[simp] theorem State.setArb_resvs (s : State) (k : Nat) (x : Arb) : (s.setArb k x).resvs = s.resvs := rfl
@[simp] theorem State.setArb_pairs (s : State) (k : Nat) (x : Arb) : (s.setArb k x).pairs = s.pairs := rfl
@[simp] theorem State.setArb_ports (s : State) (k : Nat) (x : Arb) : (s.setArb k x).ports = s.ports := rfl
@[simp] theorem State.setArb_porter (s : State) (k : Nat) (x : Arb) : (s.setArb k x).porter = s.porter := rfl
@[simp] theorem State.setArb_prompt (s : State) (k : Nat) (x : Arb) : (s.setArb k x).prompt = s.prompt := rfl
@[simp] theorem State.setArb_crier (s : State) (k : Nat) (x : Arb) : (s.setArb k x).crier = s.crier := rfl
@[simp] theorem State.setArb_funcs (s : State) (k : Nat) (x : Arb) : (s.setArb k x).funcs = s.funcs := rfl
@[simp] theorem State.setArb_vecs (s : State) (k : Nat) (x : Arb) : (s.setArb k x).vecs = s.vecs := rfl
@[simp] theorem State.setArb_hqs (s : State) (k : Nat) (x : Arb) : (s.setArb k x).hqs = s.hqs := rfl
@[simp] theorem State.setArb_link (s : State) (k : Nat) (x : Arb) : (s.setArb k x).link = s.link := rfl
@[simp] theorem State.setArb_tally (s : State) (k : Nat) (x : Arb) : (s.setArb k x).tally = s.tally := rfl
@[simp] theorem State.setArb_assay (s : State) (k : Nat) (x : Arb) : (s.setArb k x).assay = s.assay := rfl
@[simp] theorem State.setArb_bellows (s : State) (k : Nat) (x : Arb) : (s.setArb k x).bellows = s.bellows := rfl
@[simp] theorem State.setArb_power (s : State) (k : Nat) (x : Arb) : (s.setArb k x).power = s.power := rfl
@[simp] theorem State.setArb_fuses (s : State) (k : Nat) (x : Arb) : (s.setArb k x).fuses = s.fuses := rfl
@[simp] theorem State.setArb_boot (s : State) (k : Nat) (x : Arb) : (s.setArb k x).boot = s.boot := rfl
@[simp] theorem State.setArb_ledger (s : State) (k : Nat) (x : Arb) : (s.setArb k x).ledger = s.ledger := rfl
@[simp] theorem State.setArb_attar (s : State) (k : Nat) (x : Arb) : (s.setArb k x).attar = s.attar := rfl
@[simp] theorem State.setArb_tb (s : State) (k : Nat) (x : Arb) : (s.setArb k x).tb = s.tb := rfl
@[simp] theorem State.setArb_pins (s : State) (k : Nat) (x : Arb) : (s.setArb k x).pins = s.pins := rfl
@[simp] theorem State.setArb_emitted (s : State) (k : Nat) (x : Arb) : (s.setArb k x).emitted = s.emitted := rfl
@[simp] theorem State.setArb_freeCtr (s : State) (k : Nat) (x : Arb) : (s.setArb k x).freeCtr = s.freeCtr := rfl

@[simp] theorem State.modThr_pending (s : State) (t : Nat) (f : Thread → Thread) : (s.modThr t f).pending = s.pending := rfl
@[simp] theorem State.modThr_mem (s : State) (t : Nat) (f : Thread → Thread) : (s.modThr t f).mem = s.mem := rfl
@[simp] theorem State.modThr_eccC (s : State) (t : Nat) (f : Thread → Thread) : (s.modThr t f).eccC = s.eccC := rfl
@[simp] theorem State.modThr_eccU (s : State) (t : Nat) (f : Thread → Thread) : (s.modThr t f).eccU = s.eccU := rfl
@[simp] theorem State.modThr_regs (s : State) (t : Nat) (f : Thread → Thread) : (s.modThr t f).regs = s.regs := rfl
@[simp] theorem State.modThr_eff (s : State) (t : Nat) (f : Thread → Thread) : (s.modThr t f).eff = s.eff := rfl
@[simp] theorem State.modThr_hold (s : State) (t : Nat) (f : Thread → Thread) : (s.modThr t f).hold = s.hold := rfl
@[simp] theorem State.modThr_snap (s : State) (t : Nat) (f : Thread → Thread) : (s.modThr t f).snap = s.snap := rfl
@[simp] theorem State.modThr_cores (s : State) (t : Nat) (f : Thread → Thread) : (s.modThr t f).cores = s.cores := rfl
@[simp] theorem State.modThr_caches (s : State) (t : Nat) (f : Thread → Thread) : (s.modThr t f).caches = s.caches := rfl
@[simp] theorem State.modThr_resvs (s : State) (t : Nat) (f : Thread → Thread) : (s.modThr t f).resvs = s.resvs := rfl
@[simp] theorem State.modThr_pairs (s : State) (t : Nat) (f : Thread → Thread) : (s.modThr t f).pairs = s.pairs := rfl
@[simp] theorem State.modThr_ports (s : State) (t : Nat) (f : Thread → Thread) : (s.modThr t f).ports = s.ports := rfl
@[simp] theorem State.modThr_porter (s : State) (t : Nat) (f : Thread → Thread) : (s.modThr t f).porter = s.porter := rfl
@[simp] theorem State.modThr_prompt (s : State) (t : Nat) (f : Thread → Thread) : (s.modThr t f).prompt = s.prompt := rfl
@[simp] theorem State.modThr_crier (s : State) (t : Nat) (f : Thread → Thread) : (s.modThr t f).crier = s.crier := rfl
@[simp] theorem State.modThr_funcs (s : State) (t : Nat) (f : Thread → Thread) : (s.modThr t f).funcs = s.funcs := rfl
@[simp] theorem State.modThr_vecs (s : State) (t : Nat) (f : Thread → Thread) : (s.modThr t f).vecs = s.vecs := rfl
@[simp] theorem State.modThr_hqs (s : State) (t : Nat) (f : Thread → Thread) : (s.modThr t f).hqs = s.hqs := rfl
@[simp] theorem State.modThr_link (s : State) (t : Nat) (f : Thread → Thread) : (s.modThr t f).link = s.link := rfl
@[simp] theorem State.modThr_tally (s : State) (t : Nat) (f : Thread → Thread) : (s.modThr t f).tally = s.tally := rfl
@[simp] theorem State.modThr_assay (s : State) (t : Nat) (f : Thread → Thread) : (s.modThr t f).assay = s.assay := rfl
@[simp] theorem State.modThr_bellows (s : State) (t : Nat) (f : Thread → Thread) : (s.modThr t f).bellows = s.bellows := rfl
@[simp] theorem State.modThr_arbs (s : State) (t : Nat) (f : Thread → Thread) : (s.modThr t f).arbs = s.arbs := rfl
@[simp] theorem State.modThr_power (s : State) (t : Nat) (f : Thread → Thread) : (s.modThr t f).power = s.power := rfl
@[simp] theorem State.modThr_fuses (s : State) (t : Nat) (f : Thread → Thread) : (s.modThr t f).fuses = s.fuses := rfl
@[simp] theorem State.modThr_boot (s : State) (t : Nat) (f : Thread → Thread) : (s.modThr t f).boot = s.boot := rfl
@[simp] theorem State.modThr_ledger (s : State) (t : Nat) (f : Thread → Thread) : (s.modThr t f).ledger = s.ledger := rfl
@[simp] theorem State.modThr_attar (s : State) (t : Nat) (f : Thread → Thread) : (s.modThr t f).attar = s.attar := rfl
@[simp] theorem State.modThr_tb (s : State) (t : Nat) (f : Thread → Thread) : (s.modThr t f).tb = s.tb := rfl
@[simp] theorem State.modThr_pins (s : State) (t : Nat) (f : Thread → Thread) : (s.modThr t f).pins = s.pins := rfl
@[simp] theorem State.modThr_emitted (s : State) (t : Nat) (f : Thread → Thread) : (s.modThr t f).emitted = s.emitted := rfl
@[simp] theorem State.modThr_freeCtr (s : State) (t : Nat) (f : Thread → Thread) : (s.modThr t f).freeCtr = s.freeCtr := rfl

@[simp] theorem State.modCore_pending (s : State) (c : Nat) (f : Core → Core) : (s.modCore c f).pending = s.pending := rfl
@[simp] theorem State.modCore_mem (s : State) (c : Nat) (f : Core → Core) : (s.modCore c f).mem = s.mem := rfl
@[simp] theorem State.modCore_eccC (s : State) (c : Nat) (f : Core → Core) : (s.modCore c f).eccC = s.eccC := rfl
@[simp] theorem State.modCore_eccU (s : State) (c : Nat) (f : Core → Core) : (s.modCore c f).eccU = s.eccU := rfl
@[simp] theorem State.modCore_regs (s : State) (c : Nat) (f : Core → Core) : (s.modCore c f).regs = s.regs := rfl
@[simp] theorem State.modCore_eff (s : State) (c : Nat) (f : Core → Core) : (s.modCore c f).eff = s.eff := rfl
@[simp] theorem State.modCore_hold (s : State) (c : Nat) (f : Core → Core) : (s.modCore c f).hold = s.hold := rfl
@[simp] theorem State.modCore_snap (s : State) (c : Nat) (f : Core → Core) : (s.modCore c f).snap = s.snap := rfl
@[simp] theorem State.modCore_threads (s : State) (c : Nat) (f : Core → Core) : (s.modCore c f).threads = s.threads := rfl
@[simp] theorem State.modCore_resvs (s : State) (c : Nat) (f : Core → Core) : (s.modCore c f).resvs = s.resvs := rfl
@[simp] theorem State.modCore_pairs (s : State) (c : Nat) (f : Core → Core) : (s.modCore c f).pairs = s.pairs := rfl
@[simp] theorem State.modCore_ports (s : State) (c : Nat) (f : Core → Core) : (s.modCore c f).ports = s.ports := rfl
@[simp] theorem State.modCore_porter (s : State) (c : Nat) (f : Core → Core) : (s.modCore c f).porter = s.porter := rfl
@[simp] theorem State.modCore_prompt (s : State) (c : Nat) (f : Core → Core) : (s.modCore c f).prompt = s.prompt := rfl
@[simp] theorem State.modCore_crier (s : State) (c : Nat) (f : Core → Core) : (s.modCore c f).crier = s.crier := rfl
@[simp] theorem State.modCore_funcs (s : State) (c : Nat) (f : Core → Core) : (s.modCore c f).funcs = s.funcs := rfl
@[simp] theorem State.modCore_vecs (s : State) (c : Nat) (f : Core → Core) : (s.modCore c f).vecs = s.vecs := rfl
@[simp] theorem State.modCore_hqs (s : State) (c : Nat) (f : Core → Core) : (s.modCore c f).hqs = s.hqs := rfl
@[simp] theorem State.modCore_link (s : State) (c : Nat) (f : Core → Core) : (s.modCore c f).link = s.link := rfl
@[simp] theorem State.modCore_tally (s : State) (c : Nat) (f : Core → Core) : (s.modCore c f).tally = s.tally := rfl
@[simp] theorem State.modCore_assay (s : State) (c : Nat) (f : Core → Core) : (s.modCore c f).assay = s.assay := rfl
@[simp] theorem State.modCore_bellows (s : State) (c : Nat) (f : Core → Core) : (s.modCore c f).bellows = s.bellows := rfl
@[simp] theorem State.modCore_arbs (s : State) (c : Nat) (f : Core → Core) : (s.modCore c f).arbs = s.arbs := rfl
@[simp] theorem State.modCore_power (s : State) (c : Nat) (f : Core → Core) : (s.modCore c f).power = s.power := rfl
@[simp] theorem State.modCore_fuses (s : State) (c : Nat) (f : Core → Core) : (s.modCore c f).fuses = s.fuses := rfl
@[simp] theorem State.modCore_boot (s : State) (c : Nat) (f : Core → Core) : (s.modCore c f).boot = s.boot := rfl
@[simp] theorem State.modCore_ledger (s : State) (c : Nat) (f : Core → Core) : (s.modCore c f).ledger = s.ledger := rfl
@[simp] theorem State.modCore_attar (s : State) (c : Nat) (f : Core → Core) : (s.modCore c f).attar = s.attar := rfl
@[simp] theorem State.modCore_tb (s : State) (c : Nat) (f : Core → Core) : (s.modCore c f).tb = s.tb := rfl
@[simp] theorem State.modCore_pins (s : State) (c : Nat) (f : Core → Core) : (s.modCore c f).pins = s.pins := rfl
@[simp] theorem State.modCore_emitted (s : State) (c : Nat) (f : Core → Core) : (s.modCore c f).emitted = s.emitted := rfl
@[simp] theorem State.modCore_freeCtr (s : State) (c : Nat) (f : Core → Core) : (s.modCore c f).freeCtr = s.freeCtr := rfl

@[simp] theorem State.modPair_pending (s : State) (p : Nat) (f : Pair → Pair) : (s.modPair p f).pending = s.pending := rfl
@[simp] theorem State.modPair_mem (s : State) (p : Nat) (f : Pair → Pair) : (s.modPair p f).mem = s.mem := rfl
@[simp] theorem State.modPair_eccC (s : State) (p : Nat) (f : Pair → Pair) : (s.modPair p f).eccC = s.eccC := rfl
@[simp] theorem State.modPair_eccU (s : State) (p : Nat) (f : Pair → Pair) : (s.modPair p f).eccU = s.eccU := rfl
@[simp] theorem State.modPair_regs (s : State) (p : Nat) (f : Pair → Pair) : (s.modPair p f).regs = s.regs := rfl
@[simp] theorem State.modPair_eff (s : State) (p : Nat) (f : Pair → Pair) : (s.modPair p f).eff = s.eff := rfl
@[simp] theorem State.modPair_hold (s : State) (p : Nat) (f : Pair → Pair) : (s.modPair p f).hold = s.hold := rfl
@[simp] theorem State.modPair_snap (s : State) (p : Nat) (f : Pair → Pair) : (s.modPair p f).snap = s.snap := rfl
@[simp] theorem State.modPair_threads (s : State) (p : Nat) (f : Pair → Pair) : (s.modPair p f).threads = s.threads := rfl
@[simp] theorem State.modPair_cores (s : State) (p : Nat) (f : Pair → Pair) : (s.modPair p f).cores = s.cores := rfl
@[simp] theorem State.modPair_caches (s : State) (p : Nat) (f : Pair → Pair) : (s.modPair p f).caches = s.caches := rfl
@[simp] theorem State.modPair_resvs (s : State) (p : Nat) (f : Pair → Pair) : (s.modPair p f).resvs = s.resvs := rfl
@[simp] theorem State.modPair_ports (s : State) (p : Nat) (f : Pair → Pair) : (s.modPair p f).ports = s.ports := rfl
@[simp] theorem State.modPair_porter (s : State) (p : Nat) (f : Pair → Pair) : (s.modPair p f).porter = s.porter := rfl
@[simp] theorem State.modPair_prompt (s : State) (p : Nat) (f : Pair → Pair) : (s.modPair p f).prompt = s.prompt := rfl
@[simp] theorem State.modPair_crier (s : State) (p : Nat) (f : Pair → Pair) : (s.modPair p f).crier = s.crier := rfl
@[simp] theorem State.modPair_funcs (s : State) (p : Nat) (f : Pair → Pair) : (s.modPair p f).funcs = s.funcs := rfl
@[simp] theorem State.modPair_vecs (s : State) (p : Nat) (f : Pair → Pair) : (s.modPair p f).vecs = s.vecs := rfl
@[simp] theorem State.modPair_hqs (s : State) (p : Nat) (f : Pair → Pair) : (s.modPair p f).hqs = s.hqs := rfl
@[simp] theorem State.modPair_link (s : State) (p : Nat) (f : Pair → Pair) : (s.modPair p f).link = s.link := rfl
@[simp] theorem State.modPair_tally (s : State) (p : Nat) (f : Pair → Pair) : (s.modPair p f).tally = s.tally := rfl
@[simp] theorem State.modPair_assay (s : State) (p : Nat) (f : Pair → Pair) : (s.modPair p f).assay = s.assay := rfl
@[simp] theorem State.modPair_bellows (s : State) (p : Nat) (f : Pair → Pair) : (s.modPair p f).bellows = s.bellows := rfl
@[simp] theorem State.modPair_arbs (s : State) (p : Nat) (f : Pair → Pair) : (s.modPair p f).arbs = s.arbs := rfl
@[simp] theorem State.modPair_power (s : State) (p : Nat) (f : Pair → Pair) : (s.modPair p f).power = s.power := rfl
@[simp] theorem State.modPair_fuses (s : State) (p : Nat) (f : Pair → Pair) : (s.modPair p f).fuses = s.fuses := rfl
@[simp] theorem State.modPair_boot (s : State) (p : Nat) (f : Pair → Pair) : (s.modPair p f).boot = s.boot := rfl
@[simp] theorem State.modPair_ledger (s : State) (p : Nat) (f : Pair → Pair) : (s.modPair p f).ledger = s.ledger := rfl
@[simp] theorem State.modPair_attar (s : State) (p : Nat) (f : Pair → Pair) : (s.modPair p f).attar = s.attar := rfl
@[simp] theorem State.modPair_tb (s : State) (p : Nat) (f : Pair → Pair) : (s.modPair p f).tb = s.tb := rfl
@[simp] theorem State.modPair_pins (s : State) (p : Nat) (f : Pair → Pair) : (s.modPair p f).pins = s.pins := rfl
@[simp] theorem State.modPair_emitted (s : State) (p : Nat) (f : Pair → Pair) : (s.modPair p f).emitted = s.emitted := rfl
@[simp] theorem State.modPair_freeCtr (s : State) (p : Nat) (f : Pair → Pair) : (s.modPair p f).freeCtr = s.freeCtr := rfl

@[simp] theorem State.modPort_pending (s : State) (p : Nat) (f : Port → Port) : (s.modPort p f).pending = s.pending := rfl
@[simp] theorem State.modPort_mem (s : State) (p : Nat) (f : Port → Port) : (s.modPort p f).mem = s.mem := rfl
@[simp] theorem State.modPort_eccC (s : State) (p : Nat) (f : Port → Port) : (s.modPort p f).eccC = s.eccC := rfl
@[simp] theorem State.modPort_eccU (s : State) (p : Nat) (f : Port → Port) : (s.modPort p f).eccU = s.eccU := rfl
@[simp] theorem State.modPort_regs (s : State) (p : Nat) (f : Port → Port) : (s.modPort p f).regs = s.regs := rfl
@[simp] theorem State.modPort_eff (s : State) (p : Nat) (f : Port → Port) : (s.modPort p f).eff = s.eff := rfl
@[simp] theorem State.modPort_hold (s : State) (p : Nat) (f : Port → Port) : (s.modPort p f).hold = s.hold := rfl
@[simp] theorem State.modPort_snap (s : State) (p : Nat) (f : Port → Port) : (s.modPort p f).snap = s.snap := rfl
@[simp] theorem State.modPort_threads (s : State) (p : Nat) (f : Port → Port) : (s.modPort p f).threads = s.threads := rfl
@[simp] theorem State.modPort_cores (s : State) (p : Nat) (f : Port → Port) : (s.modPort p f).cores = s.cores := rfl
@[simp] theorem State.modPort_caches (s : State) (p : Nat) (f : Port → Port) : (s.modPort p f).caches = s.caches := rfl
@[simp] theorem State.modPort_resvs (s : State) (p : Nat) (f : Port → Port) : (s.modPort p f).resvs = s.resvs := rfl
@[simp] theorem State.modPort_pairs (s : State) (p : Nat) (f : Port → Port) : (s.modPort p f).pairs = s.pairs := rfl
@[simp] theorem State.modPort_porter (s : State) (p : Nat) (f : Port → Port) : (s.modPort p f).porter = s.porter := rfl
@[simp] theorem State.modPort_prompt (s : State) (p : Nat) (f : Port → Port) : (s.modPort p f).prompt = s.prompt := rfl
@[simp] theorem State.modPort_crier (s : State) (p : Nat) (f : Port → Port) : (s.modPort p f).crier = s.crier := rfl
@[simp] theorem State.modPort_funcs (s : State) (p : Nat) (f : Port → Port) : (s.modPort p f).funcs = s.funcs := rfl
@[simp] theorem State.modPort_vecs (s : State) (p : Nat) (f : Port → Port) : (s.modPort p f).vecs = s.vecs := rfl
@[simp] theorem State.modPort_hqs (s : State) (p : Nat) (f : Port → Port) : (s.modPort p f).hqs = s.hqs := rfl
@[simp] theorem State.modPort_link (s : State) (p : Nat) (f : Port → Port) : (s.modPort p f).link = s.link := rfl
@[simp] theorem State.modPort_tally (s : State) (p : Nat) (f : Port → Port) : (s.modPort p f).tally = s.tally := rfl
@[simp] theorem State.modPort_assay (s : State) (p : Nat) (f : Port → Port) : (s.modPort p f).assay = s.assay := rfl
@[simp] theorem State.modPort_bellows (s : State) (p : Nat) (f : Port → Port) : (s.modPort p f).bellows = s.bellows := rfl
@[simp] theorem State.modPort_arbs (s : State) (p : Nat) (f : Port → Port) : (s.modPort p f).arbs = s.arbs := rfl
@[simp] theorem State.modPort_power (s : State) (p : Nat) (f : Port → Port) : (s.modPort p f).power = s.power := rfl
@[simp] theorem State.modPort_fuses (s : State) (p : Nat) (f : Port → Port) : (s.modPort p f).fuses = s.fuses := rfl
@[simp] theorem State.modPort_boot (s : State) (p : Nat) (f : Port → Port) : (s.modPort p f).boot = s.boot := rfl
@[simp] theorem State.modPort_ledger (s : State) (p : Nat) (f : Port → Port) : (s.modPort p f).ledger = s.ledger := rfl
@[simp] theorem State.modPort_attar (s : State) (p : Nat) (f : Port → Port) : (s.modPort p f).attar = s.attar := rfl
@[simp] theorem State.modPort_tb (s : State) (p : Nat) (f : Port → Port) : (s.modPort p f).tb = s.tb := rfl
@[simp] theorem State.modPort_pins (s : State) (p : Nat) (f : Port → Port) : (s.modPort p f).pins = s.pins := rfl
@[simp] theorem State.modPort_emitted (s : State) (p : Nat) (f : Port → Port) : (s.modPort p f).emitted = s.emitted := rfl
@[simp] theorem State.modPort_freeCtr (s : State) (p : Nat) (f : Port → Port) : (s.modPort p f).freeCtr = s.freeCtr := rfl

@[simp] theorem State.modFunc_pending (s : State) (n : Nat) (f : Func → Func) : (s.modFunc n f).pending = s.pending := rfl
@[simp] theorem State.modFunc_mem (s : State) (n : Nat) (f : Func → Func) : (s.modFunc n f).mem = s.mem := rfl
@[simp] theorem State.modFunc_eccC (s : State) (n : Nat) (f : Func → Func) : (s.modFunc n f).eccC = s.eccC := rfl
@[simp] theorem State.modFunc_eccU (s : State) (n : Nat) (f : Func → Func) : (s.modFunc n f).eccU = s.eccU := rfl
@[simp] theorem State.modFunc_regs (s : State) (n : Nat) (f : Func → Func) : (s.modFunc n f).regs = s.regs := rfl
@[simp] theorem State.modFunc_eff (s : State) (n : Nat) (f : Func → Func) : (s.modFunc n f).eff = s.eff := rfl
@[simp] theorem State.modFunc_hold (s : State) (n : Nat) (f : Func → Func) : (s.modFunc n f).hold = s.hold := rfl
@[simp] theorem State.modFunc_snap (s : State) (n : Nat) (f : Func → Func) : (s.modFunc n f).snap = s.snap := rfl
@[simp] theorem State.modFunc_threads (s : State) (n : Nat) (f : Func → Func) : (s.modFunc n f).threads = s.threads := rfl
@[simp] theorem State.modFunc_cores (s : State) (n : Nat) (f : Func → Func) : (s.modFunc n f).cores = s.cores := rfl
@[simp] theorem State.modFunc_caches (s : State) (n : Nat) (f : Func → Func) : (s.modFunc n f).caches = s.caches := rfl
@[simp] theorem State.modFunc_resvs (s : State) (n : Nat) (f : Func → Func) : (s.modFunc n f).resvs = s.resvs := rfl
@[simp] theorem State.modFunc_pairs (s : State) (n : Nat) (f : Func → Func) : (s.modFunc n f).pairs = s.pairs := rfl
@[simp] theorem State.modFunc_ports (s : State) (n : Nat) (f : Func → Func) : (s.modFunc n f).ports = s.ports := rfl
@[simp] theorem State.modFunc_porter (s : State) (n : Nat) (f : Func → Func) : (s.modFunc n f).porter = s.porter := rfl
@[simp] theorem State.modFunc_prompt (s : State) (n : Nat) (f : Func → Func) : (s.modFunc n f).prompt = s.prompt := rfl
@[simp] theorem State.modFunc_crier (s : State) (n : Nat) (f : Func → Func) : (s.modFunc n f).crier = s.crier := rfl
@[simp] theorem State.modFunc_vecs (s : State) (n : Nat) (f : Func → Func) : (s.modFunc n f).vecs = s.vecs := rfl
@[simp] theorem State.modFunc_hqs (s : State) (n : Nat) (f : Func → Func) : (s.modFunc n f).hqs = s.hqs := rfl
@[simp] theorem State.modFunc_link (s : State) (n : Nat) (f : Func → Func) : (s.modFunc n f).link = s.link := rfl
@[simp] theorem State.modFunc_tally (s : State) (n : Nat) (f : Func → Func) : (s.modFunc n f).tally = s.tally := rfl
@[simp] theorem State.modFunc_assay (s : State) (n : Nat) (f : Func → Func) : (s.modFunc n f).assay = s.assay := rfl
@[simp] theorem State.modFunc_bellows (s : State) (n : Nat) (f : Func → Func) : (s.modFunc n f).bellows = s.bellows := rfl
@[simp] theorem State.modFunc_arbs (s : State) (n : Nat) (f : Func → Func) : (s.modFunc n f).arbs = s.arbs := rfl
@[simp] theorem State.modFunc_power (s : State) (n : Nat) (f : Func → Func) : (s.modFunc n f).power = s.power := rfl
@[simp] theorem State.modFunc_fuses (s : State) (n : Nat) (f : Func → Func) : (s.modFunc n f).fuses = s.fuses := rfl
@[simp] theorem State.modFunc_boot (s : State) (n : Nat) (f : Func → Func) : (s.modFunc n f).boot = s.boot := rfl
@[simp] theorem State.modFunc_ledger (s : State) (n : Nat) (f : Func → Func) : (s.modFunc n f).ledger = s.ledger := rfl
@[simp] theorem State.modFunc_attar (s : State) (n : Nat) (f : Func → Func) : (s.modFunc n f).attar = s.attar := rfl
@[simp] theorem State.modFunc_tb (s : State) (n : Nat) (f : Func → Func) : (s.modFunc n f).tb = s.tb := rfl
@[simp] theorem State.modFunc_pins (s : State) (n : Nat) (f : Func → Func) : (s.modFunc n f).pins = s.pins := rfl
@[simp] theorem State.modFunc_emitted (s : State) (n : Nat) (f : Func → Func) : (s.modFunc n f).emitted = s.emitted := rfl
@[simp] theorem State.modFunc_freeCtr (s : State) (n : Nat) (f : Func → Func) : (s.modFunc n f).freeCtr = s.freeCtr := rfl

@[simp] theorem State.modVec_pending (s : State) (q : Nat) (f : Vec → Vec) : (s.modVec q f).pending = s.pending := rfl
@[simp] theorem State.modVec_mem (s : State) (q : Nat) (f : Vec → Vec) : (s.modVec q f).mem = s.mem := rfl
@[simp] theorem State.modVec_eccC (s : State) (q : Nat) (f : Vec → Vec) : (s.modVec q f).eccC = s.eccC := rfl
@[simp] theorem State.modVec_eccU (s : State) (q : Nat) (f : Vec → Vec) : (s.modVec q f).eccU = s.eccU := rfl
@[simp] theorem State.modVec_regs (s : State) (q : Nat) (f : Vec → Vec) : (s.modVec q f).regs = s.regs := rfl
@[simp] theorem State.modVec_eff (s : State) (q : Nat) (f : Vec → Vec) : (s.modVec q f).eff = s.eff := rfl
@[simp] theorem State.modVec_hold (s : State) (q : Nat) (f : Vec → Vec) : (s.modVec q f).hold = s.hold := rfl
@[simp] theorem State.modVec_snap (s : State) (q : Nat) (f : Vec → Vec) : (s.modVec q f).snap = s.snap := rfl
@[simp] theorem State.modVec_threads (s : State) (q : Nat) (f : Vec → Vec) : (s.modVec q f).threads = s.threads := rfl
@[simp] theorem State.modVec_cores (s : State) (q : Nat) (f : Vec → Vec) : (s.modVec q f).cores = s.cores := rfl
@[simp] theorem State.modVec_caches (s : State) (q : Nat) (f : Vec → Vec) : (s.modVec q f).caches = s.caches := rfl
@[simp] theorem State.modVec_resvs (s : State) (q : Nat) (f : Vec → Vec) : (s.modVec q f).resvs = s.resvs := rfl
@[simp] theorem State.modVec_pairs (s : State) (q : Nat) (f : Vec → Vec) : (s.modVec q f).pairs = s.pairs := rfl
@[simp] theorem State.modVec_ports (s : State) (q : Nat) (f : Vec → Vec) : (s.modVec q f).ports = s.ports := rfl
@[simp] theorem State.modVec_porter (s : State) (q : Nat) (f : Vec → Vec) : (s.modVec q f).porter = s.porter := rfl
@[simp] theorem State.modVec_prompt (s : State) (q : Nat) (f : Vec → Vec) : (s.modVec q f).prompt = s.prompt := rfl
@[simp] theorem State.modVec_crier (s : State) (q : Nat) (f : Vec → Vec) : (s.modVec q f).crier = s.crier := rfl
@[simp] theorem State.modVec_funcs (s : State) (q : Nat) (f : Vec → Vec) : (s.modVec q f).funcs = s.funcs := rfl
@[simp] theorem State.modVec_hqs (s : State) (q : Nat) (f : Vec → Vec) : (s.modVec q f).hqs = s.hqs := rfl
@[simp] theorem State.modVec_link (s : State) (q : Nat) (f : Vec → Vec) : (s.modVec q f).link = s.link := rfl
@[simp] theorem State.modVec_tally (s : State) (q : Nat) (f : Vec → Vec) : (s.modVec q f).tally = s.tally := rfl
@[simp] theorem State.modVec_assay (s : State) (q : Nat) (f : Vec → Vec) : (s.modVec q f).assay = s.assay := rfl
@[simp] theorem State.modVec_bellows (s : State) (q : Nat) (f : Vec → Vec) : (s.modVec q f).bellows = s.bellows := rfl
@[simp] theorem State.modVec_arbs (s : State) (q : Nat) (f : Vec → Vec) : (s.modVec q f).arbs = s.arbs := rfl
@[simp] theorem State.modVec_power (s : State) (q : Nat) (f : Vec → Vec) : (s.modVec q f).power = s.power := rfl
@[simp] theorem State.modVec_fuses (s : State) (q : Nat) (f : Vec → Vec) : (s.modVec q f).fuses = s.fuses := rfl
@[simp] theorem State.modVec_boot (s : State) (q : Nat) (f : Vec → Vec) : (s.modVec q f).boot = s.boot := rfl
@[simp] theorem State.modVec_ledger (s : State) (q : Nat) (f : Vec → Vec) : (s.modVec q f).ledger = s.ledger := rfl
@[simp] theorem State.modVec_attar (s : State) (q : Nat) (f : Vec → Vec) : (s.modVec q f).attar = s.attar := rfl
@[simp] theorem State.modVec_tb (s : State) (q : Nat) (f : Vec → Vec) : (s.modVec q f).tb = s.tb := rfl
@[simp] theorem State.modVec_pins (s : State) (q : Nat) (f : Vec → Vec) : (s.modVec q f).pins = s.pins := rfl
@[simp] theorem State.modVec_emitted (s : State) (q : Nat) (f : Vec → Vec) : (s.modVec q f).emitted = s.emitted := rfl
@[simp] theorem State.modVec_freeCtr (s : State) (q : Nat) (f : Vec → Vec) : (s.modVec q f).freeCtr = s.freeCtr := rfl

@[simp] theorem State.modHq_pending (s : State) (q : Nat) (f : HQ → HQ) : (s.modHq q f).pending = s.pending := rfl
@[simp] theorem State.modHq_mem (s : State) (q : Nat) (f : HQ → HQ) : (s.modHq q f).mem = s.mem := rfl
@[simp] theorem State.modHq_eccC (s : State) (q : Nat) (f : HQ → HQ) : (s.modHq q f).eccC = s.eccC := rfl
@[simp] theorem State.modHq_eccU (s : State) (q : Nat) (f : HQ → HQ) : (s.modHq q f).eccU = s.eccU := rfl
@[simp] theorem State.modHq_regs (s : State) (q : Nat) (f : HQ → HQ) : (s.modHq q f).regs = s.regs := rfl
@[simp] theorem State.modHq_eff (s : State) (q : Nat) (f : HQ → HQ) : (s.modHq q f).eff = s.eff := rfl
@[simp] theorem State.modHq_hold (s : State) (q : Nat) (f : HQ → HQ) : (s.modHq q f).hold = s.hold := rfl
@[simp] theorem State.modHq_snap (s : State) (q : Nat) (f : HQ → HQ) : (s.modHq q f).snap = s.snap := rfl
@[simp] theorem State.modHq_threads (s : State) (q : Nat) (f : HQ → HQ) : (s.modHq q f).threads = s.threads := rfl
@[simp] theorem State.modHq_cores (s : State) (q : Nat) (f : HQ → HQ) : (s.modHq q f).cores = s.cores := rfl
@[simp] theorem State.modHq_caches (s : State) (q : Nat) (f : HQ → HQ) : (s.modHq q f).caches = s.caches := rfl
@[simp] theorem State.modHq_resvs (s : State) (q : Nat) (f : HQ → HQ) : (s.modHq q f).resvs = s.resvs := rfl
@[simp] theorem State.modHq_pairs (s : State) (q : Nat) (f : HQ → HQ) : (s.modHq q f).pairs = s.pairs := rfl
@[simp] theorem State.modHq_ports (s : State) (q : Nat) (f : HQ → HQ) : (s.modHq q f).ports = s.ports := rfl
@[simp] theorem State.modHq_porter (s : State) (q : Nat) (f : HQ → HQ) : (s.modHq q f).porter = s.porter := rfl
@[simp] theorem State.modHq_prompt (s : State) (q : Nat) (f : HQ → HQ) : (s.modHq q f).prompt = s.prompt := rfl
@[simp] theorem State.modHq_crier (s : State) (q : Nat) (f : HQ → HQ) : (s.modHq q f).crier = s.crier := rfl
@[simp] theorem State.modHq_funcs (s : State) (q : Nat) (f : HQ → HQ) : (s.modHq q f).funcs = s.funcs := rfl
@[simp] theorem State.modHq_vecs (s : State) (q : Nat) (f : HQ → HQ) : (s.modHq q f).vecs = s.vecs := rfl
@[simp] theorem State.modHq_link (s : State) (q : Nat) (f : HQ → HQ) : (s.modHq q f).link = s.link := rfl
@[simp] theorem State.modHq_tally (s : State) (q : Nat) (f : HQ → HQ) : (s.modHq q f).tally = s.tally := rfl
@[simp] theorem State.modHq_assay (s : State) (q : Nat) (f : HQ → HQ) : (s.modHq q f).assay = s.assay := rfl
@[simp] theorem State.modHq_bellows (s : State) (q : Nat) (f : HQ → HQ) : (s.modHq q f).bellows = s.bellows := rfl
@[simp] theorem State.modHq_arbs (s : State) (q : Nat) (f : HQ → HQ) : (s.modHq q f).arbs = s.arbs := rfl
@[simp] theorem State.modHq_power (s : State) (q : Nat) (f : HQ → HQ) : (s.modHq q f).power = s.power := rfl
@[simp] theorem State.modHq_fuses (s : State) (q : Nat) (f : HQ → HQ) : (s.modHq q f).fuses = s.fuses := rfl
@[simp] theorem State.modHq_boot (s : State) (q : Nat) (f : HQ → HQ) : (s.modHq q f).boot = s.boot := rfl
@[simp] theorem State.modHq_ledger (s : State) (q : Nat) (f : HQ → HQ) : (s.modHq q f).ledger = s.ledger := rfl
@[simp] theorem State.modHq_attar (s : State) (q : Nat) (f : HQ → HQ) : (s.modHq q f).attar = s.attar := rfl
@[simp] theorem State.modHq_tb (s : State) (q : Nat) (f : HQ → HQ) : (s.modHq q f).tb = s.tb := rfl
@[simp] theorem State.modHq_pins (s : State) (q : Nat) (f : HQ → HQ) : (s.modHq q f).pins = s.pins := rfl
@[simp] theorem State.modHq_emitted (s : State) (q : Nat) (f : HQ → HQ) : (s.modHq q f).emitted = s.emitted := rfl
@[simp] theorem State.modHq_freeCtr (s : State) (q : Nat) (f : HQ → HQ) : (s.modHq q f).freeCtr = s.freeCtr := rfl

@[simp] theorem State.modPorter_pending (s : State) (f : Porter → Porter) : (s.modPorter f).pending = s.pending := rfl
@[simp] theorem State.modPorter_mem (s : State) (f : Porter → Porter) : (s.modPorter f).mem = s.mem := rfl
@[simp] theorem State.modPorter_eccC (s : State) (f : Porter → Porter) : (s.modPorter f).eccC = s.eccC := rfl
@[simp] theorem State.modPorter_eccU (s : State) (f : Porter → Porter) : (s.modPorter f).eccU = s.eccU := rfl
@[simp] theorem State.modPorter_regs (s : State) (f : Porter → Porter) : (s.modPorter f).regs = s.regs := rfl
@[simp] theorem State.modPorter_eff (s : State) (f : Porter → Porter) : (s.modPorter f).eff = s.eff := rfl
@[simp] theorem State.modPorter_hold (s : State) (f : Porter → Porter) : (s.modPorter f).hold = s.hold := rfl
@[simp] theorem State.modPorter_snap (s : State) (f : Porter → Porter) : (s.modPorter f).snap = s.snap := rfl
@[simp] theorem State.modPorter_threads (s : State) (f : Porter → Porter) : (s.modPorter f).threads = s.threads := rfl
@[simp] theorem State.modPorter_cores (s : State) (f : Porter → Porter) : (s.modPorter f).cores = s.cores := rfl
@[simp] theorem State.modPorter_caches (s : State) (f : Porter → Porter) : (s.modPorter f).caches = s.caches := rfl
@[simp] theorem State.modPorter_resvs (s : State) (f : Porter → Porter) : (s.modPorter f).resvs = s.resvs := rfl
@[simp] theorem State.modPorter_pairs (s : State) (f : Porter → Porter) : (s.modPorter f).pairs = s.pairs := rfl
@[simp] theorem State.modPorter_ports (s : State) (f : Porter → Porter) : (s.modPorter f).ports = s.ports := rfl
@[simp] theorem State.modPorter_prompt (s : State) (f : Porter → Porter) : (s.modPorter f).prompt = s.prompt := rfl
@[simp] theorem State.modPorter_crier (s : State) (f : Porter → Porter) : (s.modPorter f).crier = s.crier := rfl
@[simp] theorem State.modPorter_funcs (s : State) (f : Porter → Porter) : (s.modPorter f).funcs = s.funcs := rfl
@[simp] theorem State.modPorter_vecs (s : State) (f : Porter → Porter) : (s.modPorter f).vecs = s.vecs := rfl
@[simp] theorem State.modPorter_hqs (s : State) (f : Porter → Porter) : (s.modPorter f).hqs = s.hqs := rfl
@[simp] theorem State.modPorter_link (s : State) (f : Porter → Porter) : (s.modPorter f).link = s.link := rfl
@[simp] theorem State.modPorter_tally (s : State) (f : Porter → Porter) : (s.modPorter f).tally = s.tally := rfl
@[simp] theorem State.modPorter_assay (s : State) (f : Porter → Porter) : (s.modPorter f).assay = s.assay := rfl
@[simp] theorem State.modPorter_bellows (s : State) (f : Porter → Porter) : (s.modPorter f).bellows = s.bellows := rfl
@[simp] theorem State.modPorter_arbs (s : State) (f : Porter → Porter) : (s.modPorter f).arbs = s.arbs := rfl
@[simp] theorem State.modPorter_power (s : State) (f : Porter → Porter) : (s.modPorter f).power = s.power := rfl
@[simp] theorem State.modPorter_fuses (s : State) (f : Porter → Porter) : (s.modPorter f).fuses = s.fuses := rfl
@[simp] theorem State.modPorter_boot (s : State) (f : Porter → Porter) : (s.modPorter f).boot = s.boot := rfl
@[simp] theorem State.modPorter_ledger (s : State) (f : Porter → Porter) : (s.modPorter f).ledger = s.ledger := rfl
@[simp] theorem State.modPorter_attar (s : State) (f : Porter → Porter) : (s.modPorter f).attar = s.attar := rfl
@[simp] theorem State.modPorter_tb (s : State) (f : Porter → Porter) : (s.modPorter f).tb = s.tb := rfl
@[simp] theorem State.modPorter_pins (s : State) (f : Porter → Porter) : (s.modPorter f).pins = s.pins := rfl
@[simp] theorem State.modPorter_emitted (s : State) (f : Porter → Porter) : (s.modPorter f).emitted = s.emitted := rfl
@[simp] theorem State.modPorter_freeCtr (s : State) (f : Porter → Porter) : (s.modPorter f).freeCtr = s.freeCtr := rfl

@[simp] theorem State.modPrompt_pending (s : State) (f : Prompt → Prompt) : (s.modPrompt f).pending = s.pending := rfl
@[simp] theorem State.modPrompt_mem (s : State) (f : Prompt → Prompt) : (s.modPrompt f).mem = s.mem := rfl
@[simp] theorem State.modPrompt_eccC (s : State) (f : Prompt → Prompt) : (s.modPrompt f).eccC = s.eccC := rfl
@[simp] theorem State.modPrompt_eccU (s : State) (f : Prompt → Prompt) : (s.modPrompt f).eccU = s.eccU := rfl
@[simp] theorem State.modPrompt_regs (s : State) (f : Prompt → Prompt) : (s.modPrompt f).regs = s.regs := rfl
@[simp] theorem State.modPrompt_eff (s : State) (f : Prompt → Prompt) : (s.modPrompt f).eff = s.eff := rfl
@[simp] theorem State.modPrompt_hold (s : State) (f : Prompt → Prompt) : (s.modPrompt f).hold = s.hold := rfl
@[simp] theorem State.modPrompt_snap (s : State) (f : Prompt → Prompt) : (s.modPrompt f).snap = s.snap := rfl
@[simp] theorem State.modPrompt_threads (s : State) (f : Prompt → Prompt) : (s.modPrompt f).threads = s.threads := rfl
@[simp] theorem State.modPrompt_cores (s : State) (f : Prompt → Prompt) : (s.modPrompt f).cores = s.cores := rfl
@[simp] theorem State.modPrompt_caches (s : State) (f : Prompt → Prompt) : (s.modPrompt f).caches = s.caches := rfl
@[simp] theorem State.modPrompt_resvs (s : State) (f : Prompt → Prompt) : (s.modPrompt f).resvs = s.resvs := rfl
@[simp] theorem State.modPrompt_pairs (s : State) (f : Prompt → Prompt) : (s.modPrompt f).pairs = s.pairs := rfl
@[simp] theorem State.modPrompt_ports (s : State) (f : Prompt → Prompt) : (s.modPrompt f).ports = s.ports := rfl
@[simp] theorem State.modPrompt_porter (s : State) (f : Prompt → Prompt) : (s.modPrompt f).porter = s.porter := rfl
@[simp] theorem State.modPrompt_crier (s : State) (f : Prompt → Prompt) : (s.modPrompt f).crier = s.crier := rfl
@[simp] theorem State.modPrompt_funcs (s : State) (f : Prompt → Prompt) : (s.modPrompt f).funcs = s.funcs := rfl
@[simp] theorem State.modPrompt_vecs (s : State) (f : Prompt → Prompt) : (s.modPrompt f).vecs = s.vecs := rfl
@[simp] theorem State.modPrompt_hqs (s : State) (f : Prompt → Prompt) : (s.modPrompt f).hqs = s.hqs := rfl
@[simp] theorem State.modPrompt_link (s : State) (f : Prompt → Prompt) : (s.modPrompt f).link = s.link := rfl
@[simp] theorem State.modPrompt_tally (s : State) (f : Prompt → Prompt) : (s.modPrompt f).tally = s.tally := rfl
@[simp] theorem State.modPrompt_assay (s : State) (f : Prompt → Prompt) : (s.modPrompt f).assay = s.assay := rfl
@[simp] theorem State.modPrompt_bellows (s : State) (f : Prompt → Prompt) : (s.modPrompt f).bellows = s.bellows := rfl
@[simp] theorem State.modPrompt_arbs (s : State) (f : Prompt → Prompt) : (s.modPrompt f).arbs = s.arbs := rfl
@[simp] theorem State.modPrompt_power (s : State) (f : Prompt → Prompt) : (s.modPrompt f).power = s.power := rfl
@[simp] theorem State.modPrompt_fuses (s : State) (f : Prompt → Prompt) : (s.modPrompt f).fuses = s.fuses := rfl
@[simp] theorem State.modPrompt_boot (s : State) (f : Prompt → Prompt) : (s.modPrompt f).boot = s.boot := rfl
@[simp] theorem State.modPrompt_ledger (s : State) (f : Prompt → Prompt) : (s.modPrompt f).ledger = s.ledger := rfl
@[simp] theorem State.modPrompt_attar (s : State) (f : Prompt → Prompt) : (s.modPrompt f).attar = s.attar := rfl
@[simp] theorem State.modPrompt_tb (s : State) (f : Prompt → Prompt) : (s.modPrompt f).tb = s.tb := rfl
@[simp] theorem State.modPrompt_pins (s : State) (f : Prompt → Prompt) : (s.modPrompt f).pins = s.pins := rfl
@[simp] theorem State.modPrompt_emitted (s : State) (f : Prompt → Prompt) : (s.modPrompt f).emitted = s.emitted := rfl
@[simp] theorem State.modPrompt_freeCtr (s : State) (f : Prompt → Prompt) : (s.modPrompt f).freeCtr = s.freeCtr := rfl

@[simp] theorem State.modCrier_pending (s : State) (f : Crier → Crier) : (s.modCrier f).pending = s.pending := rfl
@[simp] theorem State.modCrier_mem (s : State) (f : Crier → Crier) : (s.modCrier f).mem = s.mem := rfl
@[simp] theorem State.modCrier_eccC (s : State) (f : Crier → Crier) : (s.modCrier f).eccC = s.eccC := rfl
@[simp] theorem State.modCrier_eccU (s : State) (f : Crier → Crier) : (s.modCrier f).eccU = s.eccU := rfl
@[simp] theorem State.modCrier_regs (s : State) (f : Crier → Crier) : (s.modCrier f).regs = s.regs := rfl
@[simp] theorem State.modCrier_eff (s : State) (f : Crier → Crier) : (s.modCrier f).eff = s.eff := rfl
@[simp] theorem State.modCrier_hold (s : State) (f : Crier → Crier) : (s.modCrier f).hold = s.hold := rfl
@[simp] theorem State.modCrier_snap (s : State) (f : Crier → Crier) : (s.modCrier f).snap = s.snap := rfl
@[simp] theorem State.modCrier_threads (s : State) (f : Crier → Crier) : (s.modCrier f).threads = s.threads := rfl
@[simp] theorem State.modCrier_cores (s : State) (f : Crier → Crier) : (s.modCrier f).cores = s.cores := rfl
@[simp] theorem State.modCrier_caches (s : State) (f : Crier → Crier) : (s.modCrier f).caches = s.caches := rfl
@[simp] theorem State.modCrier_resvs (s : State) (f : Crier → Crier) : (s.modCrier f).resvs = s.resvs := rfl
@[simp] theorem State.modCrier_pairs (s : State) (f : Crier → Crier) : (s.modCrier f).pairs = s.pairs := rfl
@[simp] theorem State.modCrier_ports (s : State) (f : Crier → Crier) : (s.modCrier f).ports = s.ports := rfl
@[simp] theorem State.modCrier_porter (s : State) (f : Crier → Crier) : (s.modCrier f).porter = s.porter := rfl
@[simp] theorem State.modCrier_prompt (s : State) (f : Crier → Crier) : (s.modCrier f).prompt = s.prompt := rfl
@[simp] theorem State.modCrier_funcs (s : State) (f : Crier → Crier) : (s.modCrier f).funcs = s.funcs := rfl
@[simp] theorem State.modCrier_vecs (s : State) (f : Crier → Crier) : (s.modCrier f).vecs = s.vecs := rfl
@[simp] theorem State.modCrier_hqs (s : State) (f : Crier → Crier) : (s.modCrier f).hqs = s.hqs := rfl
@[simp] theorem State.modCrier_link (s : State) (f : Crier → Crier) : (s.modCrier f).link = s.link := rfl
@[simp] theorem State.modCrier_tally (s : State) (f : Crier → Crier) : (s.modCrier f).tally = s.tally := rfl
@[simp] theorem State.modCrier_assay (s : State) (f : Crier → Crier) : (s.modCrier f).assay = s.assay := rfl
@[simp] theorem State.modCrier_bellows (s : State) (f : Crier → Crier) : (s.modCrier f).bellows = s.bellows := rfl
@[simp] theorem State.modCrier_arbs (s : State) (f : Crier → Crier) : (s.modCrier f).arbs = s.arbs := rfl
@[simp] theorem State.modCrier_power (s : State) (f : Crier → Crier) : (s.modCrier f).power = s.power := rfl
@[simp] theorem State.modCrier_fuses (s : State) (f : Crier → Crier) : (s.modCrier f).fuses = s.fuses := rfl
@[simp] theorem State.modCrier_boot (s : State) (f : Crier → Crier) : (s.modCrier f).boot = s.boot := rfl
@[simp] theorem State.modCrier_ledger (s : State) (f : Crier → Crier) : (s.modCrier f).ledger = s.ledger := rfl
@[simp] theorem State.modCrier_attar (s : State) (f : Crier → Crier) : (s.modCrier f).attar = s.attar := rfl
@[simp] theorem State.modCrier_tb (s : State) (f : Crier → Crier) : (s.modCrier f).tb = s.tb := rfl
@[simp] theorem State.modCrier_pins (s : State) (f : Crier → Crier) : (s.modCrier f).pins = s.pins := rfl
@[simp] theorem State.modCrier_emitted (s : State) (f : Crier → Crier) : (s.modCrier f).emitted = s.emitted := rfl
@[simp] theorem State.modCrier_freeCtr (s : State) (f : Crier → Crier) : (s.modCrier f).freeCtr = s.freeCtr := rfl

@[simp] theorem State.modTally_pending (s : State) (f : Tally → Tally) : (s.modTally f).pending = s.pending := rfl
@[simp] theorem State.modTally_mem (s : State) (f : Tally → Tally) : (s.modTally f).mem = s.mem := rfl
@[simp] theorem State.modTally_eccC (s : State) (f : Tally → Tally) : (s.modTally f).eccC = s.eccC := rfl
@[simp] theorem State.modTally_eccU (s : State) (f : Tally → Tally) : (s.modTally f).eccU = s.eccU := rfl
@[simp] theorem State.modTally_regs (s : State) (f : Tally → Tally) : (s.modTally f).regs = s.regs := rfl
@[simp] theorem State.modTally_eff (s : State) (f : Tally → Tally) : (s.modTally f).eff = s.eff := rfl
@[simp] theorem State.modTally_hold (s : State) (f : Tally → Tally) : (s.modTally f).hold = s.hold := rfl
@[simp] theorem State.modTally_snap (s : State) (f : Tally → Tally) : (s.modTally f).snap = s.snap := rfl
@[simp] theorem State.modTally_threads (s : State) (f : Tally → Tally) : (s.modTally f).threads = s.threads := rfl
@[simp] theorem State.modTally_cores (s : State) (f : Tally → Tally) : (s.modTally f).cores = s.cores := rfl
@[simp] theorem State.modTally_caches (s : State) (f : Tally → Tally) : (s.modTally f).caches = s.caches := rfl
@[simp] theorem State.modTally_resvs (s : State) (f : Tally → Tally) : (s.modTally f).resvs = s.resvs := rfl
@[simp] theorem State.modTally_pairs (s : State) (f : Tally → Tally) : (s.modTally f).pairs = s.pairs := rfl
@[simp] theorem State.modTally_ports (s : State) (f : Tally → Tally) : (s.modTally f).ports = s.ports := rfl
@[simp] theorem State.modTally_porter (s : State) (f : Tally → Tally) : (s.modTally f).porter = s.porter := rfl
@[simp] theorem State.modTally_prompt (s : State) (f : Tally → Tally) : (s.modTally f).prompt = s.prompt := rfl
@[simp] theorem State.modTally_crier (s : State) (f : Tally → Tally) : (s.modTally f).crier = s.crier := rfl
@[simp] theorem State.modTally_funcs (s : State) (f : Tally → Tally) : (s.modTally f).funcs = s.funcs := rfl
@[simp] theorem State.modTally_vecs (s : State) (f : Tally → Tally) : (s.modTally f).vecs = s.vecs := rfl
@[simp] theorem State.modTally_hqs (s : State) (f : Tally → Tally) : (s.modTally f).hqs = s.hqs := rfl
@[simp] theorem State.modTally_link (s : State) (f : Tally → Tally) : (s.modTally f).link = s.link := rfl
@[simp] theorem State.modTally_assay (s : State) (f : Tally → Tally) : (s.modTally f).assay = s.assay := rfl
@[simp] theorem State.modTally_bellows (s : State) (f : Tally → Tally) : (s.modTally f).bellows = s.bellows := rfl
@[simp] theorem State.modTally_arbs (s : State) (f : Tally → Tally) : (s.modTally f).arbs = s.arbs := rfl
@[simp] theorem State.modTally_power (s : State) (f : Tally → Tally) : (s.modTally f).power = s.power := rfl
@[simp] theorem State.modTally_fuses (s : State) (f : Tally → Tally) : (s.modTally f).fuses = s.fuses := rfl
@[simp] theorem State.modTally_boot (s : State) (f : Tally → Tally) : (s.modTally f).boot = s.boot := rfl
@[simp] theorem State.modTally_ledger (s : State) (f : Tally → Tally) : (s.modTally f).ledger = s.ledger := rfl
@[simp] theorem State.modTally_attar (s : State) (f : Tally → Tally) : (s.modTally f).attar = s.attar := rfl
@[simp] theorem State.modTally_tb (s : State) (f : Tally → Tally) : (s.modTally f).tb = s.tb := rfl
@[simp] theorem State.modTally_pins (s : State) (f : Tally → Tally) : (s.modTally f).pins = s.pins := rfl
@[simp] theorem State.modTally_emitted (s : State) (f : Tally → Tally) : (s.modTally f).emitted = s.emitted := rfl
@[simp] theorem State.modTally_freeCtr (s : State) (f : Tally → Tally) : (s.modTally f).freeCtr = s.freeCtr := rfl

@[simp] theorem State.modAssay_pending (s : State) (f : Assay → Assay) : (s.modAssay f).pending = s.pending := rfl
@[simp] theorem State.modAssay_mem (s : State) (f : Assay → Assay) : (s.modAssay f).mem = s.mem := rfl
@[simp] theorem State.modAssay_eccC (s : State) (f : Assay → Assay) : (s.modAssay f).eccC = s.eccC := rfl
@[simp] theorem State.modAssay_eccU (s : State) (f : Assay → Assay) : (s.modAssay f).eccU = s.eccU := rfl
@[simp] theorem State.modAssay_regs (s : State) (f : Assay → Assay) : (s.modAssay f).regs = s.regs := rfl
@[simp] theorem State.modAssay_eff (s : State) (f : Assay → Assay) : (s.modAssay f).eff = s.eff := rfl
@[simp] theorem State.modAssay_hold (s : State) (f : Assay → Assay) : (s.modAssay f).hold = s.hold := rfl
@[simp] theorem State.modAssay_snap (s : State) (f : Assay → Assay) : (s.modAssay f).snap = s.snap := rfl
@[simp] theorem State.modAssay_threads (s : State) (f : Assay → Assay) : (s.modAssay f).threads = s.threads := rfl
@[simp] theorem State.modAssay_cores (s : State) (f : Assay → Assay) : (s.modAssay f).cores = s.cores := rfl
@[simp] theorem State.modAssay_caches (s : State) (f : Assay → Assay) : (s.modAssay f).caches = s.caches := rfl
@[simp] theorem State.modAssay_resvs (s : State) (f : Assay → Assay) : (s.modAssay f).resvs = s.resvs := rfl
@[simp] theorem State.modAssay_pairs (s : State) (f : Assay → Assay) : (s.modAssay f).pairs = s.pairs := rfl
@[simp] theorem State.modAssay_ports (s : State) (f : Assay → Assay) : (s.modAssay f).ports = s.ports := rfl
@[simp] theorem State.modAssay_porter (s : State) (f : Assay → Assay) : (s.modAssay f).porter = s.porter := rfl
@[simp] theorem State.modAssay_prompt (s : State) (f : Assay → Assay) : (s.modAssay f).prompt = s.prompt := rfl
@[simp] theorem State.modAssay_crier (s : State) (f : Assay → Assay) : (s.modAssay f).crier = s.crier := rfl
@[simp] theorem State.modAssay_funcs (s : State) (f : Assay → Assay) : (s.modAssay f).funcs = s.funcs := rfl
@[simp] theorem State.modAssay_vecs (s : State) (f : Assay → Assay) : (s.modAssay f).vecs = s.vecs := rfl
@[simp] theorem State.modAssay_hqs (s : State) (f : Assay → Assay) : (s.modAssay f).hqs = s.hqs := rfl
@[simp] theorem State.modAssay_link (s : State) (f : Assay → Assay) : (s.modAssay f).link = s.link := rfl
@[simp] theorem State.modAssay_tally (s : State) (f : Assay → Assay) : (s.modAssay f).tally = s.tally := rfl
@[simp] theorem State.modAssay_bellows (s : State) (f : Assay → Assay) : (s.modAssay f).bellows = s.bellows := rfl
@[simp] theorem State.modAssay_arbs (s : State) (f : Assay → Assay) : (s.modAssay f).arbs = s.arbs := rfl
@[simp] theorem State.modAssay_power (s : State) (f : Assay → Assay) : (s.modAssay f).power = s.power := rfl
@[simp] theorem State.modAssay_fuses (s : State) (f : Assay → Assay) : (s.modAssay f).fuses = s.fuses := rfl
@[simp] theorem State.modAssay_boot (s : State) (f : Assay → Assay) : (s.modAssay f).boot = s.boot := rfl
@[simp] theorem State.modAssay_ledger (s : State) (f : Assay → Assay) : (s.modAssay f).ledger = s.ledger := rfl
@[simp] theorem State.modAssay_attar (s : State) (f : Assay → Assay) : (s.modAssay f).attar = s.attar := rfl
@[simp] theorem State.modAssay_tb (s : State) (f : Assay → Assay) : (s.modAssay f).tb = s.tb := rfl
@[simp] theorem State.modAssay_pins (s : State) (f : Assay → Assay) : (s.modAssay f).pins = s.pins := rfl
@[simp] theorem State.modAssay_emitted (s : State) (f : Assay → Assay) : (s.modAssay f).emitted = s.emitted := rfl
@[simp] theorem State.modAssay_freeCtr (s : State) (f : Assay → Assay) : (s.modAssay f).freeCtr = s.freeCtr := rfl

@[simp] theorem State.modPower_pending (s : State) (f : Power → Power) : (s.modPower f).pending = s.pending := rfl
@[simp] theorem State.modPower_mem (s : State) (f : Power → Power) : (s.modPower f).mem = s.mem := rfl
@[simp] theorem State.modPower_eccC (s : State) (f : Power → Power) : (s.modPower f).eccC = s.eccC := rfl
@[simp] theorem State.modPower_eccU (s : State) (f : Power → Power) : (s.modPower f).eccU = s.eccU := rfl
@[simp] theorem State.modPower_regs (s : State) (f : Power → Power) : (s.modPower f).regs = s.regs := rfl
@[simp] theorem State.modPower_eff (s : State) (f : Power → Power) : (s.modPower f).eff = s.eff := rfl
@[simp] theorem State.modPower_hold (s : State) (f : Power → Power) : (s.modPower f).hold = s.hold := rfl
@[simp] theorem State.modPower_snap (s : State) (f : Power → Power) : (s.modPower f).snap = s.snap := rfl
@[simp] theorem State.modPower_threads (s : State) (f : Power → Power) : (s.modPower f).threads = s.threads := rfl
@[simp] theorem State.modPower_cores (s : State) (f : Power → Power) : (s.modPower f).cores = s.cores := rfl
@[simp] theorem State.modPower_caches (s : State) (f : Power → Power) : (s.modPower f).caches = s.caches := rfl
@[simp] theorem State.modPower_resvs (s : State) (f : Power → Power) : (s.modPower f).resvs = s.resvs := rfl
@[simp] theorem State.modPower_pairs (s : State) (f : Power → Power) : (s.modPower f).pairs = s.pairs := rfl
@[simp] theorem State.modPower_ports (s : State) (f : Power → Power) : (s.modPower f).ports = s.ports := rfl
@[simp] theorem State.modPower_porter (s : State) (f : Power → Power) : (s.modPower f).porter = s.porter := rfl
@[simp] theorem State.modPower_prompt (s : State) (f : Power → Power) : (s.modPower f).prompt = s.prompt := rfl
@[simp] theorem State.modPower_crier (s : State) (f : Power → Power) : (s.modPower f).crier = s.crier := rfl
@[simp] theorem State.modPower_funcs (s : State) (f : Power → Power) : (s.modPower f).funcs = s.funcs := rfl
@[simp] theorem State.modPower_vecs (s : State) (f : Power → Power) : (s.modPower f).vecs = s.vecs := rfl
@[simp] theorem State.modPower_hqs (s : State) (f : Power → Power) : (s.modPower f).hqs = s.hqs := rfl
@[simp] theorem State.modPower_link (s : State) (f : Power → Power) : (s.modPower f).link = s.link := rfl
@[simp] theorem State.modPower_tally (s : State) (f : Power → Power) : (s.modPower f).tally = s.tally := rfl
@[simp] theorem State.modPower_assay (s : State) (f : Power → Power) : (s.modPower f).assay = s.assay := rfl
@[simp] theorem State.modPower_bellows (s : State) (f : Power → Power) : (s.modPower f).bellows = s.bellows := rfl
@[simp] theorem State.modPower_arbs (s : State) (f : Power → Power) : (s.modPower f).arbs = s.arbs := rfl
@[simp] theorem State.modPower_fuses (s : State) (f : Power → Power) : (s.modPower f).fuses = s.fuses := rfl
@[simp] theorem State.modPower_boot (s : State) (f : Power → Power) : (s.modPower f).boot = s.boot := rfl
@[simp] theorem State.modPower_ledger (s : State) (f : Power → Power) : (s.modPower f).ledger = s.ledger := rfl
@[simp] theorem State.modPower_attar (s : State) (f : Power → Power) : (s.modPower f).attar = s.attar := rfl
@[simp] theorem State.modPower_tb (s : State) (f : Power → Power) : (s.modPower f).tb = s.tb := rfl
@[simp] theorem State.modPower_pins (s : State) (f : Power → Power) : (s.modPower f).pins = s.pins := rfl
@[simp] theorem State.modPower_emitted (s : State) (f : Power → Power) : (s.modPower f).emitted = s.emitted := rfl
@[simp] theorem State.modPower_freeCtr (s : State) (f : Power → Power) : (s.modPower f).freeCtr = s.freeCtr := rfl

@[simp] theorem State.modBellows_pending (s : State) (f : Bellows → Bellows) : (s.modBellows f).pending = s.pending := rfl
@[simp] theorem State.modBellows_mem (s : State) (f : Bellows → Bellows) : (s.modBellows f).mem = s.mem := rfl
@[simp] theorem State.modBellows_eccC (s : State) (f : Bellows → Bellows) : (s.modBellows f).eccC = s.eccC := rfl
@[simp] theorem State.modBellows_eccU (s : State) (f : Bellows → Bellows) : (s.modBellows f).eccU = s.eccU := rfl
@[simp] theorem State.modBellows_regs (s : State) (f : Bellows → Bellows) : (s.modBellows f).regs = s.regs := rfl
@[simp] theorem State.modBellows_eff (s : State) (f : Bellows → Bellows) : (s.modBellows f).eff = s.eff := rfl
@[simp] theorem State.modBellows_hold (s : State) (f : Bellows → Bellows) : (s.modBellows f).hold = s.hold := rfl
@[simp] theorem State.modBellows_snap (s : State) (f : Bellows → Bellows) : (s.modBellows f).snap = s.snap := rfl
@[simp] theorem State.modBellows_threads (s : State) (f : Bellows → Bellows) : (s.modBellows f).threads = s.threads := rfl
@[simp] theorem State.modBellows_cores (s : State) (f : Bellows → Bellows) : (s.modBellows f).cores = s.cores := rfl
@[simp] theorem State.modBellows_caches (s : State) (f : Bellows → Bellows) : (s.modBellows f).caches = s.caches := rfl
@[simp] theorem State.modBellows_resvs (s : State) (f : Bellows → Bellows) : (s.modBellows f).resvs = s.resvs := rfl
@[simp] theorem State.modBellows_pairs (s : State) (f : Bellows → Bellows) : (s.modBellows f).pairs = s.pairs := rfl
@[simp] theorem State.modBellows_ports (s : State) (f : Bellows → Bellows) : (s.modBellows f).ports = s.ports := rfl
@[simp] theorem State.modBellows_porter (s : State) (f : Bellows → Bellows) : (s.modBellows f).porter = s.porter := rfl
@[simp] theorem State.modBellows_prompt (s : State) (f : Bellows → Bellows) : (s.modBellows f).prompt = s.prompt := rfl
@[simp] theorem State.modBellows_crier (s : State) (f : Bellows → Bellows) : (s.modBellows f).crier = s.crier := rfl
@[simp] theorem State.modBellows_funcs (s : State) (f : Bellows → Bellows) : (s.modBellows f).funcs = s.funcs := rfl
@[simp] theorem State.modBellows_vecs (s : State) (f : Bellows → Bellows) : (s.modBellows f).vecs = s.vecs := rfl
@[simp] theorem State.modBellows_hqs (s : State) (f : Bellows → Bellows) : (s.modBellows f).hqs = s.hqs := rfl
@[simp] theorem State.modBellows_link (s : State) (f : Bellows → Bellows) : (s.modBellows f).link = s.link := rfl
@[simp] theorem State.modBellows_tally (s : State) (f : Bellows → Bellows) : (s.modBellows f).tally = s.tally := rfl
@[simp] theorem State.modBellows_assay (s : State) (f : Bellows → Bellows) : (s.modBellows f).assay = s.assay := rfl
@[simp] theorem State.modBellows_arbs (s : State) (f : Bellows → Bellows) : (s.modBellows f).arbs = s.arbs := rfl
@[simp] theorem State.modBellows_power (s : State) (f : Bellows → Bellows) : (s.modBellows f).power = s.power := rfl
@[simp] theorem State.modBellows_fuses (s : State) (f : Bellows → Bellows) : (s.modBellows f).fuses = s.fuses := rfl
@[simp] theorem State.modBellows_boot (s : State) (f : Bellows → Bellows) : (s.modBellows f).boot = s.boot := rfl
@[simp] theorem State.modBellows_ledger (s : State) (f : Bellows → Bellows) : (s.modBellows f).ledger = s.ledger := rfl
@[simp] theorem State.modBellows_attar (s : State) (f : Bellows → Bellows) : (s.modBellows f).attar = s.attar := rfl
@[simp] theorem State.modBellows_tb (s : State) (f : Bellows → Bellows) : (s.modBellows f).tb = s.tb := rfl
@[simp] theorem State.modBellows_pins (s : State) (f : Bellows → Bellows) : (s.modBellows f).pins = s.pins := rfl
@[simp] theorem State.modBellows_emitted (s : State) (f : Bellows → Bellows) : (s.modBellows f).emitted = s.emitted := rfl
@[simp] theorem State.modBellows_freeCtr (s : State) (f : Bellows → Bellows) : (s.modBellows f).freeCtr = s.freeCtr := rfl

@[simp] theorem State.modBoot_pending (s : State) (f : Boot → Boot) : (s.modBoot f).pending = s.pending := rfl
@[simp] theorem State.modBoot_mem (s : State) (f : Boot → Boot) : (s.modBoot f).mem = s.mem := rfl
@[simp] theorem State.modBoot_eccC (s : State) (f : Boot → Boot) : (s.modBoot f).eccC = s.eccC := rfl
@[simp] theorem State.modBoot_eccU (s : State) (f : Boot → Boot) : (s.modBoot f).eccU = s.eccU := rfl
@[simp] theorem State.modBoot_regs (s : State) (f : Boot → Boot) : (s.modBoot f).regs = s.regs := rfl
@[simp] theorem State.modBoot_eff (s : State) (f : Boot → Boot) : (s.modBoot f).eff = s.eff := rfl
@[simp] theorem State.modBoot_hold (s : State) (f : Boot → Boot) : (s.modBoot f).hold = s.hold := rfl
@[simp] theorem State.modBoot_snap (s : State) (f : Boot → Boot) : (s.modBoot f).snap = s.snap := rfl
@[simp] theorem State.modBoot_threads (s : State) (f : Boot → Boot) : (s.modBoot f).threads = s.threads := rfl
@[simp] theorem State.modBoot_cores (s : State) (f : Boot → Boot) : (s.modBoot f).cores = s.cores := rfl
@[simp] theorem State.modBoot_caches (s : State) (f : Boot → Boot) : (s.modBoot f).caches = s.caches := rfl
@[simp] theorem State.modBoot_resvs (s : State) (f : Boot → Boot) : (s.modBoot f).resvs = s.resvs := rfl
@[simp] theorem State.modBoot_pairs (s : State) (f : Boot → Boot) : (s.modBoot f).pairs = s.pairs := rfl
@[simp] theorem State.modBoot_ports (s : State) (f : Boot → Boot) : (s.modBoot f).ports = s.ports := rfl
@[simp] theorem State.modBoot_porter (s : State) (f : Boot → Boot) : (s.modBoot f).porter = s.porter := rfl
@[simp] theorem State.modBoot_prompt (s : State) (f : Boot → Boot) : (s.modBoot f).prompt = s.prompt := rfl
@[simp] theorem State.modBoot_crier (s : State) (f : Boot → Boot) : (s.modBoot f).crier = s.crier := rfl
@[simp] theorem State.modBoot_funcs (s : State) (f : Boot → Boot) : (s.modBoot f).funcs = s.funcs := rfl
@[simp] theorem State.modBoot_vecs (s : State) (f : Boot → Boot) : (s.modBoot f).vecs = s.vecs := rfl
@[simp] theorem State.modBoot_hqs (s : State) (f : Boot → Boot) : (s.modBoot f).hqs = s.hqs := rfl
@[simp] theorem State.modBoot_link (s : State) (f : Boot → Boot) : (s.modBoot f).link = s.link := rfl
@[simp] theorem State.modBoot_tally (s : State) (f : Boot → Boot) : (s.modBoot f).tally = s.tally := rfl
@[simp] theorem State.modBoot_assay (s : State) (f : Boot → Boot) : (s.modBoot f).assay = s.assay := rfl
@[simp] theorem State.modBoot_bellows (s : State) (f : Boot → Boot) : (s.modBoot f).bellows = s.bellows := rfl
@[simp] theorem State.modBoot_arbs (s : State) (f : Boot → Boot) : (s.modBoot f).arbs = s.arbs := rfl
@[simp] theorem State.modBoot_power (s : State) (f : Boot → Boot) : (s.modBoot f).power = s.power := rfl
@[simp] theorem State.modBoot_fuses (s : State) (f : Boot → Boot) : (s.modBoot f).fuses = s.fuses := rfl
@[simp] theorem State.modBoot_ledger (s : State) (f : Boot → Boot) : (s.modBoot f).ledger = s.ledger := rfl
@[simp] theorem State.modBoot_attar (s : State) (f : Boot → Boot) : (s.modBoot f).attar = s.attar := rfl
@[simp] theorem State.modBoot_tb (s : State) (f : Boot → Boot) : (s.modBoot f).tb = s.tb := rfl
@[simp] theorem State.modBoot_pins (s : State) (f : Boot → Boot) : (s.modBoot f).pins = s.pins := rfl
@[simp] theorem State.modBoot_emitted (s : State) (f : Boot → Boot) : (s.modBoot f).emitted = s.emitted := rfl
@[simp] theorem State.modBoot_freeCtr (s : State) (f : Boot → Boot) : (s.modBoot f).freeCtr = s.freeCtr := rfl

@[simp] theorem State.modAttar_pending (s : State) (f : Attar → Attar) : (s.modAttar f).pending = s.pending := rfl
@[simp] theorem State.modAttar_mem (s : State) (f : Attar → Attar) : (s.modAttar f).mem = s.mem := rfl
@[simp] theorem State.modAttar_eccC (s : State) (f : Attar → Attar) : (s.modAttar f).eccC = s.eccC := rfl
@[simp] theorem State.modAttar_eccU (s : State) (f : Attar → Attar) : (s.modAttar f).eccU = s.eccU := rfl
@[simp] theorem State.modAttar_regs (s : State) (f : Attar → Attar) : (s.modAttar f).regs = s.regs := rfl
@[simp] theorem State.modAttar_eff (s : State) (f : Attar → Attar) : (s.modAttar f).eff = s.eff := rfl
@[simp] theorem State.modAttar_hold (s : State) (f : Attar → Attar) : (s.modAttar f).hold = s.hold := rfl
@[simp] theorem State.modAttar_snap (s : State) (f : Attar → Attar) : (s.modAttar f).snap = s.snap := rfl
@[simp] theorem State.modAttar_threads (s : State) (f : Attar → Attar) : (s.modAttar f).threads = s.threads := rfl
@[simp] theorem State.modAttar_cores (s : State) (f : Attar → Attar) : (s.modAttar f).cores = s.cores := rfl
@[simp] theorem State.modAttar_caches (s : State) (f : Attar → Attar) : (s.modAttar f).caches = s.caches := rfl
@[simp] theorem State.modAttar_resvs (s : State) (f : Attar → Attar) : (s.modAttar f).resvs = s.resvs := rfl
@[simp] theorem State.modAttar_pairs (s : State) (f : Attar → Attar) : (s.modAttar f).pairs = s.pairs := rfl
@[simp] theorem State.modAttar_ports (s : State) (f : Attar → Attar) : (s.modAttar f).ports = s.ports := rfl
@[simp] theorem State.modAttar_porter (s : State) (f : Attar → Attar) : (s.modAttar f).porter = s.porter := rfl
@[simp] theorem State.modAttar_prompt (s : State) (f : Attar → Attar) : (s.modAttar f).prompt = s.prompt := rfl
@[simp] theorem State.modAttar_crier (s : State) (f : Attar → Attar) : (s.modAttar f).crier = s.crier := rfl
@[simp] theorem State.modAttar_funcs (s : State) (f : Attar → Attar) : (s.modAttar f).funcs = s.funcs := rfl
@[simp] theorem State.modAttar_vecs (s : State) (f : Attar → Attar) : (s.modAttar f).vecs = s.vecs := rfl
@[simp] theorem State.modAttar_hqs (s : State) (f : Attar → Attar) : (s.modAttar f).hqs = s.hqs := rfl
@[simp] theorem State.modAttar_link (s : State) (f : Attar → Attar) : (s.modAttar f).link = s.link := rfl
@[simp] theorem State.modAttar_tally (s : State) (f : Attar → Attar) : (s.modAttar f).tally = s.tally := rfl
@[simp] theorem State.modAttar_assay (s : State) (f : Attar → Attar) : (s.modAttar f).assay = s.assay := rfl
@[simp] theorem State.modAttar_bellows (s : State) (f : Attar → Attar) : (s.modAttar f).bellows = s.bellows := rfl
@[simp] theorem State.modAttar_arbs (s : State) (f : Attar → Attar) : (s.modAttar f).arbs = s.arbs := rfl
@[simp] theorem State.modAttar_power (s : State) (f : Attar → Attar) : (s.modAttar f).power = s.power := rfl
@[simp] theorem State.modAttar_fuses (s : State) (f : Attar → Attar) : (s.modAttar f).fuses = s.fuses := rfl
@[simp] theorem State.modAttar_boot (s : State) (f : Attar → Attar) : (s.modAttar f).boot = s.boot := rfl
@[simp] theorem State.modAttar_ledger (s : State) (f : Attar → Attar) : (s.modAttar f).ledger = s.ledger := rfl
@[simp] theorem State.modAttar_tb (s : State) (f : Attar → Attar) : (s.modAttar f).tb = s.tb := rfl
@[simp] theorem State.modAttar_pins (s : State) (f : Attar → Attar) : (s.modAttar f).pins = s.pins := rfl
@[simp] theorem State.modAttar_emitted (s : State) (f : Attar → Attar) : (s.modAttar f).emitted = s.emitted := rfl
@[simp] theorem State.modAttar_freeCtr (s : State) (f : Attar → Attar) : (s.modAttar f).freeCtr = s.freeCtr := rfl

@[simp] theorem State.modLedger_pending (s : State) (f : Ledger → Ledger) : (s.modLedger f).pending = s.pending := rfl
@[simp] theorem State.modLedger_mem (s : State) (f : Ledger → Ledger) : (s.modLedger f).mem = s.mem := rfl
@[simp] theorem State.modLedger_eccC (s : State) (f : Ledger → Ledger) : (s.modLedger f).eccC = s.eccC := rfl
@[simp] theorem State.modLedger_eccU (s : State) (f : Ledger → Ledger) : (s.modLedger f).eccU = s.eccU := rfl
@[simp] theorem State.modLedger_regs (s : State) (f : Ledger → Ledger) : (s.modLedger f).regs = s.regs := rfl
@[simp] theorem State.modLedger_eff (s : State) (f : Ledger → Ledger) : (s.modLedger f).eff = s.eff := rfl
@[simp] theorem State.modLedger_hold (s : State) (f : Ledger → Ledger) : (s.modLedger f).hold = s.hold := rfl
@[simp] theorem State.modLedger_snap (s : State) (f : Ledger → Ledger) : (s.modLedger f).snap = s.snap := rfl
@[simp] theorem State.modLedger_threads (s : State) (f : Ledger → Ledger) : (s.modLedger f).threads = s.threads := rfl
@[simp] theorem State.modLedger_cores (s : State) (f : Ledger → Ledger) : (s.modLedger f).cores = s.cores := rfl
@[simp] theorem State.modLedger_caches (s : State) (f : Ledger → Ledger) : (s.modLedger f).caches = s.caches := rfl
@[simp] theorem State.modLedger_resvs (s : State) (f : Ledger → Ledger) : (s.modLedger f).resvs = s.resvs := rfl
@[simp] theorem State.modLedger_pairs (s : State) (f : Ledger → Ledger) : (s.modLedger f).pairs = s.pairs := rfl
@[simp] theorem State.modLedger_ports (s : State) (f : Ledger → Ledger) : (s.modLedger f).ports = s.ports := rfl
@[simp] theorem State.modLedger_porter (s : State) (f : Ledger → Ledger) : (s.modLedger f).porter = s.porter := rfl
@[simp] theorem State.modLedger_prompt (s : State) (f : Ledger → Ledger) : (s.modLedger f).prompt = s.prompt := rfl
@[simp] theorem State.modLedger_crier (s : State) (f : Ledger → Ledger) : (s.modLedger f).crier = s.crier := rfl
@[simp] theorem State.modLedger_funcs (s : State) (f : Ledger → Ledger) : (s.modLedger f).funcs = s.funcs := rfl
@[simp] theorem State.modLedger_vecs (s : State) (f : Ledger → Ledger) : (s.modLedger f).vecs = s.vecs := rfl
@[simp] theorem State.modLedger_hqs (s : State) (f : Ledger → Ledger) : (s.modLedger f).hqs = s.hqs := rfl
@[simp] theorem State.modLedger_link (s : State) (f : Ledger → Ledger) : (s.modLedger f).link = s.link := rfl
@[simp] theorem State.modLedger_tally (s : State) (f : Ledger → Ledger) : (s.modLedger f).tally = s.tally := rfl
@[simp] theorem State.modLedger_assay (s : State) (f : Ledger → Ledger) : (s.modLedger f).assay = s.assay := rfl
@[simp] theorem State.modLedger_bellows (s : State) (f : Ledger → Ledger) : (s.modLedger f).bellows = s.bellows := rfl
@[simp] theorem State.modLedger_arbs (s : State) (f : Ledger → Ledger) : (s.modLedger f).arbs = s.arbs := rfl
@[simp] theorem State.modLedger_power (s : State) (f : Ledger → Ledger) : (s.modLedger f).power = s.power := rfl
@[simp] theorem State.modLedger_fuses (s : State) (f : Ledger → Ledger) : (s.modLedger f).fuses = s.fuses := rfl
@[simp] theorem State.modLedger_boot (s : State) (f : Ledger → Ledger) : (s.modLedger f).boot = s.boot := rfl
@[simp] theorem State.modLedger_attar (s : State) (f : Ledger → Ledger) : (s.modLedger f).attar = s.attar := rfl
@[simp] theorem State.modLedger_tb (s : State) (f : Ledger → Ledger) : (s.modLedger f).tb = s.tb := rfl
@[simp] theorem State.modLedger_pins (s : State) (f : Ledger → Ledger) : (s.modLedger f).pins = s.pins := rfl
@[simp] theorem State.modLedger_emitted (s : State) (f : Ledger → Ledger) : (s.modLedger f).emitted = s.emitted := rfl
@[simp] theorem State.modLedger_freeCtr (s : State) (f : Ledger → Ledger) : (s.modLedger f).freeCtr = s.freeCtr := rfl

@[simp] theorem State.modTb_pending (s : State) (f : Timebase → Timebase) : (s.modTb f).pending = s.pending := rfl
@[simp] theorem State.modTb_mem (s : State) (f : Timebase → Timebase) : (s.modTb f).mem = s.mem := rfl
@[simp] theorem State.modTb_eccC (s : State) (f : Timebase → Timebase) : (s.modTb f).eccC = s.eccC := rfl
@[simp] theorem State.modTb_eccU (s : State) (f : Timebase → Timebase) : (s.modTb f).eccU = s.eccU := rfl
@[simp] theorem State.modTb_regs (s : State) (f : Timebase → Timebase) : (s.modTb f).regs = s.regs := rfl
@[simp] theorem State.modTb_eff (s : State) (f : Timebase → Timebase) : (s.modTb f).eff = s.eff := rfl
@[simp] theorem State.modTb_hold (s : State) (f : Timebase → Timebase) : (s.modTb f).hold = s.hold := rfl
@[simp] theorem State.modTb_snap (s : State) (f : Timebase → Timebase) : (s.modTb f).snap = s.snap := rfl
@[simp] theorem State.modTb_threads (s : State) (f : Timebase → Timebase) : (s.modTb f).threads = s.threads := rfl
@[simp] theorem State.modTb_cores (s : State) (f : Timebase → Timebase) : (s.modTb f).cores = s.cores := rfl
@[simp] theorem State.modTb_caches (s : State) (f : Timebase → Timebase) : (s.modTb f).caches = s.caches := rfl
@[simp] theorem State.modTb_resvs (s : State) (f : Timebase → Timebase) : (s.modTb f).resvs = s.resvs := rfl
@[simp] theorem State.modTb_pairs (s : State) (f : Timebase → Timebase) : (s.modTb f).pairs = s.pairs := rfl
@[simp] theorem State.modTb_ports (s : State) (f : Timebase → Timebase) : (s.modTb f).ports = s.ports := rfl
@[simp] theorem State.modTb_porter (s : State) (f : Timebase → Timebase) : (s.modTb f).porter = s.porter := rfl
@[simp] theorem State.modTb_prompt (s : State) (f : Timebase → Timebase) : (s.modTb f).prompt = s.prompt := rfl
@[simp] theorem State.modTb_crier (s : State) (f : Timebase → Timebase) : (s.modTb f).crier = s.crier := rfl
@[simp] theorem State.modTb_funcs (s : State) (f : Timebase → Timebase) : (s.modTb f).funcs = s.funcs := rfl
@[simp] theorem State.modTb_vecs (s : State) (f : Timebase → Timebase) : (s.modTb f).vecs = s.vecs := rfl
@[simp] theorem State.modTb_hqs (s : State) (f : Timebase → Timebase) : (s.modTb f).hqs = s.hqs := rfl
@[simp] theorem State.modTb_link (s : State) (f : Timebase → Timebase) : (s.modTb f).link = s.link := rfl
@[simp] theorem State.modTb_tally (s : State) (f : Timebase → Timebase) : (s.modTb f).tally = s.tally := rfl
@[simp] theorem State.modTb_assay (s : State) (f : Timebase → Timebase) : (s.modTb f).assay = s.assay := rfl
@[simp] theorem State.modTb_bellows (s : State) (f : Timebase → Timebase) : (s.modTb f).bellows = s.bellows := rfl
@[simp] theorem State.modTb_arbs (s : State) (f : Timebase → Timebase) : (s.modTb f).arbs = s.arbs := rfl
@[simp] theorem State.modTb_power (s : State) (f : Timebase → Timebase) : (s.modTb f).power = s.power := rfl
@[simp] theorem State.modTb_fuses (s : State) (f : Timebase → Timebase) : (s.modTb f).fuses = s.fuses := rfl
@[simp] theorem State.modTb_boot (s : State) (f : Timebase → Timebase) : (s.modTb f).boot = s.boot := rfl
@[simp] theorem State.modTb_ledger (s : State) (f : Timebase → Timebase) : (s.modTb f).ledger = s.ledger := rfl
@[simp] theorem State.modTb_attar (s : State) (f : Timebase → Timebase) : (s.modTb f).attar = s.attar := rfl
@[simp] theorem State.modTb_pins (s : State) (f : Timebase → Timebase) : (s.modTb f).pins = s.pins := rfl
@[simp] theorem State.modTb_emitted (s : State) (f : Timebase → Timebase) : (s.modTb f).emitted = s.emitted := rfl
@[simp] theorem State.modTb_freeCtr (s : State) (f : Timebase → Timebase) : (s.modTb f).freeCtr = s.freeCtr := rfl

@[simp] theorem State.modLink_pending (s : State) (f : Link → Link) : (s.modLink f).pending = s.pending := rfl
@[simp] theorem State.modLink_mem (s : State) (f : Link → Link) : (s.modLink f).mem = s.mem := rfl
@[simp] theorem State.modLink_eccC (s : State) (f : Link → Link) : (s.modLink f).eccC = s.eccC := rfl
@[simp] theorem State.modLink_eccU (s : State) (f : Link → Link) : (s.modLink f).eccU = s.eccU := rfl
@[simp] theorem State.modLink_regs (s : State) (f : Link → Link) : (s.modLink f).regs = s.regs := rfl
@[simp] theorem State.modLink_eff (s : State) (f : Link → Link) : (s.modLink f).eff = s.eff := rfl
@[simp] theorem State.modLink_hold (s : State) (f : Link → Link) : (s.modLink f).hold = s.hold := rfl
@[simp] theorem State.modLink_snap (s : State) (f : Link → Link) : (s.modLink f).snap = s.snap := rfl
@[simp] theorem State.modLink_threads (s : State) (f : Link → Link) : (s.modLink f).threads = s.threads := rfl
@[simp] theorem State.modLink_cores (s : State) (f : Link → Link) : (s.modLink f).cores = s.cores := rfl
@[simp] theorem State.modLink_caches (s : State) (f : Link → Link) : (s.modLink f).caches = s.caches := rfl
@[simp] theorem State.modLink_resvs (s : State) (f : Link → Link) : (s.modLink f).resvs = s.resvs := rfl
@[simp] theorem State.modLink_pairs (s : State) (f : Link → Link) : (s.modLink f).pairs = s.pairs := rfl
@[simp] theorem State.modLink_ports (s : State) (f : Link → Link) : (s.modLink f).ports = s.ports := rfl
@[simp] theorem State.modLink_porter (s : State) (f : Link → Link) : (s.modLink f).porter = s.porter := rfl
@[simp] theorem State.modLink_prompt (s : State) (f : Link → Link) : (s.modLink f).prompt = s.prompt := rfl
@[simp] theorem State.modLink_crier (s : State) (f : Link → Link) : (s.modLink f).crier = s.crier := rfl
@[simp] theorem State.modLink_funcs (s : State) (f : Link → Link) : (s.modLink f).funcs = s.funcs := rfl
@[simp] theorem State.modLink_vecs (s : State) (f : Link → Link) : (s.modLink f).vecs = s.vecs := rfl
@[simp] theorem State.modLink_hqs (s : State) (f : Link → Link) : (s.modLink f).hqs = s.hqs := rfl
@[simp] theorem State.modLink_tally (s : State) (f : Link → Link) : (s.modLink f).tally = s.tally := rfl
@[simp] theorem State.modLink_assay (s : State) (f : Link → Link) : (s.modLink f).assay = s.assay := rfl
@[simp] theorem State.modLink_bellows (s : State) (f : Link → Link) : (s.modLink f).bellows = s.bellows := rfl
@[simp] theorem State.modLink_arbs (s : State) (f : Link → Link) : (s.modLink f).arbs = s.arbs := rfl
@[simp] theorem State.modLink_power (s : State) (f : Link → Link) : (s.modLink f).power = s.power := rfl
@[simp] theorem State.modLink_fuses (s : State) (f : Link → Link) : (s.modLink f).fuses = s.fuses := rfl
@[simp] theorem State.modLink_boot (s : State) (f : Link → Link) : (s.modLink f).boot = s.boot := rfl
@[simp] theorem State.modLink_ledger (s : State) (f : Link → Link) : (s.modLink f).ledger = s.ledger := rfl
@[simp] theorem State.modLink_attar (s : State) (f : Link → Link) : (s.modLink f).attar = s.attar := rfl
@[simp] theorem State.modLink_tb (s : State) (f : Link → Link) : (s.modLink f).tb = s.tb := rfl
@[simp] theorem State.modLink_pins (s : State) (f : Link → Link) : (s.modLink f).pins = s.pins := rfl
@[simp] theorem State.modLink_emitted (s : State) (f : Link → Link) : (s.modLink f).emitted = s.emitted := rfl
@[simp] theorem State.modLink_freeCtr (s : State) (f : Link → Link) : (s.modLink f).freeCtr = s.freeCtr := rfl

@[simp] theorem State.emit_pending (s : State) (e : Emit) : (s.emit e).pending = s.pending := rfl
@[simp] theorem State.emit_mem (s : State) (e : Emit) : (s.emit e).mem = s.mem := rfl
@[simp] theorem State.emit_eccC (s : State) (e : Emit) : (s.emit e).eccC = s.eccC := rfl
@[simp] theorem State.emit_eccU (s : State) (e : Emit) : (s.emit e).eccU = s.eccU := rfl
@[simp] theorem State.emit_regs (s : State) (e : Emit) : (s.emit e).regs = s.regs := rfl
@[simp] theorem State.emit_eff (s : State) (e : Emit) : (s.emit e).eff = s.eff := rfl
@[simp] theorem State.emit_hold (s : State) (e : Emit) : (s.emit e).hold = s.hold := rfl
@[simp] theorem State.emit_snap (s : State) (e : Emit) : (s.emit e).snap = s.snap := rfl
@[simp] theorem State.emit_threads (s : State) (e : Emit) : (s.emit e).threads = s.threads := rfl
@[simp] theorem State.emit_cores (s : State) (e : Emit) : (s.emit e).cores = s.cores := rfl
@[simp] theorem State.emit_caches (s : State) (e : Emit) : (s.emit e).caches = s.caches := rfl
@[simp] theorem State.emit_resvs (s : State) (e : Emit) : (s.emit e).resvs = s.resvs := rfl
@[simp] theorem State.emit_pairs (s : State) (e : Emit) : (s.emit e).pairs = s.pairs := rfl
@[simp] theorem State.emit_ports (s : State) (e : Emit) : (s.emit e).ports = s.ports := rfl
@[simp] theorem State.emit_porter (s : State) (e : Emit) : (s.emit e).porter = s.porter := rfl
@[simp] theorem State.emit_prompt (s : State) (e : Emit) : (s.emit e).prompt = s.prompt := rfl
@[simp] theorem State.emit_crier (s : State) (e : Emit) : (s.emit e).crier = s.crier := rfl
@[simp] theorem State.emit_funcs (s : State) (e : Emit) : (s.emit e).funcs = s.funcs := rfl
@[simp] theorem State.emit_vecs (s : State) (e : Emit) : (s.emit e).vecs = s.vecs := rfl
@[simp] theorem State.emit_hqs (s : State) (e : Emit) : (s.emit e).hqs = s.hqs := rfl
@[simp] theorem State.emit_link (s : State) (e : Emit) : (s.emit e).link = s.link := rfl
@[simp] theorem State.emit_tally (s : State) (e : Emit) : (s.emit e).tally = s.tally := rfl
@[simp] theorem State.emit_assay (s : State) (e : Emit) : (s.emit e).assay = s.assay := rfl
@[simp] theorem State.emit_bellows (s : State) (e : Emit) : (s.emit e).bellows = s.bellows := rfl
@[simp] theorem State.emit_arbs (s : State) (e : Emit) : (s.emit e).arbs = s.arbs := rfl
@[simp] theorem State.emit_power (s : State) (e : Emit) : (s.emit e).power = s.power := rfl
@[simp] theorem State.emit_fuses (s : State) (e : Emit) : (s.emit e).fuses = s.fuses := rfl
@[simp] theorem State.emit_boot (s : State) (e : Emit) : (s.emit e).boot = s.boot := rfl
@[simp] theorem State.emit_ledger (s : State) (e : Emit) : (s.emit e).ledger = s.ledger := rfl
@[simp] theorem State.emit_attar (s : State) (e : Emit) : (s.emit e).attar = s.attar := rfl
@[simp] theorem State.emit_tb (s : State) (e : Emit) : (s.emit e).tb = s.tb := rfl
@[simp] theorem State.emit_pins (s : State) (e : Emit) : (s.emit e).pins = s.pins := rfl
@[simp] theorem State.emit_freeCtr (s : State) (e : Emit) : (s.emit e).freeCtr = s.freeCtr := rfl

@[simp] theorem State.put_pending (s : State) (f : FieldRef) (v off : Nat) : (s.put f v off).pending = s.pending := rfl
@[simp] theorem State.put_mem (s : State) (f : FieldRef) (v off : Nat) : (s.put f v off).mem = s.mem := rfl
@[simp] theorem State.put_eccC (s : State) (f : FieldRef) (v off : Nat) : (s.put f v off).eccC = s.eccC := rfl
@[simp] theorem State.put_eccU (s : State) (f : FieldRef) (v off : Nat) : (s.put f v off).eccU = s.eccU := rfl
@[simp] theorem State.put_eff (s : State) (f : FieldRef) (v off : Nat) : (s.put f v off).eff = s.eff := rfl
@[simp] theorem State.put_hold (s : State) (f : FieldRef) (v off : Nat) : (s.put f v off).hold = s.hold := rfl
@[simp] theorem State.put_snap (s : State) (f : FieldRef) (v off : Nat) : (s.put f v off).snap = s.snap := rfl
@[simp] theorem State.put_threads (s : State) (f : FieldRef) (v off : Nat) : (s.put f v off).threads = s.threads := rfl
@[simp] theorem State.put_cores (s : State) (f : FieldRef) (v off : Nat) : (s.put f v off).cores = s.cores := rfl
@[simp] theorem State.put_caches (s : State) (f : FieldRef) (v off : Nat) : (s.put f v off).caches = s.caches := rfl
@[simp] theorem State.put_resvs (s : State) (f : FieldRef) (v off : Nat) : (s.put f v off).resvs = s.resvs := rfl
@[simp] theorem State.put_pairs (s : State) (f : FieldRef) (v off : Nat) : (s.put f v off).pairs = s.pairs := rfl
@[simp] theorem State.put_ports (s : State) (f : FieldRef) (v off : Nat) : (s.put f v off).ports = s.ports := rfl
@[simp] theorem State.put_porter (s : State) (f : FieldRef) (v off : Nat) : (s.put f v off).porter = s.porter := rfl
@[simp] theorem State.put_prompt (s : State) (f : FieldRef) (v off : Nat) : (s.put f v off).prompt = s.prompt := rfl
@[simp] theorem State.put_crier (s : State) (f : FieldRef) (v off : Nat) : (s.put f v off).crier = s.crier := rfl
@[simp] theorem State.put_funcs (s : State) (f : FieldRef) (v off : Nat) : (s.put f v off).funcs = s.funcs := rfl
@[simp] theorem State.put_vecs (s : State) (f : FieldRef) (v off : Nat) : (s.put f v off).vecs = s.vecs := rfl
@[simp] theorem State.put_hqs (s : State) (f : FieldRef) (v off : Nat) : (s.put f v off).hqs = s.hqs := rfl
@[simp] theorem State.put_link (s : State) (f : FieldRef) (v off : Nat) : (s.put f v off).link = s.link := rfl
@[simp] theorem State.put_tally (s : State) (f : FieldRef) (v off : Nat) : (s.put f v off).tally = s.tally := rfl
@[simp] theorem State.put_assay (s : State) (f : FieldRef) (v off : Nat) : (s.put f v off).assay = s.assay := rfl
@[simp] theorem State.put_bellows (s : State) (f : FieldRef) (v off : Nat) : (s.put f v off).bellows = s.bellows := rfl
@[simp] theorem State.put_arbs (s : State) (f : FieldRef) (v off : Nat) : (s.put f v off).arbs = s.arbs := rfl
@[simp] theorem State.put_power (s : State) (f : FieldRef) (v off : Nat) : (s.put f v off).power = s.power := rfl
@[simp] theorem State.put_fuses (s : State) (f : FieldRef) (v off : Nat) : (s.put f v off).fuses = s.fuses := rfl
@[simp] theorem State.put_boot (s : State) (f : FieldRef) (v off : Nat) : (s.put f v off).boot = s.boot := rfl
@[simp] theorem State.put_ledger (s : State) (f : FieldRef) (v off : Nat) : (s.put f v off).ledger = s.ledger := rfl
@[simp] theorem State.put_attar (s : State) (f : FieldRef) (v off : Nat) : (s.put f v off).attar = s.attar := rfl
@[simp] theorem State.put_tb (s : State) (f : FieldRef) (v off : Nat) : (s.put f v off).tb = s.tb := rfl
@[simp] theorem State.put_pins (s : State) (f : FieldRef) (v off : Nat) : (s.put f v off).pins = s.pins := rfl
@[simp] theorem State.put_emitted (s : State) (f : FieldRef) (v off : Nat) : (s.put f v off).emitted = s.emitted := rfl
@[simp] theorem State.put_freeCtr (s : State) (f : FieldRef) (v off : Nat) : (s.put f v off).freeCtr = s.freeCtr := rfl

@[simp] theorem State.putEff_pending (s : State) (f : FieldRef) (v off : Nat) : (s.putEff f v off).pending = s.pending := rfl
@[simp] theorem State.putEff_mem (s : State) (f : FieldRef) (v off : Nat) : (s.putEff f v off).mem = s.mem := rfl
@[simp] theorem State.putEff_eccC (s : State) (f : FieldRef) (v off : Nat) : (s.putEff f v off).eccC = s.eccC := rfl
@[simp] theorem State.putEff_eccU (s : State) (f : FieldRef) (v off : Nat) : (s.putEff f v off).eccU = s.eccU := rfl
@[simp] theorem State.putEff_regs (s : State) (f : FieldRef) (v off : Nat) : (s.putEff f v off).regs = s.regs := rfl
@[simp] theorem State.putEff_hold (s : State) (f : FieldRef) (v off : Nat) : (s.putEff f v off).hold = s.hold := rfl
@[simp] theorem State.putEff_snap (s : State) (f : FieldRef) (v off : Nat) : (s.putEff f v off).snap = s.snap := rfl
@[simp] theorem State.putEff_threads (s : State) (f : FieldRef) (v off : Nat) : (s.putEff f v off).threads = s.threads := rfl
@[simp] theorem State.putEff_cores (s : State) (f : FieldRef) (v off : Nat) : (s.putEff f v off).cores = s.cores := rfl
@[simp] theorem State.putEff_caches (s : State) (f : FieldRef) (v off : Nat) : (s.putEff f v off).caches = s.caches := rfl
@[simp] theorem State.putEff_resvs (s : State) (f : FieldRef) (v off : Nat) : (s.putEff f v off).resvs = s.resvs := rfl
@[simp] theorem State.putEff_pairs (s : State) (f : FieldRef) (v off : Nat) : (s.putEff f v off).pairs = s.pairs := rfl
@[simp] theorem State.putEff_ports (s : State) (f : FieldRef) (v off : Nat) : (s.putEff f v off).ports = s.ports := rfl
@[simp] theorem State.putEff_porter (s : State) (f : FieldRef) (v off : Nat) : (s.putEff f v off).porter = s.porter := rfl
@[simp] theorem State.putEff_prompt (s : State) (f : FieldRef) (v off : Nat) : (s.putEff f v off).prompt = s.prompt := rfl
@[simp] theorem State.putEff_crier (s : State) (f : FieldRef) (v off : Nat) : (s.putEff f v off).crier = s.crier := rfl
@[simp] theorem State.putEff_funcs (s : State) (f : FieldRef) (v off : Nat) : (s.putEff f v off).funcs = s.funcs := rfl
@[simp] theorem State.putEff_vecs (s : State) (f : FieldRef) (v off : Nat) : (s.putEff f v off).vecs = s.vecs := rfl
@[simp] theorem State.putEff_hqs (s : State) (f : FieldRef) (v off : Nat) : (s.putEff f v off).hqs = s.hqs := rfl
@[simp] theorem State.putEff_link (s : State) (f : FieldRef) (v off : Nat) : (s.putEff f v off).link = s.link := rfl
@[simp] theorem State.putEff_tally (s : State) (f : FieldRef) (v off : Nat) : (s.putEff f v off).tally = s.tally := rfl
@[simp] theorem State.putEff_assay (s : State) (f : FieldRef) (v off : Nat) : (s.putEff f v off).assay = s.assay := rfl
@[simp] theorem State.putEff_bellows (s : State) (f : FieldRef) (v off : Nat) : (s.putEff f v off).bellows = s.bellows := rfl
@[simp] theorem State.putEff_arbs (s : State) (f : FieldRef) (v off : Nat) : (s.putEff f v off).arbs = s.arbs := rfl
@[simp] theorem State.putEff_power (s : State) (f : FieldRef) (v off : Nat) : (s.putEff f v off).power = s.power := rfl
@[simp] theorem State.putEff_fuses (s : State) (f : FieldRef) (v off : Nat) : (s.putEff f v off).fuses = s.fuses := rfl
@[simp] theorem State.putEff_boot (s : State) (f : FieldRef) (v off : Nat) : (s.putEff f v off).boot = s.boot := rfl
@[simp] theorem State.putEff_ledger (s : State) (f : FieldRef) (v off : Nat) : (s.putEff f v off).ledger = s.ledger := rfl
@[simp] theorem State.putEff_attar (s : State) (f : FieldRef) (v off : Nat) : (s.putEff f v off).attar = s.attar := rfl
@[simp] theorem State.putEff_tb (s : State) (f : FieldRef) (v off : Nat) : (s.putEff f v off).tb = s.tb := rfl
@[simp] theorem State.putEff_pins (s : State) (f : FieldRef) (v off : Nat) : (s.putEff f v off).pins = s.pins := rfl
@[simp] theorem State.putEff_emitted (s : State) (f : FieldRef) (v off : Nat) : (s.putEff f v off).emitted = s.emitted := rfl
@[simp] theorem State.putEff_freeCtr (s : State) (f : FieldRef) (v off : Nat) : (s.putEff f v off).freeCtr = s.freeCtr := rfl

@[simp] theorem State.bump_pending (s : State) (f : FieldRef) (n off : Nat) : (s.bump f n off).pending = s.pending := rfl
@[simp] theorem State.bump_mem (s : State) (f : FieldRef) (n off : Nat) : (s.bump f n off).mem = s.mem := rfl
@[simp] theorem State.bump_eccC (s : State) (f : FieldRef) (n off : Nat) : (s.bump f n off).eccC = s.eccC := rfl
@[simp] theorem State.bump_eccU (s : State) (f : FieldRef) (n off : Nat) : (s.bump f n off).eccU = s.eccU := rfl
@[simp] theorem State.bump_eff (s : State) (f : FieldRef) (n off : Nat) : (s.bump f n off).eff = s.eff := rfl
@[simp] theorem State.bump_hold (s : State) (f : FieldRef) (n off : Nat) : (s.bump f n off).hold = s.hold := rfl
@[simp] theorem State.bump_snap (s : State) (f : FieldRef) (n off : Nat) : (s.bump f n off).snap = s.snap := rfl
@[simp] theorem State.bump_threads (s : State) (f : FieldRef) (n off : Nat) : (s.bump f n off).threads = s.threads := rfl
@[simp] theorem State.bump_cores (s : State) (f : FieldRef) (n off : Nat) : (s.bump f n off).cores = s.cores := rfl
@[simp] theorem State.bump_caches (s : State) (f : FieldRef) (n off : Nat) : (s.bump f n off).caches = s.caches := rfl
@[simp] theorem State.bump_resvs (s : State) (f : FieldRef) (n off : Nat) : (s.bump f n off).resvs = s.resvs := rfl
@[simp] theorem State.bump_pairs (s : State) (f : FieldRef) (n off : Nat) : (s.bump f n off).pairs = s.pairs := rfl
@[simp] theorem State.bump_ports (s : State) (f : FieldRef) (n off : Nat) : (s.bump f n off).ports = s.ports := rfl
@[simp] theorem State.bump_porter (s : State) (f : FieldRef) (n off : Nat) : (s.bump f n off).porter = s.porter := rfl
@[simp] theorem State.bump_prompt (s : State) (f : FieldRef) (n off : Nat) : (s.bump f n off).prompt = s.prompt := rfl
@[simp] theorem State.bump_crier (s : State) (f : FieldRef) (n off : Nat) : (s.bump f n off).crier = s.crier := rfl
@[simp] theorem State.bump_funcs (s : State) (f : FieldRef) (n off : Nat) : (s.bump f n off).funcs = s.funcs := rfl
@[simp] theorem State.bump_vecs (s : State) (f : FieldRef) (n off : Nat) : (s.bump f n off).vecs = s.vecs := rfl
@[simp] theorem State.bump_hqs (s : State) (f : FieldRef) (n off : Nat) : (s.bump f n off).hqs = s.hqs := rfl
@[simp] theorem State.bump_link (s : State) (f : FieldRef) (n off : Nat) : (s.bump f n off).link = s.link := rfl
@[simp] theorem State.bump_tally (s : State) (f : FieldRef) (n off : Nat) : (s.bump f n off).tally = s.tally := rfl
@[simp] theorem State.bump_assay (s : State) (f : FieldRef) (n off : Nat) : (s.bump f n off).assay = s.assay := rfl
@[simp] theorem State.bump_bellows (s : State) (f : FieldRef) (n off : Nat) : (s.bump f n off).bellows = s.bellows := rfl
@[simp] theorem State.bump_arbs (s : State) (f : FieldRef) (n off : Nat) : (s.bump f n off).arbs = s.arbs := rfl
@[simp] theorem State.bump_power (s : State) (f : FieldRef) (n off : Nat) : (s.bump f n off).power = s.power := rfl
@[simp] theorem State.bump_fuses (s : State) (f : FieldRef) (n off : Nat) : (s.bump f n off).fuses = s.fuses := rfl
@[simp] theorem State.bump_boot (s : State) (f : FieldRef) (n off : Nat) : (s.bump f n off).boot = s.boot := rfl
@[simp] theorem State.bump_ledger (s : State) (f : FieldRef) (n off : Nat) : (s.bump f n off).ledger = s.ledger := rfl
@[simp] theorem State.bump_attar (s : State) (f : FieldRef) (n off : Nat) : (s.bump f n off).attar = s.attar := rfl
@[simp] theorem State.bump_tb (s : State) (f : FieldRef) (n off : Nat) : (s.bump f n off).tb = s.tb := rfl
@[simp] theorem State.bump_pins (s : State) (f : FieldRef) (n off : Nat) : (s.bump f n off).pins = s.pins := rfl
@[simp] theorem State.bump_emitted (s : State) (f : FieldRef) (n off : Nat) : (s.bump f n off).emitted = s.emitted := rfl
@[simp] theorem State.bump_freeCtr (s : State) (f : FieldRef) (n off : Nat) : (s.bump f n off).freeCtr = s.freeCtr := rfl

@[simp] theorem State.setPc_pending (s : State) (t : Nat) (pc : Word32) : (s.setPc t pc).pending = s.pending := rfl
@[simp] theorem State.setPc_mem (s : State) (t : Nat) (pc : Word32) : (s.setPc t pc).mem = s.mem := rfl
@[simp] theorem State.setPc_eccC (s : State) (t : Nat) (pc : Word32) : (s.setPc t pc).eccC = s.eccC := rfl
@[simp] theorem State.setPc_eccU (s : State) (t : Nat) (pc : Word32) : (s.setPc t pc).eccU = s.eccU := rfl
@[simp] theorem State.setPc_regs (s : State) (t : Nat) (pc : Word32) : (s.setPc t pc).regs = s.regs := rfl
@[simp] theorem State.setPc_eff (s : State) (t : Nat) (pc : Word32) : (s.setPc t pc).eff = s.eff := rfl
@[simp] theorem State.setPc_hold (s : State) (t : Nat) (pc : Word32) : (s.setPc t pc).hold = s.hold := rfl
@[simp] theorem State.setPc_snap (s : State) (t : Nat) (pc : Word32) : (s.setPc t pc).snap = s.snap := rfl
@[simp] theorem State.setPc_cores (s : State) (t : Nat) (pc : Word32) : (s.setPc t pc).cores = s.cores := rfl
@[simp] theorem State.setPc_caches (s : State) (t : Nat) (pc : Word32) : (s.setPc t pc).caches = s.caches := rfl
@[simp] theorem State.setPc_resvs (s : State) (t : Nat) (pc : Word32) : (s.setPc t pc).resvs = s.resvs := rfl
@[simp] theorem State.setPc_pairs (s : State) (t : Nat) (pc : Word32) : (s.setPc t pc).pairs = s.pairs := rfl
@[simp] theorem State.setPc_ports (s : State) (t : Nat) (pc : Word32) : (s.setPc t pc).ports = s.ports := rfl
@[simp] theorem State.setPc_porter (s : State) (t : Nat) (pc : Word32) : (s.setPc t pc).porter = s.porter := rfl
@[simp] theorem State.setPc_prompt (s : State) (t : Nat) (pc : Word32) : (s.setPc t pc).prompt = s.prompt := rfl
@[simp] theorem State.setPc_crier (s : State) (t : Nat) (pc : Word32) : (s.setPc t pc).crier = s.crier := rfl
@[simp] theorem State.setPc_funcs (s : State) (t : Nat) (pc : Word32) : (s.setPc t pc).funcs = s.funcs := rfl
@[simp] theorem State.setPc_vecs (s : State) (t : Nat) (pc : Word32) : (s.setPc t pc).vecs = s.vecs := rfl
@[simp] theorem State.setPc_hqs (s : State) (t : Nat) (pc : Word32) : (s.setPc t pc).hqs = s.hqs := rfl
@[simp] theorem State.setPc_link (s : State) (t : Nat) (pc : Word32) : (s.setPc t pc).link = s.link := rfl
@[simp] theorem State.setPc_tally (s : State) (t : Nat) (pc : Word32) : (s.setPc t pc).tally = s.tally := rfl
@[simp] theorem State.setPc_assay (s : State) (t : Nat) (pc : Word32) : (s.setPc t pc).assay = s.assay := rfl
@[simp] theorem State.setPc_bellows (s : State) (t : Nat) (pc : Word32) : (s.setPc t pc).bellows = s.bellows := rfl
@[simp] theorem State.setPc_arbs (s : State) (t : Nat) (pc : Word32) : (s.setPc t pc).arbs = s.arbs := rfl
@[simp] theorem State.setPc_power (s : State) (t : Nat) (pc : Word32) : (s.setPc t pc).power = s.power := rfl
@[simp] theorem State.setPc_fuses (s : State) (t : Nat) (pc : Word32) : (s.setPc t pc).fuses = s.fuses := rfl
@[simp] theorem State.setPc_boot (s : State) (t : Nat) (pc : Word32) : (s.setPc t pc).boot = s.boot := rfl
@[simp] theorem State.setPc_ledger (s : State) (t : Nat) (pc : Word32) : (s.setPc t pc).ledger = s.ledger := rfl
@[simp] theorem State.setPc_attar (s : State) (t : Nat) (pc : Word32) : (s.setPc t pc).attar = s.attar := rfl
@[simp] theorem State.setPc_tb (s : State) (t : Nat) (pc : Word32) : (s.setPc t pc).tb = s.tb := rfl
@[simp] theorem State.setPc_pins (s : State) (t : Nat) (pc : Word32) : (s.setPc t pc).pins = s.pins := rfl
@[simp] theorem State.setPc_emitted (s : State) (t : Nat) (pc : Word32) : (s.setPc t pc).emitted = s.emitted := rfl
@[simp] theorem State.setPc_freeCtr (s : State) (t : Nat) (pc : Word32) : (s.setPc t pc).freeCtr = s.freeCtr := rfl

@[simp] theorem State.setG_pending (s : State) (t : Nat) (r : RegNo) (v : Word) : (s.setG t r v).pending = s.pending := rfl
@[simp] theorem State.setG_mem (s : State) (t : Nat) (r : RegNo) (v : Word) : (s.setG t r v).mem = s.mem := rfl
@[simp] theorem State.setG_eccC (s : State) (t : Nat) (r : RegNo) (v : Word) : (s.setG t r v).eccC = s.eccC := rfl
@[simp] theorem State.setG_eccU (s : State) (t : Nat) (r : RegNo) (v : Word) : (s.setG t r v).eccU = s.eccU := rfl
@[simp] theorem State.setG_regs (s : State) (t : Nat) (r : RegNo) (v : Word) : (s.setG t r v).regs = s.regs := rfl
@[simp] theorem State.setG_eff (s : State) (t : Nat) (r : RegNo) (v : Word) : (s.setG t r v).eff = s.eff := rfl
@[simp] theorem State.setG_hold (s : State) (t : Nat) (r : RegNo) (v : Word) : (s.setG t r v).hold = s.hold := rfl
@[simp] theorem State.setG_snap (s : State) (t : Nat) (r : RegNo) (v : Word) : (s.setG t r v).snap = s.snap := rfl
@[simp] theorem State.setG_cores (s : State) (t : Nat) (r : RegNo) (v : Word) : (s.setG t r v).cores = s.cores := rfl
@[simp] theorem State.setG_caches (s : State) (t : Nat) (r : RegNo) (v : Word) : (s.setG t r v).caches = s.caches := rfl
@[simp] theorem State.setG_resvs (s : State) (t : Nat) (r : RegNo) (v : Word) : (s.setG t r v).resvs = s.resvs := rfl
@[simp] theorem State.setG_pairs (s : State) (t : Nat) (r : RegNo) (v : Word) : (s.setG t r v).pairs = s.pairs := rfl
@[simp] theorem State.setG_ports (s : State) (t : Nat) (r : RegNo) (v : Word) : (s.setG t r v).ports = s.ports := rfl
@[simp] theorem State.setG_porter (s : State) (t : Nat) (r : RegNo) (v : Word) : (s.setG t r v).porter = s.porter := rfl
@[simp] theorem State.setG_prompt (s : State) (t : Nat) (r : RegNo) (v : Word) : (s.setG t r v).prompt = s.prompt := rfl
@[simp] theorem State.setG_crier (s : State) (t : Nat) (r : RegNo) (v : Word) : (s.setG t r v).crier = s.crier := rfl
@[simp] theorem State.setG_funcs (s : State) (t : Nat) (r : RegNo) (v : Word) : (s.setG t r v).funcs = s.funcs := rfl
@[simp] theorem State.setG_vecs (s : State) (t : Nat) (r : RegNo) (v : Word) : (s.setG t r v).vecs = s.vecs := rfl
@[simp] theorem State.setG_hqs (s : State) (t : Nat) (r : RegNo) (v : Word) : (s.setG t r v).hqs = s.hqs := rfl
@[simp] theorem State.setG_link (s : State) (t : Nat) (r : RegNo) (v : Word) : (s.setG t r v).link = s.link := rfl
@[simp] theorem State.setG_tally (s : State) (t : Nat) (r : RegNo) (v : Word) : (s.setG t r v).tally = s.tally := rfl
@[simp] theorem State.setG_assay (s : State) (t : Nat) (r : RegNo) (v : Word) : (s.setG t r v).assay = s.assay := rfl
@[simp] theorem State.setG_bellows (s : State) (t : Nat) (r : RegNo) (v : Word) : (s.setG t r v).bellows = s.bellows := rfl
@[simp] theorem State.setG_arbs (s : State) (t : Nat) (r : RegNo) (v : Word) : (s.setG t r v).arbs = s.arbs := rfl
@[simp] theorem State.setG_power (s : State) (t : Nat) (r : RegNo) (v : Word) : (s.setG t r v).power = s.power := rfl
@[simp] theorem State.setG_fuses (s : State) (t : Nat) (r : RegNo) (v : Word) : (s.setG t r v).fuses = s.fuses := rfl
@[simp] theorem State.setG_boot (s : State) (t : Nat) (r : RegNo) (v : Word) : (s.setG t r v).boot = s.boot := rfl
@[simp] theorem State.setG_ledger (s : State) (t : Nat) (r : RegNo) (v : Word) : (s.setG t r v).ledger = s.ledger := rfl
@[simp] theorem State.setG_attar (s : State) (t : Nat) (r : RegNo) (v : Word) : (s.setG t r v).attar = s.attar := rfl
@[simp] theorem State.setG_tb (s : State) (t : Nat) (r : RegNo) (v : Word) : (s.setG t r v).tb = s.tb := rfl
@[simp] theorem State.setG_pins (s : State) (t : Nat) (r : RegNo) (v : Word) : (s.setG t r v).pins = s.pins := rfl
@[simp] theorem State.setG_emitted (s : State) (t : Nat) (r : RegNo) (v : Word) : (s.setG t r v).emitted = s.emitted := rfl
@[simp] theorem State.setG_freeCtr (s : State) (t : Nat) (r : RegNo) (v : Word) : (s.setG t r v).freeCtr = s.freeCtr := rfl

end Sys2Proof.Machine
end

