-- ==== Sys2Proof/Laws/Tables.lean ====
section
/-! SUPPORT. Laws of the sparse tables, of the bit fields of a register word, and of registers and fields under the
updates of `Ops.lean`. -/

namespace Sys2Proof.Machine

/-! ### Tables -/

theorem tblGet_tblPut_same {α : Type} (m : Tbl α) (n : Nat) (v : α) : tblGet (tblPut m n v) n = some v := by
  induction m with
  | nil => simp [tblPut, tblGet]
  | cons kv r ih =>
    obtain ⟨k, w⟩ := kv
    simp only [tblPut]
    split
    · simp [tblGet]
    · split
      · simp [tblGet]
      · simp [tblGet, *]

theorem tblGet_tblPut_other {α : Type} (m : Tbl α) {n k : Nat} (v : α) (h : k ≠ n) :
    tblGet (tblPut m n v) k = tblGet m k := by
  induction m with
  | nil => simp [tblPut, tblGet, Ne.symm h]
  | cons kv r ih =>
    obtain ⟨j, w⟩ := kv
    simp only [tblPut]
    split
    · simp [tblGet, Ne.symm h]
    · split
      · rename_i e
        subst e
        simp [tblGet, Ne.symm h]
      · simp [tblGet, ih]

theorem keysRise_tail {α : Type} {k : Nat} {w : α} {r : Tbl α} (h : keysRise ((k, w) :: r) = true) :
    keysRise r = true := by
  cases r with
  | nil => rfl
  | cons e r => exact (by simpa [keysRise] using h : _ ∧ _).2

theorem keysRise_cons {α : Type} {k : Nat} {w : α} {r : Tbl α} (h : keysRise r = true)
    (hk : ∀ j v r', r = (j, v) :: r' → k < j) : keysRise ((k, w) :: r) = true := by
  cases r with
  | nil => rfl
  | cons e r =>
    obtain ⟨j, v⟩ := e
    simp [keysRise, h, hk j v r rfl]

theorem tblPut_head {α : Type} (m : Tbl α) (n : Nat) (v : α) :
    ∃ j w r, tblPut m n v = (j, w) :: r ∧ (j = n ∨ ∃ w' r', m = (j, w') :: r') := by
  cases m with
  | nil => exact ⟨n, v, [], rfl, .inl rfl⟩
  | cons e r =>
    obtain ⟨k, w⟩ := e
    simp only [tblPut]
    split
    · exact ⟨n, v, _, rfl, .inl rfl⟩
    · split
      · exact ⟨n, v, _, rfl, .inl rfl⟩
      · exact ⟨k, w, _, rfl, .inr ⟨w, r, rfl⟩⟩

/-- Listing a value keeps a table's order. -/
theorem tblPut_sorted {α : Type} (m : Tbl α) (n : Nat) (v : α) (h : keysRise m = true) :
    keysRise (tblPut m n v) = true := by
  induction m with
  | nil => rfl
  | cons e r ih =>
    obtain ⟨k, w⟩ := e
    simp only [tblPut]
    split
    · exact keysRise_cons h (by rintro j v' r' hr; cases hr; assumption)
    · split
      · rename_i hk
        subst hk
        cases r with
        | nil => rfl
        | cons e r => simpa [keysRise] using h
      · refine keysRise_cons (ih (keysRise_tail h)) ?_
        intro j v' r' hr
        obtain ⟨j', w', r'', he, hj⟩ := tblPut_head r n v
        rw [he] at hr
        cases hr
        rcases hj with rfl | ⟨w'', r3, rfl⟩
        · omega
        · exact of_decide_eq_true (by simpa [keysRise] using h : _ ∧ _).1

/-! ### Bit fields -/

theorem bitsGet_lt (w : Word32) (lo n : Nat) : bitsGet w lo n < 2 ^ n := Nat.mod_lt _ (Nat.two_pow_pos n)

theorem nat_setField (w lo n v : Nat) :
    w - w / 2 ^ lo % 2 ^ n * 2 ^ lo + v % 2 ^ n * 2 ^ lo =
      w % 2 ^ lo + 2 ^ lo * (v % 2 ^ n + 2 ^ n * (w / 2 ^ (lo + n))) := by
  have h1 : w = w % 2 ^ lo + 2 ^ lo * (w / 2 ^ lo) := (Nat.mod_add_div _ _).symm
  have h2 : w / 2 ^ lo = w / 2 ^ lo % 2 ^ n + 2 ^ n * (w / 2 ^ lo / 2 ^ n) := (Nat.mod_add_div _ _).symm
  have h3 : w / 2 ^ lo / 2 ^ n = w / 2 ^ (lo + n) := by rw [Nat.div_div_eq_div_mul, Nat.pow_add]
  rw [h3] at h2
  generalize w / 2 ^ (lo + n) = q at *
  generalize w / 2 ^ lo % 2 ^ n = m at *
  generalize w % 2 ^ lo = l at *
  generalize v % 2 ^ n = x at *
  rw [h2] at h1
  rw [h1, Nat.mul_add, Nat.mul_add, Nat.mul_comm m (2 ^ lo), Nat.mul_comm x (2 ^ lo)]
  omega

theorem setField_lt {w lo n : Nat} (v : Nat) (hw : w < 2 ^ 32) (hn : lo + n ≤ 32) :
    w % 2 ^ lo + 2 ^ lo * (v % 2 ^ n + 2 ^ n * (w / 2 ^ (lo + n))) < 2 ^ 32 := by
  have hl : w % 2 ^ lo < 2 ^ lo := Nat.mod_lt _ (Nat.two_pow_pos _)
  have hv : v % 2 ^ n < 2 ^ n := Nat.mod_lt _ (Nat.two_pow_pos _)
  have hp : 2 ^ 32 = 2 ^ (lo + n) * 2 ^ (32 - (lo + n)) := by rw [← Nat.pow_add]; congr 1; omega
  have hq : w / 2 ^ (lo + n) < 2 ^ (32 - (lo + n)) := by
    rw [Nat.div_lt_iff_lt_mul (Nat.two_pow_pos _), Nat.mul_comm, ← hp]; exact hw
  generalize 2 ^ (32 - (lo + n)) = k at *
  generalize w / 2 ^ (lo + n) = q at *
  rw [hp, Nat.pow_add]
  generalize w % 2 ^ lo = l at *
  generalize v % 2 ^ n = x at *
  generalize 2 ^ lo = a at *
  generalize 2 ^ n = b at *
  have h1 : x + b * q < b * k := by
    calc x + b * q < b + b * q := by omega
      _ = b * (q + 1) := by rw [Nat.mul_add]; omega
      _ ≤ b * k := Nat.mul_le_mul_left _ hq
  calc l + a * (x + b * q) < a + a * (x + b * q) := by omega
    _ = a * (x + b * q + 1) := by rw [Nat.mul_add a (x + b * q) 1]; omega
    _ ≤ a * (b * k) := Nat.mul_le_mul_left _ h1
    _ = a * b * k := (Nat.mul_assoc _ _ _).symm

theorem bitsSet_toNat (w : Word32) {lo n : Nat} (v : Nat) (hn : lo + n ≤ 32) :
    (bitsSet w lo n v).toNat = w.toNat % 2 ^ lo + 2 ^ lo * (v % 2 ^ n + 2 ^ n * (w.toNat / 2 ^ (lo + n))) := by
  have h := setField_lt v w.isLt hn
  simp only [bitsSet, bitsGet, nat_setField, BitVec.toNat_ofNat]
  exact Nat.mod_eq_of_lt h

/-- A field reads back as it was set. -/
theorem bitsGet_bitsSet (w : Word32) {lo n : Nat} (v : Nat) (hn : lo + n ≤ 32) :
    bitsGet (bitsSet w lo n v) lo n = v % 2 ^ n := by
  rw [bitsGet, bitsSet_toNat w v hn, Nat.add_mul_div_left _ _ (Nat.two_pow_pos lo),
    Nat.div_eq_of_lt (Nat.mod_lt _ (Nat.two_pow_pos lo)), Nat.zero_add, Nat.add_mul_mod_self_left, Nat.mod_mod]

/-- Setting a field leaves a field above it alone. -/
theorem bitsGet_bitsSet_above (w : Word32) {lo n lo' m : Nat} (v : Nat) (hn : lo + n ≤ 32) (h : lo + n ≤ lo') :
    bitsGet (bitsSet w lo n v) lo' m = bitsGet w lo' m := by
  have e : ∀ x : Nat, x / 2 ^ lo' = x / 2 ^ (lo + n) / 2 ^ (lo' - (lo + n)) := by
    intro x
    rw [Nat.div_div_eq_div_mul, ← Nat.pow_add]
    congr 2
    omega
  have hd : (bitsSet w lo n v).toNat / 2 ^ (lo + n) = w.toNat / 2 ^ (lo + n) := by
    rw [bitsSet_toNat w v hn, Nat.pow_add, ← Nat.div_div_eq_div_mul, Nat.add_mul_div_left _ _ (Nat.two_pow_pos lo),
      Nat.div_eq_of_lt (Nat.mod_lt _ (Nat.two_pow_pos lo)), Nat.zero_add,
      Nat.add_mul_div_left _ _ (Nat.two_pow_pos n), Nat.div_eq_of_lt (Nat.mod_lt _ (Nat.two_pow_pos n)),
      Nat.zero_add]
  rw [bitsGet, bitsGet, e, e w.toNat, hd]

/-- Setting a field leaves a field below it alone. -/
theorem bitsGet_bitsSet_below (w : Word32) {lo n lo' m : Nat} (v : Nat) (hn : lo + n ≤ 32) (h : lo' + m ≤ lo) :
    bitsGet (bitsSet w lo n v) lo' m = bitsGet w lo' m := by
  have e : ∀ x : Nat, x / 2 ^ lo' % 2 ^ m = x % 2 ^ lo / 2 ^ lo' % 2 ^ m := by
    intro x
    have hp : 2 ^ lo = 2 ^ lo' * 2 ^ m * 2 ^ (lo - (lo' + m)) := by
      rw [← Nat.pow_add, ← Nat.pow_add]; congr 1; omega
    rw [hp, Nat.mul_assoc, Nat.mod_mul_right_div_self, Nat.mod_mul_right_mod]
  rw [bitsGet, bitsGet, e, e w.toNat, bitsSet_toNat w v hn, Nat.add_mul_mod_self_left, Nat.mod_mod]

/-! ### Registers and parts by number -/

@[simp] theorem State.reg_setReg_same (s : State) (a : Nat) (v : Word32) : (s.setReg a v).reg a = v := by
  simp [State.reg, State.setReg, tblGet_tblPut_same]

theorem State.reg_setReg_other (s : State) {a b : Nat} (v : Word32) (h : b ≠ a) : (s.setReg a v).reg b = s.reg b := by
  simp [State.reg, State.setReg, tblGet_tblPut_other _ _ h]

@[simp] theorem State.effReg_setEff_same (s : State) (a : Nat) (v : Word32) : (s.setEff a v).effReg a = v := by
  simp [State.effReg, State.setEff, tblGet_tblPut_same]

theorem State.effReg_setEff_other (s : State) {a b : Nat} (v : Word32) (h : b ≠ a) :
    (s.setEff a v).effReg b = s.effReg b := by
  simp [State.effReg, State.setEff, tblGet_tblPut_other _ _ h]

theorem State.reg_put_other (s : State) (f : FieldRef) (v off : Nat) {b : Nat} (h : b ≠ f.reg + off) :
    (s.put f v off).reg b = s.reg b := State.reg_setReg_other _ _ h

/-- A field that lies within its register reads back as the device set it. -/
theorem State.get_put_same (s : State) (f : FieldRef) (v off : Nat) (h : f.lo + f.width ≤ 32) :
    (s.put f v off).get f off = v % 2 ^ f.width := by
  simp [State.get, State.put, bitsGet_bitsSet _ _ h]

theorem State.get_put_other (s : State) (f g : FieldRef) (v off off' : Nat) (h : g.reg + off' ≠ f.reg + off) :
    (s.put f v off).get g off' = s.get g off' := by
  simp [State.get, State.reg_put_other s f v off h]

@[simp] theorem State.thr_setThr_same (s : State) (t : Nat) (x : Thread) : (s.setThr t x).thr t = x := by
  simp [State.thr, State.setThr, tblGet_tblPut_same]

theorem State.thr_setThr_other (s : State) {t u : Nat} (x : Thread) (h : u ≠ t) : (s.setThr t x).thr u = s.thr u := by
  simp [State.thr, State.setThr, tblGet_tblPut_other _ _ h]

@[simp] theorem State.thr_modThr_same (s : State) (t : Nat) (f : Thread → Thread) : (s.modThr t f).thr t = f (s.thr t) :=
  State.thr_setThr_same _ _ _

theorem State.thr_modThr_other (s : State) {t u : Nat} (f : Thread → Thread) (h : u ≠ t) :
    (s.modThr t f).thr u = s.thr u := State.thr_setThr_other _ _ h

@[simp] theorem State.core_setCore_same (s : State) (c : Nat) (x : Core) : (s.setCore c x).core c = x := by
  simp [State.core, State.setCore, tblGet_tblPut_same]

theorem State.core_setCore_other (s : State) {c d : Nat} (x : Core) (h : d ≠ c) :
    (s.setCore c x).core d = s.core d := by
  simp [State.core, State.setCore, tblGet_tblPut_other _ _ h]

@[simp] theorem State.pair_setPair_same (s : State) (p : Nat) (x : Pair) : (s.setPair p x).pair p = x := by
  simp [State.pair, State.setPair, tblGet_tblPut_same]

@[simp] theorem State.port_setPort_same (s : State) (p : Nat) (x : Port) : (s.setPort p x).port p = x := by
  simp [State.port, State.setPort, tblGet_tblPut_same]

@[simp] theorem State.hq_setHq_same (s : State) (q : Nat) (x : HQ) : (s.setHq q x).hq q = x := by
  simp [State.hq, State.setHq, tblGet_tblPut_same]

@[simp] theorem State.func_setFunc_same (s : State) (f : Nat) (x : Func) : (s.setFunc f x).func f = x := by
  simp [State.func, State.setFunc, tblGet_tblPut_same]

@[simp] theorem State.vec_setVec_same (s : State) (q : Nat) (x : Vec) : (s.setVec q x).vec q = x := by
  simp [State.vec, State.setVec, tblGet_tblPut_same]

/-! ### General registers -/

@[simp] theorem Thread.get_zero (th : Thread) : th.get 0 = 0 := by simp [Thread.get]

@[simp] theorem Thread.set_zero (th : Thread) (v : Word) : th.set 0 v = th := by simp [Thread.set]

theorem Thread.get_set_same (th : Thread) {r : RegNo} (v : Word) (h : r ≠ 0) : (th.set r v).get r = v := by
  unfold Thread.get Thread.set
  rw [if_neg h, if_neg h]
  exact Vector.getElem_set_self ..

theorem Thread.get_set_other (th : Thread) {r q : RegNo} (v : Word) (h : q ≠ r) : (th.set r v).get q = th.get q := by
  unfold Thread.get Thread.set
  split
  · rfl
  · split
    · rfl
    · have : r.toNat ≠ q.toNat := fun e => h (BitVec.eq_of_toNat_eq e.symm)
      simp only [Vector.get_eq_getElem]
      exact Vector.getElem_set_ne _ _ this

end Sys2Proof.Machine
end

