-- ==== Sys2Proof/Laws/Calm.lean ====
section
/-! SUPPORT. What the device leaves alone when it looks at itself after a command (`State.settle`), said once for each
operation on the way. -/

namespace Sys2Proof.Machine

/-- The registers that the device may write of itself after a command. -/
inductive SelfReg : Nat → Prop where
  | psSpare (k : Nat) (h : k < 2) : SelfReg (Reg.PS_SPARE + 4 * k)
  | psSub (k : Nat) (h : k < 16) : SelfReg (Reg.PS_SUB + 4 * k)
  | psSts : SelfReg Reg.PS_STS
  | psCond : SelfReg Reg.PS_COND
  | psCondlog : SelfReg Reg.PS_CONDLOG
  | psFallbk : SelfReg Reg.PS_FALLBK
  | atLoaded (k : Nat) (h : k < 2) : SelfReg (Reg.AT_LOADED + 4 * k)
  | atSts : SelfReg Reg.AT_STS
  | ptSts (p : Nat) (h : p < 8) : SelfReg (Reg.PT_STS + ptOff p)
  | ptPfctx (p : Nat) (h : p < 8) : SelfReg (Reg.PT_PFCTX + ptOff p)
  | poDropMbf : SelfReg Reg.PO_DROP_MBF
  | poDropDest : SelfReg Reg.PO_DROP_DEST
  | poDropP : SelfReg Reg.PO_DROP_P
  | hqCqpos (q : Nat) (h : q < 16384) : SelfReg (Reg.HQ_CQPOS + 32 * q)
  | tyLvl (p : Nat) (h : p < 4) : SelfReg (Reg.TY_LVL + 4 * p)
  | tyLost (p : Nat) (h : p < 4) : SelfReg (Reg.TY_LOST + 4 * p)
  | crWake : SelfReg Reg.CR_CNT_WAKE
  | crReroute : SelfReg Reg.CR_CNT_REROUTE
  | crMerge : SelfReg Reg.CR_CNT_MERGE
  | crHnote (f : Nat) (h : f < 8) : SelfReg (Reg.CR_HNOTE + 4 * f)
  | llSts : SelfReg Reg.LL_STS
  | llPmsts : SelfReg Reg.LL_PMSTS
  | llEvt : SelfReg Reg.LL_EVT

/-- The state `t` differs from `s` only in what the device does of itself after a command. -/
structure Calm (s t : State) : Prop where
  pending : t.pending = s.pending
  mem     : t.mem = s.mem
  eccC    : t.eccC = s.eccC
  eccU    : t.eccU = s.eccU
  reg     : ∀ a, ¬ SelfReg a → t.reg a = s.reg a
  eff     : ∀ a, (∀ k, k < 2 → a ≠ Reg.PS_SPARE + 4 * k) → t.effReg a = s.effReg a
  hold    : t.hold = s.hold
  snap    : t.snap = s.snap
  thr     : ∀ n, ∃ m, t.thr n = { s.thr n with mailbox := m }
  cores   : t.cores = s.cores
  caches  : t.caches = s.caches
  resvs   : t.resvs = s.resvs
  pairs   : t.pairs = s.pairs
  funcs   : t.funcs = s.funcs
  link    : ∃ l e, t.link = { s.link with held := l, exitAt := e }
  assay   : t.assay = s.assay
  bellows : t.bellows = s.bellows
  arbs    : t.arbs = s.arbs
  fuses   : t.fuses = s.fuses
  boot    : t.boot = s.boot
  ledger  : t.ledger = s.ledger
  tb      : t.tb = s.tb
  pins    : t.pins = s.pins

namespace Calm

theorem refl (s : State) : Calm s s where
  pending := rfl
  mem := rfl
  eccC := rfl
  eccU := rfl
  reg := fun _ _ => rfl
  eff := fun _ _ => rfl
  hold := rfl
  snap := rfl
  thr := fun n => ⟨(s.thr n).mailbox, rfl⟩
  cores := rfl
  caches := rfl
  resvs := rfl
  pairs := rfl
  funcs := rfl
  link := ⟨_, _, rfl⟩
  assay := rfl
  bellows := rfl
  arbs := rfl
  fuses := rfl
  boot := rfl
  ledger := rfl
  tb := rfl
  pins := rfl

theorem trans {s t u : State} (h : Calm s t) (k : Calm t u) : Calm s u where
  pending := k.pending.trans h.pending
  mem := k.mem.trans h.mem
  eccC := k.eccC.trans h.eccC
  eccU := k.eccU.trans h.eccU
  reg := fun a n => (k.reg a n).trans (h.reg a n)
  eff := fun a n => (k.eff a n).trans (h.eff a n)
  hold := k.hold.trans h.hold
  snap := k.snap.trans h.snap
  thr := fun n => by
    obtain ⟨m, hm⟩ := h.thr n
    obtain ⟨m', hm'⟩ := k.thr n
    exact ⟨m', by rw [hm', hm]⟩
  cores := k.cores.trans h.cores
  caches := k.caches.trans h.caches
  resvs := k.resvs.trans h.resvs
  pairs := k.pairs.trans h.pairs
  funcs := k.funcs.trans h.funcs
  link := by
    obtain ⟨_, _, e⟩ := h.link
    obtain ⟨l, x, e'⟩ := k.link
    exact ⟨l, x, by rw [e', e]⟩
  assay := k.assay.trans h.assay
  bellows := k.bellows.trans h.bellows
  arbs := k.arbs.trans h.arbs
  fuses := k.fuses.trans h.fuses
  boot := k.boot.trans h.boot
  ledger := k.ledger.trans h.ledger
  tb := k.tb.trans h.tb
  pins := k.pins.trans h.pins

/-- A change of the parts that a `Calm` change may touch freely. -/
theorem free {s t : State} (h : Calm s t) {t' : State}
    (e : t' = { t with
      ports := t'.ports, porter := t'.porter, prompt := t'.prompt, crier := t'.crier, vecs := t'.vecs, hqs := t'.hqs,
      tally := t'.tally, power := t'.power, attar := t'.attar, emitted := t'.emitted, freeCtr := t'.freeCtr }) : Calm s t' := by
  rw [e]
  exact { h with }

variable {s t : State}

theorem setReg (h : Calm s t) {a : Nat} (v : Word32) (ha : SelfReg a) : Calm s (t.setReg a v) :=
  { h with reg := fun b hb => (State.reg_setReg_other t v (by rintro rfl; exact hb ha)).trans (h.reg b hb) }

theorem put (h : Calm s t) (f : FieldRef) (v off : Nat) (ha : SelfReg (f.reg + off)) : Calm s (t.put f v off) :=
  h.setReg _ ha

theorem bump (h : Calm s t) (f : FieldRef) (n off : Nat) (ha : SelfReg (f.reg + off)) : Calm s (t.bump f n off) :=
  h.put f _ off ha

theorem setMailbox (h : Calm s t) (n : Nat) (f : List Header → List Header) :
    Calm s (t.modThr n (fun th => { th with mailbox := f th.mailbox })) :=
  h.trans { refl t with
    thr := fun k => by
      by_cases e : k = n
      · subst e
        exact ⟨f (t.thr k).mailbox, State.thr_modThr_same _ _ _⟩
      · exact ⟨(t.thr k).mailbox, State.thr_modThr_other _ _ e⟩ }

theorem ite (c : Prop) [Decidable c] {a b : State} (h : Calm s a) (k : Calm s b) : Calm s (if c then a else b) := by
  split
  · exact h
  · exact k

theorem foldl {α : Type} {f : State → α → State} (hf : ∀ u x, Calm s u → Calm s (f u x)) (l : List α) :
    ∀ u, Calm s u → Calm s (l.foldl f u) := by
  induction l with
  | nil => exact fun u h => h
  | cons x r ih => exact fun u h => ih _ (hf _ _ h)

theorem foldN_mem (h : Calm s t) {f : State → Nat → State} (l : List Nat)
    (hf : ∀ u x, x ∈ l → Calm s u → Calm s (f u x)) : Calm s (Machine.foldN t l f) := by
  unfold Machine.foldN
  induction l generalizing t with
  | nil => exact h
  | cons x r ih => exact ih (hf _ _ (List.mem_cons_self ..) h) (fun u y hy => hf u y (List.mem_cons_of_mem _ hy))

theorem foldN (h : Calm s t) {f : State → Nat → State} (hf : ∀ u x, Calm s u → Calm s (f u x)) (l : List Nat) :
    Calm s (Machine.foldN t l f) := foldl hf l t h

/-! ### Parts that may change freely -/

theorem setSrc (h : Calm s t) (k : Nat) (x : Src) : Calm s (t.setSrc k x) := h.free rfl
theorem emit (h : Calm s t) (e : Emit) : Calm s (t.emit e) := h.free rfl
theorem setVec (h : Calm s t) (q : Nat) (v : Vec) : Calm s (t.setVec q v) := h.free rfl
theorem modPower (h : Calm s t) (f : Power → Power) : Calm s (t.modPower f) := h.free rfl
theorem modPrompt (h : Calm s t) (f : Prompt → Prompt) : Calm s (t.modPrompt f) := h.free rfl
theorem modPorter (h : Calm s t) (f : Porter → Porter) : Calm s (t.modPorter f) := h.free rfl
theorem modCrier (h : Calm s t) (f : Crier → Crier) : Calm s (t.modCrier f) := h.free rfl
theorem modTally (h : Calm s t) (f : Tally → Tally) : Calm s (t.modTally f) := h.free rfl
theorem modAttar (h : Calm s t) (f : Attar → Attar) : Calm s (t.modAttar f) := h.free rfl
theorem modHq (h : Calm s t) (q : Nat) (f : HQ → HQ) : Calm s (t.modHq q f) := h.free rfl
theorem setPort (h : Calm s t) (p : Nat) (x : Port) : Calm s (t.setPort p x) := h.free rfl
theorem modPort (h : Calm s t) (p : Nat) (f : Port → Port) : Calm s (t.modPort p f) := h.free rfl
theorem setRing (h : Calm s t) (p : Nat) (r : SubRing) : Calm s (t.setRing p r) := h.free rfl
theorem askWake (h : Calm s t) (r : Nat) : Calm s (t.askWake r) := .ite _ (h.free rfl) h

theorem sendLink (h : Calm s t) (e : Emit) (n : Option Nat) : Calm s (t.sendLink e n) :=
  .ite _ (h.trans { refl t with link := ⟨_, _, rfl⟩ }) (h.emit e)

/-! ### The Crier -/

theorem msixSend (h : Calm s t) (q : Nat) : Calm s (t.msixSend q) := .ite _ (h.setVec ..) ((h.setVec ..).sendLink _ _)

theorem notice (h : Calm s t) (f : Nat) (b : FieldRef) (hb : b.reg = Reg.CR_HNOTE) (hf : f < 8) : Calm s (t.notice f b) :=
  (h.put b 1 (4 * f) (hb ▸ .crHnote f hf)).msixSend _

theorem devNotice (h : Calm s t) (src : Nat) : Calm s (t.devNotice src) := .ite _ (h.notice _ _ rfl (by decide)) h

theorem crierWake (h : Calm s t) (r : Nat) : Calm s (t.crierWake r) :=
  .ite _ h ((h.askWake r).bump _ _ _ .crWake)

theorem rescan (h : Calm s t) (k : Nat) : Calm s (t.rescan k) := by
  unfold State.rescan
  refine .ite _ h ?_
  have h2 : ∀ (x : Src) (c : Prop) [Decidable c],
      Calm s (if c then (t.setSrc k x).bump Fld.CR_CNT_REROUTE_COUNT else t.setSrc k x) :=
    fun x c _ => .ite _ ((h.setSrc k x).bump _ _ _ .crReroute) (h.setSrc k x)
  dsimp only
  split
  · exact .ite _ ((h2 _ _).crierWake _) (h2 _ _)
  · exact h2 _ _

theorem crierScan (h : Calm s t) : Calm s t.crierScan :=
  foldl (fun _ _ h => h.rescan _) _ _ (.ite _ h (h.modCrier _))

theorem countEvent (h : Calm s t) (k : Nat) : Calm s (t.countEvent k) := (h.setSrc ..).rescan _

theorem edge (h : Calm s t) (src : Nat) : Calm s (t.edge src) :=
  .ite _ h ((Calm.ite _ ((h.devNotice src).bump Fld.CR_CNT_MERGE_COUNT 1 0 .crMerge) (h.devNotice src)).countEvent _)

theorem withdraw (h : Calm s t) (k : Nat) : Calm s (t.withdraw k) := h.free rfl

theorem level (h : Calm s t) (k : Nat) (on : Bool) : Calm s (t.level k on) :=
  .ite _ h (.ite _ (.ite _ ((h.setSrc ..).devNotice _) (((h.setSrc ..).devNotice _).countEvent _))
    (.ite _ (h.setSrc ..) ((h.setSrc ..).withdraw _)))

theorem msgEvent (h : Calm s t) (n : Nat) : Calm s (t.msgEvent n) := .ite _ (h.setSrc ..) ((h.setSrc ..).countEvent _)

theorem msgRefresh (h : Calm s t) (n : Nat) : Calm s (t.msgRefresh n) := .ite _ h (h.level ..)

theorem setQue (h : Calm s t) (n : Nat) : Calm s (t.setQue n) :=
  msgEvent (t := { t with crier := { t.crier with que := setIns t.crier.que n } }) (h.free rfl) n

/-! ### The Tally ring -/

theorem ringLost (h : Calm s t) (p n : Nat) (hp : p < 4) : Calm s (t.ringLost p n) :=
  .ite _ h ((h.bump _ _ _ (.tyLost p hp)).edge _)

theorem ringDiscard (h : Calm s t) (p : Nat) (hp : p < 4) : Calm s (t.ringDiscard p) := by
  unfold State.ringDiscard
  exact (Calm.ite _ ((h.setRing ..).free rfl) (h.setRing ..)).ringLost _ _ hp

theorem ringItem (h : Calm s t) (p : Nat) (hp : p < 4) (extra : List (List Word32)) (it : List Word32) :
    Calm s (t.ringItem p extra it).1 := .ite _ (h.ringDiscard p hp) h

theorem ringItems (h : Calm s t) (p : Nat) (hp : p < 4) (its : List (List Word32)) : Calm s (t.ringItems p its) := by
  have hf : ∀ (l : List (List Word32)) (acc : State × List (List Word32)), Calm s acc.1 →
      Calm s (l.foldl (fun acc it => acc.1.ringItem p acc.2 it) acc).1 := by
    intro l
    induction l with
    | nil => exact fun _ h => h
    | cons x r ih => exact fun acc h => ih _ (h.ringItem p hp _ _)
  exact (((hf its (t, []) h).setRing ..).put _ _ _ (.tyLvl p hp)).level ..

theorem record (h : Calm s t) (ty n : Nat) (body : List Byte) : Calm s (t.record ty n body) :=
  .ite _ h (.ite _ (h.ringLost _ _ (Nat.mod_lt _ (by decide))) (h.ringItems _ (Nat.mod_lt _ (by decide)) _))

theorem histAdd (h : Calm s t) (k ns : Nat) : Calm s (t.histAdd k ns) := .ite _ (h.modTally _) h

/-! ### Prompt conditions -/

theorem setCond (h : Calm s t) (n : Nat) (on : Bool) : Calm s (t.setCond n on) := by
  have hp : ∀ v, Calm s (t.put Fld.PS_COND_COND v) := fun v => h.put _ _ _ .psCond
  have hl : ∀ v w, Calm s (((t.put Fld.PS_COND_COND v).put Fld.PS_CONDLOG_COND w).edge 2) :=
    fun v w => ((hp v).put _ _ _ .psCondlog).edge _
  unfold State.setCond
  dsimp only
  split
  · exact h
  · split
    · exact (hl _ _).record ..
    · exact (hp _).record ..

theorem condEvent (h : Calm s t) (n : Nat) : Calm s (t.condEvent n) :=
  .ite _ ((h.modPrompt _).setCond ..) (h.modPrompt _)

theorem fillPrompt (h : Calm s t) : Calm s t.fillPrompt := .ite _ h ((h.modPrompt _).modPrompt _)

theorem evalConds (h : Calm s t) : Calm s t.evalConds :=
  .ite _ (h.fillPrompt.foldN (fun _ _ h => .ite _ (h.setCond ..) (.ite _ h (h.setCond ..))) _)
    (h.foldN (fun _ _ h => h.setCond ..) _)

/-! ### Porter -/

theorem sendPfc (h : Calm s t) (p q : Nat) (hp : p < 8) : Calm s (t.sendPfc p q) :=
  ((Calm.ite _ (h.put Fld.PT_STS_LPI 0 (ptOff p) (.ptSts p hp)) h).bump _ _ _ (.ptPfctx p hp)).emit _

theorem pfcPort (h : Calm s t) (p : Nat) (hp : p < 8) : Calm s (t.pfcPort p) :=
  .ite _ (.ite _ ((h.setPort ..).put _ _ _ (.ptSts p hp))
      (.ite _ (((h.setPort ..).put _ _ _ (.ptSts p hp)).sendPfc _ _ hp) h))
    (.ite _ (((h.setPort ..).put _ _ _ (.ptSts p hp)).sendPfc _ _ hp) h)

theorem pfcUpdate (h : Calm s t) : Calm s t.pfcUpdate :=
  h.foldN_mem _ (fun _ _ hp h => h.pfcPort _ (List.mem_range.mp hp))

theorem purgeCells (h : Calm s t) : Calm s t.purgeCells := by
  refine .ite _ h (pfcUpdate (foldl (fun u x hu => ?_) _ _ (h.modPorter _)))
  split
  · exact hu.histAdd ..
  · exact hu

theorem freeFrame (h : Calm s t) (o : Nat) : Calm s (t.freeFrame o) := (h.modPorter _).purgeCells

theorem dropHeader (h : Calm s t) (x : Header) (f : FieldRef) (hf : SelfReg (f.reg + 0)) : Calm s (t.dropHeader x f) :=
  ((h.bump _ _ _ hf).modPorter _).freeFrame _

theorem postHeader (h : Calm s t) (n : Nat) (x : Header) : Calm s (t.postHeader n x) :=
  (h.setMailbox n (fun m => m ++ [x])).msgEvent _

theorem storeHeader (h : Calm s t) (n : Nat) (x : Header) : Calm s (t.storeHeader n x) := h.modPorter _

theorem toThread (h : Calm s t) (n : Nat) (x : Header) : Calm s (t.toThread n x) := by
  have h1 : Calm s (if t.gated (regionOfThread n) then t.askWake (regionOfThread n) else t) := .ite _ (h.askWake _) h
  exact .ite _ (h1.dropHeader _ _ .poDropMbf) (.ite _ (h1.storeHeader ..) (h1.postHeader ..))

theorem cqAllot (h : Calm s t) (q k : Nat) (hq : q < 16384) : Calm s (t.cqAllot q k).2 :=
  .ite _ ((h.put Fld.HQ_CQPOS_TAIL _ _ (.hqCqpos q hq)).modHq ..) (h.put Fld.HQ_CQPOS_TAIL _ _ (.hqCqpos q hq))

theorem destOf_queue {code q : Nat} (h : destOf code = .queue q) : q < 16384 := by
  unfold destOf at h
  dsimp only at h
  split at h <;> first | (split at h <;> first | (cases h; assumption) | cases h) | cases h

theorem deliver (fuel : Nat) : ∀ {t : State} (_ : Calm s t) (code : Nat) (x : Header), Calm s (State.deliver fuel t code x) := by
  induction fuel with
  | zero => exact fun h _ x => h.dropHeader _ _ .poDropDest
  | succ n ih =>
    intro t h code x
    unfold State.deliver
    split
    · exact h.dropHeader _ _ .poDropDest
    · exact .ite _ (h.toThread ..) (ih h _ _)
    · split
      · exact h.toThread ..
      · exact h.dropHeader _ _ .poDropDest
    · exact .ite _ ((h.dropHeader _ _ .poDropP).condEvent _) ((h.modPorter _).modPrompt _)
    · rename_i hq
      exact .ite _ (.ite _ ((h.cqAllot _ _ (destOf_queue hq)).modHq ..) ((h.dropHeader _ _ .poDropP).condEvent _))
        (.ite _ (h.modHq ..) (ih h _ _))

theorem toFallback (h : Calm s t) (m : PromptMsg) : Calm s (t.toFallback m) := (h.bump _ _ _ .psFallbk).deliver _ _ _

theorem redirectHeld (h : Calm s t) : Calm s t.redirectHeld :=
  .ite _ h (foldl (fun _ _ h => h.deliver _ _ _) _ _ (h.modPorter _))

theorem fallbackScan (h : Calm s t) : Calm s t.fallbackScan :=
  .ite _ h (foldl (fun _ _ h => h.toFallback _) _ _ (h.modPrompt _))

/-! ### Pairs, Attar copies, regions -/

theorem setSpare (h : Calm s t) (p : Nat) (on : Bool) (hp : p < 64) : Calm s (t.setSpare p on) :=
  (h.setReg (bitsSet (t.reg (Reg.PS_SPARE + 4 * (p / 32))) (p % 32) 1 (b2n on)) (.psSpare (p / 32) (by omega))).trans
    { refl _ with eff := fun _ ha => State.effReg_setEff_other _ _ (ha (p / 32) (by omega)) }

theorem setSub (h : Calm s t) (p q : Nat) (hp : p < 64) : Calm s (t.setSub p q) :=
  h.setReg _ (.psSub (p / 4) (by omega))

theorem substituteOne (h : Calm s t) (p : Nat) (hp : p < 64) : Calm s (t.substituteOne p) := by
  unfold State.substituteOne
  split
  · rename_i q hq
    exact (h.setSpare _ _ (List.mem_range.mp (List.mem_of_find?_eq_some hq))).setSub _ _ hp
  · exact h

theorem substitute (h : Calm s t) (x : Nat) : Calm s (t.substitute x) :=
  h.foldN_mem _ (fun _ _ hp h => h.substituteOne _ (List.mem_range.mp (List.mem_filter.mp hp).1))

theorem subScan (h : Calm s t) : Calm s t.subScan :=
  .ite _ (h.foldN_mem _ (fun _ _ hp h => .ite _ (h.substituteOne _ (List.mem_range.mp hp)) h)) h

theorem reloadBusy (h : Calm s t) : Calm s t.reloadBusy := h.put _ _ _ .atSts

theorem setLoaded (h : Calm s t) (cl : Nat) (on : Bool) : Calm s (t.setLoaded cl on) :=
  h.setReg _ (.atLoaded _ (Nat.mod_lt _ (by decide)))

theorem readMaster (h : Calm s t) : Calm s t.readMaster := h.free rfl

theorem copyPump (h : Calm s t) : Calm s t.copyPump := by
  have hb : ∀ u, Calm s u → Calm s (((u.put Fld.AT_STS_MERR 1).modAttar (fun x => { x with
      todo := x.todo.filter (fun e => decide (1 < u.pstate (e.1 / 8))) })).reloadBusy) :=
    fun u hu => ((hu.put _ _ _ .atSts).modAttar _).reloadBusy
  unfold State.copyPump
  refine .ite _ h ?_
  split
  · exact h
  · rename_i cl why _ _
    have hk : Calm s (if t.meteredRole then Machine.foldN t (clusterPairs cl) State.substitute else t) :=
      .ite _ (h.foldN (fun _ _ h => h.substitute _) _) h
    refine .ite _ (((h.put _ _ _ .atSts).modAttar _).reloadBusy) (.ite _ ((h.modAttar _).reloadBusy) ?_)
    dsimp only
    exact .ite _ (.ite _ (((hk.readMaster.put _ _ _ .atSts).modAttar _).reloadBusy)
      (((hk.readMaster.modAttar _).setLoaded _ _).reloadBusy)) hk

theorem runStop (h : Calm s t) : Calm s t.runStop := .ite _ (h.put _ _ _ .psSts) h

theorem noteQuiet (h : Calm s t) : Calm s t.noteQuiet :=
  h.foldN (fun _ _ h => .ite _ (.ite _ h (h.modPower _)) (.ite _ (h.modPower _) h)) _

theorem pmBusy (h : Calm s t) : Calm s t.pmBusy := h.put _ _ _ .llPmsts

theorem pmEmit (h : Calm s t) (x : PmTxn) : Calm s (t.pmEmit x) := .ite _ (h.emit _) h

theorem pmNext (h : Calm s t) : Calm s t.pmNext := by
  unfold State.pmNext
  refine .ite _ h.pmBusy ?_
  split
  · exact ((h.modPower _).pmEmit _).pmBusy
  · exact ((h.modPower _).pmEmit _).pmBusy
  · exact h.pmBusy

theorem railSeq (h : Calm s t) (xs : List PmTxn) : Calm s (t.railSeq xs) := .ite _ (h.modPower _).pmNext h

theorem evalBanked (h : Calm s t) : Calm s t.evalBanked :=
  .ite _ (((h.put _ _ _ .llSts).modPower _).railSeq _) (.ite _ (((h.put _ _ _ .llSts).modPower _).railSeq _) h)

theorem lampEvent (h : Calm s t) (c : Nat) : Calm s (t.lampEvent c) := by
  have h1 := (h.put Fld.LL_EVT_CODE c 0 .llEvt).bump Fld.LL_EVT_COUNT 1 0 .llEvt
  have h2 : ∀ (c' : Prop) [Decidable c'], Calm s (if c' then ((t.put Fld.LL_EVT_CODE c).bump Fld.LL_EVT_COUNT).edge 23
      else (t.put Fld.LL_EVT_CODE c).bump Fld.LL_EVT_COUNT) := fun _ _ => .ite _ (h1.edge _) h1
  exact .ite _ ((h2 _).emit _) (h2 _)

/-! ### After a command -/

/-- What Safe Hold's beginning does beside its status bits. -/
theorem holdOn (t : State) (c : Nat) :
    Calm (((t.modAssay (fun x => { x with entering := none })).put Fld.AS_STS_HOLD 1).put Fld.AS_STS_HCAUSE c)
      (t.holdOn c) := (((Calm.refl _).edge 1).msixSend 0).lampEvent 5

/-- What follows Safe Hold's beginning in the device's look at itself. -/
theorem settleRest (t : State) : Calm t.holdFinish t.settle := by
  unfold State.settle
  generalize t.holdFinish = u
  have h1 := (Calm.refl u).subScan.copyPump.runStop
  have h2 := h1.fallbackScan.redirectHeld.pfcUpdate
  have h3 := h2.evalConds
  have h4 := h3.crierScan
  exact h4.noteQuiet.evalBanked

/-- What the device does of itself after a command leaves everything else alone, where no Safe Hold is being entered. -/
theorem settle (h : Calm s t) (e : t.assay.entering = none) : Calm s t.settle := by
  have hf : t.holdFinish = t := by unfold State.holdFinish; rw [e]
  have hr := settleRest t
  rw [hf] at hr
  exact h.trans hr

end Calm

end Sys2Proof.Machine
end

