-- ==== Sys2Proof/Laws/Memory.lean ====
section
/-! SUPPORT. Laws of memory: what a read finds after a write, and the canonical form, which every memory operation
keeps. -/

namespace Sys2Proof.Machine

/-! ### One byte -/

theorem memWf_tail {k : Nat} {v : Byte} {r : List Host.Cell} (h : memWf ((k, v) :: r) = true) : memWf r = true := by
  cases r with
  | nil => rfl
  | cons e r => exact (by simpa [memWf] using h : _ ∧ _).2

/-- In canonical form no byte below the first entry is listed. -/
theorem memGet_below (m : List Host.Cell) (a : Nat) (h : memWf m = true) (ha : ∀ k v r, m = (k, v) :: r → a < k) :
    memGet m a = 0 := by
  induction m with
  | nil => rfl
  | cons e r ih =>
    obtain ⟨k, v⟩ := e
    have hk := ha k v r rfl
    rw [memGet, if_neg (by omega)]
    refine ih (memWf_tail h) ?_
    intro k' v' r' hr
    subst hr
    have := (by simpa [memWf] using h : (k < k' ∧ _) ∧ _).1.1
    omega

/-- A byte reads back as it was written. -/
theorem memGet_memPut_same (m : List Host.Cell) (a : Nat) (b : Byte) (h : memWf m = true) :
    memGet (memPut m a b) a = b := by
  induction m with
  | nil =>
    simp only [memPut]
    split
    · rename_i e; simp [memGet, e]
    · simp [memGet]
  | cons e r ih =>
    obtain ⟨k, v⟩ := e
    simp only [memPut]
    split
    · rename_i hk
      split
      · rename_i hb
        rw [hb]
        exact memGet_below _ _ h (by rintro k' v' r' hr; cases hr; exact hk)
      · simp [memGet]
    · split
      · rename_i hk
        subst hk
        split
        · rename_i hb
          rw [hb]
          refine memGet_below _ _ (memWf_tail h) ?_
          intro k' v' r' hr
          subst hr
          exact (by simpa [memWf] using h : (k < k' ∧ _) ∧ _).1.1
        · simp [memGet]
      · rename_i hk
        rw [memGet, if_neg hk]
        exact ih (memWf_tail h)

/-- A write leaves every other byte alone. -/
theorem memGet_memPut_other (m : List Host.Cell) {a x : Nat} (b : Byte) (hx : x ≠ a) :
    memGet (memPut m a b) x = memGet m x := by
  induction m with
  | nil =>
    simp only [memPut]
    split
    · rfl
    · simp [memGet, Ne.symm hx]
  | cons e r ih =>
    obtain ⟨k, v⟩ := e
    simp only [memPut]
    split
    · split
      · rfl
      · simp [memGet, Ne.symm hx]
    · split
      · rename_i hk
        subst hk
        split
        · simp [memGet, Ne.symm hx]
        · simp [memGet, Ne.symm hx]
      · simp [memGet, ih]

/-- Canonical form, entry by entry. -/
theorem memWf_cons_iff (k : Nat) (v : Byte) (r : List Host.Cell) :
    memWf ((k, v) :: r) = true ↔ v ≠ 0 ∧ (∀ e ∈ r, k < e.1) ∧ memWf r = true := by
  induction r generalizing k v with
  | nil => simp only [memWf]; exact ⟨fun h => ⟨bne_iff_ne.mp h, by simp, trivial⟩, fun h => bne_iff_ne.mpr h.1⟩
  | cons e r ih =>
    obtain ⟨j, w⟩ := e
    simp only [memWf, Bool.and_eq_true, decide_eq_true_eq, bne_iff_ne]
    constructor
    · rintro ⟨⟨hk, hv⟩, h⟩
      refine ⟨hv, ?_, h⟩
      rintro e he
      rcases List.mem_cons.mp he with rfl | he
      · exact hk
      · exact Nat.lt_trans hk (((ih j w).mp h).2.1 e he)
    · rintro ⟨hv, hk, h⟩
      exact ⟨⟨hk _ (List.mem_cons_self ..), hv⟩, h⟩

/-- A write lists no address but its own that was not listed. -/
theorem memPut_mem (m : List Host.Cell) (a : Nat) (b : Byte) (e : Host.Cell) (h : e ∈ memPut m a b) :
    e.1 = a ∨ e ∈ m := by
  induction m with
  | nil =>
    simp only [memPut] at h
    split at h
    · cases h
    · rw [List.mem_singleton.mp h]; exact .inl rfl
  | cons x r ih =>
    obtain ⟨k, v⟩ := x
    simp only [memPut] at h
    split at h
    · split at h
      · exact .inr h
      · rcases List.mem_cons.mp h with rfl | h
        · exact .inl rfl
        · exact .inr h
    · split at h
      · split at h
        · exact .inr (List.mem_cons_of_mem _ h)
        · rcases List.mem_cons.mp h with rfl | h
          · exact .inl rfl
          · exact .inr (List.mem_cons_of_mem _ h)
      · rcases List.mem_cons.mp h with rfl | h
        · exact .inr (List.mem_cons_self ..)
        · exact (ih h).imp id (List.mem_cons_of_mem _)

/-- A write keeps the canonical form. -/
theorem memPut_wf (m : List Host.Cell) (a : Nat) (b : Byte) (h : memWf m = true) : memWf (memPut m a b) = true := by
  induction m with
  | nil =>
    simp only [memPut]
    split
    · rfl
    · rename_i hb; exact bne_iff_ne.mpr hb
  | cons e r ih =>
    obtain ⟨k, v⟩ := e
    obtain ⟨hv, hk, hr⟩ := (memWf_cons_iff k v r).mp h
    simp only [memPut]
    split
    · rename_i ha
      split
      · exact h
      · rename_i hb
        refine (memWf_cons_iff _ _ _).mpr ⟨hb, ?_, h⟩
        intro e he
        rcases List.mem_cons.mp he with rfl | he
        · exact ha
        · exact Nat.lt_trans ha (hk e he)
    · split
      · rename_i e
        subst e
        split
        · exact hr
        · rename_i hb; exact (memWf_cons_iff _ _ _).mpr ⟨hb, hk, hr⟩
      · refine (memWf_cons_iff _ _ _).mpr ⟨hv, ?_, ih hr⟩
        intro e he
        rcases memPut_mem _ _ _ _ he with h1 | h1
        · omega
        · exact hk e h1

/-! ### Bytes in a row -/

/-- Writing bytes in a row keeps the canonical form. -/
theorem memPutAll_wf (bs : List Byte) : ∀ (m : List Host.Cell) (a : Nat), memWf m = true →
    memWf (memPutAll m a bs) = true := by
  induction bs with
  | nil => exact fun m a h => h
  | cons b r ih => exact fun m a h => ih _ _ (memPut_wf m a b h)

/-- Writing bytes in a row leaves every other byte alone. -/
theorem memGet_memPutAll_outside (bs : List Byte) : ∀ (m : List Host.Cell) (a x : Nat),
    (x < a ∨ a + bs.length ≤ x) → memGet (memPutAll m a bs) x = memGet m x := by
  induction bs with
  | nil => exact fun m a x _ => rfl
  | cons b r ih =>
    intro m a x h
    simp only [List.length_cons] at h
    rw [memPutAll, ih _ _ _ (by omega), memGet_memPut_other _ _ (by omega)]

/-- Each byte of a row reads back as it was written. -/
theorem memGet_memPutAll_inside (bs : List Byte) : ∀ (m : List Host.Cell) (a i : Nat) (hi : i < bs.length),
    memWf m = true → memGet (memPutAll m a bs) (a + i) = bs[i] := by
  induction bs with
  | nil => exact fun m a i hi _ => absurd hi (Nat.not_lt_zero _)
  | cons b r ih =>
    intro m a i hi hw
    cases i with
    | zero =>
      rw [memPutAll, memGet_memPutAll_outside _ _ _ _ (by omega), Nat.add_zero, memGet_memPut_same _ _ _ hw]
      rfl
    | succ i =>
      rw [memPutAll, show a + (i + 1) = a + 1 + i by omega,
        ih (memPut m a b) (a + 1) i (by simpa using hi) (memPut_wf m a b hw)]
      rfl

/-- What `bytes` reads, byte by byte. -/
theorem State.bytes_eq (s : State) (a n : Nat) : s.bytes a n = (List.range n).map (fun i => s.byte (a + i)) := by
  induction n generalizing a with
  | zero => rfl
  | succ n ih =>
    rw [State.bytes, ih, List.range_succ_eq_map, List.map_cons, List.map_map]
    congr 1
    exact List.map_congr_left (fun i _ => by rw [Function.comp, show a + 1 + i = a + Nat.succ i by omega])

@[simp] theorem State.bytes_length (s : State) (a n : Nat) : (s.bytes a n).length = n := by simp [State.bytes_eq]

@[simp] theorem leBytes_length (n v : Nat) : (leBytes n v).length = n := by
  induction n generalizing v with
  | zero => rfl
  | succ n ih => simp [leBytes, ih]

/-- The number that the low bytes of a number spell. -/
theorem leNat_leBytes (n v : Nat) : leNat (leBytes n v) = v % 256 ^ n := by
  induction n generalizing v with
  | zero => simp [leBytes, leNat, Nat.mod_one]
  | succ n ih =>
    rw [leBytes, leNat, ih, BitVec.toNat_ofNat, show 256 ^ (n + 1) = 256 * 256 ^ n by rw [Nat.pow_succ, Nat.mul_comm],
      Nat.mod_mul]

/-! ### The store operation -/

@[simp] theorem State.noteStore_mem (s : State) (who : Option Nat) (g : Nat) : (s.noteStore who g).mem = s.mem := rfl

theorem noteStores_mem (gs : List Nat) (who : Option Nat) : ∀ s : State,
    (gs.foldl (fun s g => s.noteStore who g) s).mem = s.mem := by
  induction gs with
  | nil => exact fun s => rfl
  | cons g r ih => exact fun s => (ih _).trans rfl

/-- A store writes its bytes and no other. -/
theorem State.store_mem (s : State) (who : Option Nat) (a : Nat) (bs : List Byte) :
    (s.store who a bs).mem = memPutAll s.mem a bs := by
  rw [State.store, noteStores_mem]

/-- A store keeps the canonical form of memory. -/
theorem State.store_wf (s : State) (who : Option Nat) (a : Nat) (bs : List Byte) (h : Memory.wf s.mem) :
    Memory.wf (s.store who a bs).mem := by
  rw [Memory.wf, State.store_mem]
  exact memPutAll_wf bs _ _ h

theorem State.store_byte_outside (s : State) (who : Option Nat) (a x : Nat) (bs : List Byte)
    (h : x < a ∨ a + bs.length ≤ x) : (s.store who a bs).byte x = s.byte x := by
  rw [State.byte, State.store_mem, memGet_memPutAll_outside _ _ _ _ h, State.byte]

/-- What was stored reads back. -/
theorem State.store_bytes (s : State) (who : Option Nat) (a : Nat) (bs : List Byte) (h : Memory.wf s.mem) :
    (s.store who a bs).bytes a bs.length = bs := by
  rw [State.bytes_eq]
  refine List.ext_getElem (by simp) ?_
  intro i h1 h2
  rw [List.getElem_map, List.getElem_range, State.byte, State.store_mem, memGet_memPutAll_inside _ _ _ _ h2 h]

/-- State after reset lists no byte, which is the canonical form. -/
theorem reset_mem_wf : Memory.wf State.reset.mem := rfl

end Sys2Proof.Machine
end

