-- ==== Sys2Proof/Laws/Steady.lean ====
section
/-! SUPPORT. What the Accord's checks and a report to the Assay leave alone, said once for each operation on the way. -/

namespace Sys2Proof.Machine

/-- The state `t` differs from `s` in nothing that a word computes with: memory, the threads' registers, reservations,
the Timebase and the parts that no report touches are the same. -/
structure Steady (s t : State) : Prop where
  pending : t.pending = s.pending
  mem     : t.mem = s.mem
  eccC    : t.eccC = s.eccC
  eccU    : t.eccU = s.eccU
  hold    : t.hold = s.hold
  snap    : t.snap = s.snap
  thr     : ∀ n, ∃ m c x r, t.thr n = { s.thr n with mailbox := m, cur := c, tstate := x, resume := r }
  resvs   : t.resvs = s.resvs
  funcs   : t.funcs = s.funcs
  link    : ∃ l e, t.link = { s.link with held := l, exitAt := e }
  bellows : t.bellows = s.bellows
  arbs    : t.arbs = s.arbs
  fuses   : t.fuses = s.fuses
  boot    : t.boot = s.boot
  ledger  : t.ledger = s.ledger
  tb      : t.tb = s.tb
  pins    : t.pins = s.pins

namespace Steady

theorem refl (s : State) : Steady s s where
  pending := rfl
  mem := rfl
  eccC := rfl
  eccU := rfl
  hold := rfl
  snap := rfl
  thr := fun _ => ⟨_, _, _, _, rfl⟩
  resvs := rfl
  funcs := rfl
  link := ⟨_, _, rfl⟩
  bellows := rfl
  arbs := rfl
  fuses := rfl
  boot := rfl
  ledger := rfl
  tb := rfl
  pins := rfl

theorem trans {s t u : State} (h : Steady s t) (k : Steady t u) : Steady s u where
  pending := k.pending.trans h.pending
  mem := k.mem.trans h.mem
  eccC := k.eccC.trans h.eccC
  eccU := k.eccU.trans h.eccU
  hold := k.hold.trans h.hold
  snap := k.snap.trans h.snap
  thr := fun n => by
    obtain ⟨_, _, _, _, e⟩ := h.thr n
    obtain ⟨m, c, x, r, e'⟩ := k.thr n
    exact ⟨m, c, x, r, by rw [e', e]⟩
  resvs := k.resvs.trans h.resvs
  funcs := k.funcs.trans h.funcs
  link := by
    obtain ⟨_, _, e⟩ := h.link
    obtain ⟨l, x, e'⟩ := k.link
    exact ⟨l, x, by rw [e', e]⟩
  bellows := k.bellows.trans h.bellows
  arbs := k.arbs.trans h.arbs
  fuses := k.fuses.trans h.fuses
  boot := k.boot.trans h.boot
  ledger := k.ledger.trans h.ledger
  tb := k.tb.trans h.tb
  pins := k.pins.trans h.pins

theorem ofCalm {s t : State} (h : Calm s t) : Steady s t where
  pending := h.pending
  mem := h.mem
  eccC := h.eccC
  eccU := h.eccU
  hold := h.hold
  snap := h.snap
  thr := fun n => by
    obtain ⟨m, e⟩ := h.thr n
    exact ⟨m, _, _, _, e⟩
  resvs := h.resvs
  funcs := h.funcs
  link := h.link
  bellows := h.bellows
  arbs := h.arbs
  fuses := h.fuses
  boot := h.boot
  ledger := h.ledger
  tb := h.tb
  pins := h.pins

/-- A change of the parts that a `Steady` change may touch freely. -/
theorem free {s t : State} (h : Steady s t) {t' : State}
    (e : t' = { t with
      regs := t'.regs, eff := t'.eff, cores := t'.cores, pairs := t'.pairs, ports := t'.ports, porter := t'.porter,
      prompt := t'.prompt, crier := t'.crier, vecs := t'.vecs, hqs := t'.hqs, tally := t'.tally, assay := t'.assay,
      power := t'.power, attar := t'.attar, emitted := t'.emitted, freeCtr := t'.freeCtr }) : Steady s t' := by
  rw [e]
  exact { h with }

variable {s t : State}

theorem calm (h : Steady s t) {u : State} (k : Calm t u) : Steady s u := h.trans (ofCalm k)

theorem ite (c : Prop) [Decidable c] {a b : State} (h : Steady s a) (k : Steady s b) : Steady s (if c then a else b) := by
  split
  · exact h
  · exact k

theorem foldl {α : Type} {f : State → α → State} (hf : ∀ u x, Steady s u → Steady s (f u x)) (l : List α) :
    ∀ u, Steady s u → Steady s (l.foldl f u) := by
  induction l with
  | nil => exact fun u h => h
  | cons x r ih => exact fun u h => ih _ (hf _ _ h)

theorem foldN (h : Steady s t) {f : State → Nat → State} (hf : ∀ u x, Steady s u → Steady s (f u x)) (l : List Nat) :
    Steady s (Machine.foldN t l f) := foldl hf l t h

theorem setReg (h : Steady s t) (a : Nat) (v : Word32) : Steady s (t.setReg a v) := h.free rfl
theorem put (h : Steady s t) (f : FieldRef) (v off : Nat) : Steady s (t.put f v off) := h.free rfl
theorem bump (h : Steady s t) (f : FieldRef) (n off : Nat) : Steady s (t.bump f n off) := h.free rfl
theorem modAssay (h : Steady s t) (f : Assay → Assay) : Steady s (t.modAssay f) := h.free rfl
theorem modCore (h : Steady s t) (c : Nat) (f : Core → Core) : Steady s (t.modCore c f) := h.free rfl
theorem modPair (h : Steady s t) (p : Nat) (f : Pair → Pair) : Steady s (t.modPair p f) := h.free rfl
theorem setPair (h : Steady s t) (p : Nat) (x : Pair) : Steady s (t.setPair p x) := h.free rfl
theorem edge (h : Steady s t) (src : Nat) : Steady s (t.edge src) := h.calm ((Calm.refl t).edge src)
theorem level (h : Steady s t) (k : Nat) (on : Bool) : Steady s (t.level k on) := h.calm ((Calm.refl t).level k on)
theorem record (h : Steady s t) (ty n : Nat) (b : List Byte) : Steady s (t.record ty n b) :=
  h.calm ((Calm.refl t).record ty n b)

/-- A change of what a thread holds beside its registers. -/
theorem modThr (h : Steady s t) (k : Nat) (f : Thread → Thread)
    (hf : ∀ th, ∃ m c x r, f th = { th with mailbox := m, cur := c, tstate := x, resume := r }) :
    Steady s (t.modThr k f) :=
  h.trans { refl t with
    thr := fun n => by
      by_cases e : n = k
      · subst e
        obtain ⟨m, c, x, r, e⟩ := hf (t.thr n)
        exact ⟨m, c, x, r, (State.thr_modThr_same _ _ _).trans e⟩
      · exact ⟨_, _, _, _, State.thr_modThr_other _ _ e⟩ }

/-! ### Safe Hold -/

theorem haltRefresh (h : Steady s t) (cl : Nat) : Steady s (t.haltRefresh cl) := h.level ..

theorem holdPair (h : Steady s t) (p : Nat) : Steady s (t.holdPair p) := by
  have hf := foldl (s := s) (f := fun (s : State) c =>
      ((s.modCore c (fun k => { k with cbuf := [], scHit := [], beats := 0, late := 0, doneAt := none })).modThr (4 * c)
        (fun th => { th with tstate := .meteredIdle, cur := none })).haltRefresh (c / 8))
    (fun u c hu => ((hu.modCore _ _).modThr _ _ (fun _ => ⟨_, _, _, _, rfl⟩)).haltRefresh _)
    [(pairCores p).1, (pairCores p).2] t h
  unfold State.holdPair
  dsimp only
  split
  · split
    · exact (hf.setPair ..).free rfl
    · exact hf.setPair ..
  · split
    · exact (hf.setPair ..).free rfl
    · exact hf.setPair ..
  · split
    · exact (hf.setPair ..).free rfl
    · exact hf.setPair ..
  · exact h

theorem holdOn (h : Steady s t) (c : Nat) : Steady s (t.holdOn c) := (((h.modAssay _).put ..).put ..).calm (Calm.holdOn t c)

theorem holdFinish (h : Steady s t) : Steady s t.holdFinish := by
  unfold State.holdFinish
  split
  · exact .ite _ h (h.holdOn _)
  · exact h

theorem enterHold (h : Steady s t) (u c : Nat) : Steady s (t.enterHold u c) :=
  .ite _ h (((h.foldN (fun _ _ h => h.holdPair _) _).modAssay _).holdFinish)

/-- The device's look at itself after a command changes nothing that a word computes with. -/
theorem settle (h : Steady s t) : Steady s t.settle := h.holdFinish.calm (Calm.settleRest t)

/-! ### Verdicts and reports -/

theorem logPut (h : Steady s t) (k : Nat) (f : FieldRef) (v : Nat) : Steady s (t.logPut k f v) := .ite _ (h.put ..) h

theorem logDone (h : Steady s t) (k : Nat) : Steady s (t.logDone k) := h.logPut ..

theorem giveVerdict (h : Steady s t) (f : FaultRec) (v : Nat) : Steady s (t.giveVerdict f v) := (h.logPut ..).record ..

theorem logEntry (h : Steady s t) (u c d : Nat) (b : Bool) : Steady s (t.logEntry u c d b).2 := by
  unfold State.logEntry
  dsimp only
  exact ((Steady.bump (((((((h.setReg _ _).setReg _ _).setReg _ _).setReg _ _).put _ _ _)).modAssay _) _ _ _).edge _).record _ _ _

theorem holdCores (h : Steady s t) (u : Nat) (on : Bool) : Steady s (t.holdCores u on) :=
  h.foldN (fun _ _ h => h.modCore _ _) _

theorem lasting (h : Steady s t) (f : FaultRec) : Steady s (t.lasting f) := by
  have h1 := (h.bump Fld.AS_CNT_LAST_COUNT 1 0).modAssay (fun x => { x with faults := markFault x.faults f.unit 2 })
  unfold State.lasting
  dsimp only
  generalize State.modAssay (t.bump Fld.AS_CNT_LAST_COUNT) _ = u at h1 ⊢
  have h2 := fun v => h1.giveVerdict f v
  have h3 : ∀ v (c : Prop) [Decidable c], Steady s (if c then (u.giveVerdict f v).logDone f.log
      else ((u.giveVerdict f v).modAssay (fun x => { x with retiring := x.retiring ++ [f] })).holdCores f.unit true) :=
    fun v c _ => .ite _ ((h2 v).logDone _) (((h2 v).modAssay _).holdCores _ _)
  have h4 : ∀ v (c d : Prop) [Decidable c] [Decidable d], Steady s (if d then
      (if c then (u.giveVerdict f v).logDone f.log
        else ((u.giveVerdict f v).modAssay (fun x => { x with retiring := x.retiring ++ [f] })).holdCores f.unit true).put Fld.AS_STS_TWOLAST 1
      else (if c then (u.giveVerdict f v).logDone f.log
        else ((u.giveVerdict f v).modAssay (fun x => { x with retiring := x.retiring ++ [f] })).holdCores f.unit true)) :=
    fun v c d _ _ => .ite _ ((h3 v c).put ..) (h3 v c)
  exact .ite _ ((h4 ..).enterHold ..) (.ite _ ((h4 ..).enterHold ..) (.ite _ ((h4 ..).enterHold ..) (h4 ..)))

theorem assaySts (h : Steady s t) : Steady s t.assaySts := (h.put ..).put ..

theorem closeWindow (h : Steady s t) : Steady s t.closeWindow :=
  .ite _ ((h.modAssay _).put ..) h

theorem openWindow (h : Steady s t) : Steady s t.openWindow := by
  unfold State.openWindow
  dsimp only
  split
  · exact h.closeWindow
  · exact h.closeWindow.free rfl

theorem enqueueFault (h : Steady s t) (f : FaultRec) : Steady s (t.enqueueFault f) :=
  .ite _ (((h.giveVerdict ..).logDone _).enterHold ..) (h.free rfl)

theorem countCause (h : Steady s t) (c : Nat) : Steady s (t.countCause c) := by
  unfold State.countCause
  split
  · exact h.bump ..
  · exact h.bump ..
  · exact h.bump ..
  · exact h

theorem supersede (h : Steady s t) (u : Nat) : Steady s (t.supersede u) := by
  unfold State.supersede
  dsimp only
  exact assaySts (foldl (fun _ _ h => ((h.holdCores _ _).giveVerdict _ _).logDone _) _ _ (h.modAssay _))

theorem report (h : Steady s t) (u c d : Nat) : Steady s (t.report u c d) := by
  unfold State.report
  refine .ite _ h ?_
  have h1 : ∀ b fs, Steady s (((t.countCause c).openWindow.logEntry u c d b).2.modAssay (fun x => { x with faults := fs })) :=
    fun b fs => ((h.countCause c).openWindow.logEntry u c d b).modAssay _
  dsimp only
  refine .ite _ ?_ (.ite _ ?_ (.ite _ ?_ (.ite _ ?_ ?_)))
  · exact (((h1 _ _).giveVerdict _ _).logDone _).enterHold _ _
  · exact (((h1 _ _).logPut _ _ _).giveVerdict _ _).logDone _
  · exact ((h1 _ _).supersede _).lasting _
  · exact ((h1 _ _).supersede _).lasting _
  · exact (h1 _ _).enqueueFault _

/-! ### The Accord's checks -/

theorem idleTwin (h : Steady s t) (c : Nat) : Steady s (t.idleTwin c) :=
  (h.modThr _ _ (fun _ => ⟨_, _, _, _, rfl⟩)).haltRefresh _

theorem pairIdle (h : Steady s t) (p : Nat) : Steady s (t.pairIdle p) := ((h.idleTwin _).idleTwin _).modPair _ _

theorem discardBuffers (h : Steady s t) (p : Nat) : Steady s (t.discardBuffers p) := h.free rfl

theorem finalDiscard (h : Steady s t) (p : Nat) : Steady s (t.finalDiscard p) := by
  unfold State.finalDiscard
  dsimp only
  split
  · exact ((h.discardBuffers p).pairIdle p).calm ((Calm.refl _).toFallback _)
  · exact (h.discardBuffers p).pairIdle p

theorem disagree (h : Steady s t) (p k e b : Nat) : Steady s (t.disagree p k e b) := by
  unfold State.disagree
  dsimp only
  refine Steady.report (.ite _ (finalDiscard ?_ p) (((discardBuffers ?_ p)).modPair _ _)) _ _ _
  · exact ((Steady.ite _ (h.setReg _ _) ((h.setReg _ _).setReg _ _)).setReg _ _).setReg _ _
  · exact ((Steady.ite _ (h.setReg _ _) ((h.setReg _ _).setReg _ _)).setReg _ _).setReg _ _

theorem accordCheck (h : Steady s t) (p c : Nat) : Steady s (t.accordCheck p c) := by
  unfold State.accordCheck
  dsimp only
  refine .ite _ h ?_
  split
  · refine .ite _ (h.disagree ..) ?_
    split
    · exact h.disagree ..
    · exact .ite _ (h.disagree ..) (.ite _ (h.disagree ..) (h.modPair _ _))
  · split
    · exact h.disagree ..
    · exact h

/-- The Accord's look at a pair after a word changes nothing that a word computes with. -/
theorem accordScan (h : Steady s t) (n : Nat) : Steady s (t.accordScan n) := by
  unfold State.accordScan
  refine .ite _ ?_ h
  split
  · exact h.accordCheck ..
  · exact h

end Steady

end Sys2Proof.Machine
end

