-- ==== Sys2Proof/Laws/Words.lean ====
section
/-! SUPPORT. What running one word can do (`runWord`), said once: a word of a thread that cannot issue, that completes,
that waits, that raises. -/

namespace Sys2Proof.Machine

/-- A thread that cannot issue leaves the state as it is. -/
theorem runWord_stuck (t : Tid) (i : Instr) (b : Bool) (body : M Next) (s : State) (h : s.canIssue t.toNat = false) :
    runWord t i b body s = s := by
  simp [runWord, h]

/-- The word may issue: the thread is its core's choice and waits for no other word. -/
def State.issues (s : State) (t : Nat) (i : Instr) : Prop :=
  s.canIssue t = true ∧ (s.thr t).waiting.any (fun j => !sameWord i j) = false

/-- A word that completes: its effect, its beats, the next PC, the requests given up, the Accord's look at the pair. -/
theorem runWord_ok (t : Tid) (i : Instr) (body : M Next) (s s' : State) (r : Next) (h : s.issues t.toNat i)
    (hb : body s = .ok r s') :
    runWord t i false body s =
      (((s'.endWord t.toNat (if (s.thr t.toNat).resume.isSome && !(s.thr t.toNat).mip then 0
          else beatsOf (s.thr t.toNat) (t.toNat / 4) i)).finish t.toNat r).leaveArbs t.toNat).accordScan t.toNat := by
  simp [runWord, h.1, h.2, hb]

/-- A word that waits changes what it asks for and what it has already done. -/
theorem runWord_wait (t : Tid) (i : Instr) (body : M Next) (s s' : State) (w : WaitFor) (h : s.issues t.toNat i)
    (hb : body s = .error (.wait w) s') : runWord t i false body s = (s'.keptBy s t.toNat w).park t.toNat i w := by
  simp [runWord, h.1, h.2, hb]

/-- The mode bit of ST lies below the micro-routine fields. -/
theorem Thread.unMip_mode (th : Thread) : th.unMip.mode = th.mode := by
  unfold Thread.unMip
  split
  · simp only [Thread.mode]
    rw [bitsGet_bitsSet_below _ _ (by decide) (by decide), bitsGet_bitsSet_below _ _ (by decide) (by decide)]
  · rfl

theorem Thread.unMip_eq (th : Thread) (h : th.mip = false) : th.unMip = th := by simp [Thread.unMip, h]

theorem State.addBeats_elastic (s : State) (t n : Nat) (h : (s.thr t).mode = false) : s.addBeats t n = s := by
  simp [State.addBeats, h]

theorem State.endWord_elastic (s : State) (t n : Nat) (h : (s.thr t).mode = false) : s.endWord t n = s := by
  simp [State.endWord, h, State.addBeats_elastic]

theorem State.accordScan_elastic (s : State) (t : Nat) (h : (s.thr t).mode = false) : s.accordScan t = s := by
  simp [State.accordScan, h]

theorem State.finish_mode (s : State) (t : Nat) (r : Next) : ((s.finish t r).thr t).mode = (s.thr t).mode := by
  unfold State.finish
  rw [State.thr_modThr_same]
  cases r <;> first | exact Thread.unMip_mode _ | rfl

/-- A thread that gives up its requests gives up nothing else. -/
theorem State.leaveArbs_eq (s : State) (t : Nat) : ∃ a, s.leaveArbs t = { s with arbs := a } := by
  have h1 : ∃ a, s.withdrawWaits (· == t) = { s with arbs := a } := by
    unfold State.withdrawWaits
    split
    · exact ⟨_, rfl⟩
    · exact ⟨s.arbs, rfl⟩
  obtain ⟨a, e⟩ := h1
  unfold State.leaveArbs State.answerAll
  rw [e]
  split
  · exact ⟨_, rfl⟩
  · exact ⟨a, rfl⟩

theorem State.leaveArbs_thr (s : State) (t n : Nat) : (s.leaveArbs t).thr n = s.thr n := by
  obtain ⟨a, e⟩ := s.leaveArbs_eq t
  rw [e]
  rfl

/-- A word of an Elastic thread that completes: its effect and the next PC. -/
theorem runWord_elastic (t : Tid) (i : Instr) (body : M Next) (s s' : State) (r : Next)
    (h : s.issues t.toNat i) (hb : body s = .ok r s') (hm : (s'.thr t.toNat).mode = false) :
    runWord t i false body s = (s'.finish t.toNat r).leaveArbs t.toNat := by
  rw [runWord_ok t i body s s' r h hb, State.endWord_elastic _ _ _ hm,
    State.accordScan_elastic _ _ (by rw [State.leaveArbs_thr, State.finish_mode]; exact hm)]

/-- The same for a word whose opcode Metered mode forbids. -/
theorem runWord_forbidden_elastic (t : Tid) (i : Instr) (body : M Next) (s s' : State) (r : Next)
    (h : s.issues t.toNat i) (h0 : (s.thr t.toNat).mode = false) (hb : body s = .ok r s')
    (hm : (s'.thr t.toNat).mode = false) :
    runWord t i true body s = (s'.finish t.toNat r).leaveArbs t.toNat := by
  have e : runWord t i true body s = runWord t i false body s := by simp [runWord, h.1, h.2, h0, hb]
  rw [e, runWord_elastic t i body s s' r h hb hm]

/-- The next word follows: PC plus 4, where no micro-routine was interrupted. -/
theorem State.finish_seq (s : State) (t : Nat) (h : (s.thr t).mip = false) :
    s.finish t .seq = s.modThr t (fun th => { th with pc := th.pc + 4, hostGot := [], resume := none, waiting := none, halfDone := false }) := by
  simp [State.finish, State.modThr, Thread.unMip_eq _ h]

theorem State.finish_jump (s : State) (t : Nat) (pc : Word32) (h : (s.thr t).mip = false) :
    s.finish t (.jump pc) = s.modThr t (fun th => { th.drop with pc := pc, resume := none }) := by
  simp [State.finish, State.modThr, Thread.unMip_eq _ h]

theorem Thread.set_mode (th : Thread) (r : RegNo) (v : Word) : (th.set r v).mode = th.mode := by
  unfold Thread.set
  split <;> rfl

theorem Thread.set_mip (th : Thread) (r : RegNo) (v : Word) : (th.set r v).mip = th.mip := by
  unfold Thread.set
  split <;> rfl

theorem Thread.set_pc (th : Thread) (r : RegNo) (v : Word) : (th.set r v).pc = th.pc := by
  unfold Thread.set
  split <;> rfl

end Sys2Proof.Machine
end

