-- ==== Sys2Proof/Tests/Slice0.lean ====
section
/-! SUPPORT. Tests: well-formedness, words written out from chapter 02, results worked out from the spec, and for each
statement states and operands that meet its hypotheses, clause by clause. -/

namespace Sys2Proof.Tests

open Sys2Proof Sys2Proof.Machine Sys2Proof.Says

set_option Elab.async false

/-! ### Helpers -/

/-- The device in Lit: the boot steps are over, region 0 is Active, thread 0 stands at address 0x100. -/
def lit : State :=
  let s : State := { power := { upStep := 0 } }
  ((s.put Fld.LL_STS_DSTATE 3).put Fld.RG_PSTS_STATE 0 (rgOff 0)).modThr 0 (fun th => { th with pc := 0x100 })

/-- A register of a thread. -/
def setG (t : Nat) (r : RegNo) (v : Word) (s : State) : State := s.modThr t (fun th => th.set r v)

/-- The time since reset. -/
def atNs (n : Nat) (s : State) : State := { s with tb := { s.tb with elapsed := n } }

/-- The state that an outcome answers. -/
def nxt : Host.Outcome State Fault Refusal → Option State
  | .next s => some s
  | _ => none

/-- The state that a command answers, or the state before it. -/
def run (f : State → Host.Outcome State Fault Refusal) (s : State) : State := (nxt (f s)).getD s

/-- `n` bytes that are all different from 0. -/
def some_ (n : Nat) : List Byte := (List.range n).map (fun i => BitVec.ofNat 8 (7 * i + 3))

/-- Whether a requester reaches a register with nothing in the way, and the register satisfies `p`. -/
def servesAnd (s : State) (rq : Requester) (a : Nat) (write : Bool) (p : RegDesc → Nat → Nat → Bool) : Bool :=
  match reach rq a with
  | some (d, k, b) => s.routeLive rq && routeOk rq a && decide (s.blockAsleep a = none) && decide (a < 2 ^ 24) && p d k b &&
    (match rq with
     | .core t => s.pageOpen t.toNat a && (decide (0xFF0000 ≤ a) || pathOpen s t [s.fabricFor t.toNat 11]) &&
        (!write || !stewardOnly d.base || (s.thr t.toNat).priv)
     | _ => true)
  | none => false

theorem serves_of {s : State} {rq : Requester} {a : Nat} {w : Bool} {p : RegDesc → Nat → Nat → Bool}
    (h : servesAnd s rq a w p = true) : ∃ d k b, Serves s rq a w d k b ∧ p d k b = true := by
  unfold servesAnd at h
  split at h
  · rename_i d k b hr
    simp only [Bool.and_eq_true, decide_eq_true_eq] at h
    obtain ⟨⟨⟨⟨⟨h1, h2⟩, h3⟩, h4⟩, h5⟩, h6⟩ := h
    refine ⟨d, k, b, ⟨h1, h2, hr, h3, h4, ?_⟩, h5⟩
    rintro t rfl
    simp only [Bool.and_eq_true, Bool.or_eq_true, decide_eq_true_eq, Bool.not_eq_true'] at h6
    refine ⟨h6.1.1, h6.1.2, fun _ hs => ?_⟩
    have := h6.2
    simp_all
  · cases h

/-- Any register that lies there. -/
def any_ (_ : RegDesc) (_ _ : Nat) : Bool := true

theorem serves_any {s : State} {rq : Requester} {a : Nat} {w : Bool} (h : servesAnd s rq a w any_ = true) :
    ∃ d k b, Serves s rq a w d k b := by
  obtain ⟨d, k, b, h, _⟩ := serves_of h
  exact ⟨d, k, b, h⟩

/-- Thread 0, which is a steward after reset. -/
def rq0 : Requester := .core 0

/-! ### Well-formedness: one ill-formed term for each check -/

theorem refuses_reserved_slot : wellFormed (.pairedWord 0 ⟨29, 1, 1⟩ ⟨0, 0, 0⟩) = false := by decide
theorem refuses_nop_slot_with_register : wellFormed (.pairedWord 0 ⟨1, 1, 1⟩ ⟨0, 0, 2⟩) = false := by decide
theorem refuses_no_steps : wellFormed (.callm 0 1 0 0) = false ∧ wellFormed (.retm 0 0 0) = false ∧
    wellFormed (.movb 0 1 2 3 0) = false ∧ wellFormed (.fillb 0 1 2 3 0) = false := by decide
theorem refuses_no_cell : wellFormed (.frameReceive 0 ⟨[], true, 0, 0, 131072⟩) = false := by decide
theorem refuses_empty_bar : wellFormed (.barAccess 0 (.readReg 0 0)) = false ∧
    wellFormed (.barAccess 0 (.writeReg 0 [])) = false := by decide
theorem refuses_no_arbiter : wellFormed (.arbiterGrant (.annex 0 1) [] []) = false ∧
    wellFormed (.starvation (.fabric 12 0) 0) = false ∧ wellFormed (.starvation (.fabric 11 3) 0) = false := by decide
theorem refuses_no_escape : wellFormed (.capture 96 true) = false ∧ wellFormed (.controlEscapeEdge 96 true) = false := by
  decide
theorem refuses_seven_regions : wellFormed (.bellowsEvaluation ⟨List.replicate 7 ⟨0, 0⟩, 0⟩) = false := by decide
theorem refuses_missing_sensors : wellFormed (.sensorRefresh ⟨List.replicate 15 none, List.replicate 8 none, true⟩) = false ∧
    wellFormed (.sensorRefresh ⟨List.replicate 16 none, List.replicate 7 none, true⟩) = false := by decide
theorem refuses_no_condition : wellFormed (.conditionClear 9) = false := by decide
theorem refuses_no_cause : wellFormed (.errorReport 5 11 0) = false := by decide
theorem refuses_no_register_read : wellFormed (.sidebandRead none 0) = false := by decide
theorem admits_boundaries : wellFormed (.starvation (.fabric 11 2) 0) = true ∧ wellFormed (.capture 95 true) = true ∧
    wellFormed (.conditionClear 8) = true ∧ wellFormed (.errorReport 5 10 0) = true ∧
    wellFormed (.frameReceive 0 ⟨[], true, 0, 0, 131071⟩) = true := by decide

/-! ### Words written out from the tables of chapter 02: F, opcode, and the fields of the format -/

theorem word_sub : decodeWord 9 0b0_0010001_00011_00100_00101_000000000 = some (.sub 9 3 4 5) := by decide
theorem word_bitop_sexth : decodeWord 9 0b0_0101110_00011_00100_00000_000000101 = some (.sexth 9 3 4) := by decide
theorem word_addi : decodeWord 9 0b0_0110000_00011_00100_11111111111110 = some (.addi 9 3 4 0x3FFE) := by decide
theorem word_orh : decodeWord 9 0b0_0111101_00011_010_0000000000000111 = some (.orh 9 3 2 7) := by decide
theorem word_ldw : decodeWord 9 0b0_1000100_00011_00100_01_000000001000 = some (.ldw 9 3 4 1 8) := by decide
theorem word_std : decodeWord 9 0b0_1001011_00011_00100_10_000000001000 = some (.std 9 3 4 2 8) := by decide
theorem word_tas : decodeWord 9 0b0_1010000_00011_00100_1010_0000000000 = some (.tas 9 3 4 10) := by decide
theorem word_lr_timed : decodeWord 9 0b0_1010010_00011_00100_1_0000000000000 = some (.lr 9 3 4 true) := by decide
theorem word_out : decodeWord 9 0b0_1011001_00011_00100_00000000001000 = some (.out 9 3 4 8) := by decide
theorem word_trap : decodeWord 9 0b0_0000010_00000_00000_00000000000111 = some (.trap 9 7) := by decide
theorem word_mtsr : decodeWord 9 0b0_0001001_00000_00100_000000000_00111 = some (.mtsr 9 7 4) := by decide
/-- The pair that R40 works out: ADD g3, g4 with SUB g5, g6 is 0x8864_194C. -/
theorem word_pair : decodeWord 9 0x8864194C = some (.pairedWord 9 ⟨2, 3, 4⟩ ⟨3, 5, 6⟩) := by decide
theorem word_reserved : decodeWord 9 0 = none ∧ decodeWord 9 0b0_0010001_00011_00100_00101_000000001 = none := by decide
theorem word_beq : decodeWord 9 0b0_1100100_00011_00100_11111111111111 = some (.beq 9 3 4 0x3FFF) := by decide
theorem word_bl : decodeWord 9 0b0_1100001_000000000000000000000011 = some (.bl 9 3) := by decide
theorem word_callm : decodeWord 9 0b0_1101010_000_00100_1000000000000001 = some (.callm 9 4 0x8001 1) := by decide
theorem word_send : decodeWord 9 0b0_1101100_00011_00100_00101_0000_10_110 = some (.send 9 3 4 5 6 2) := by decide
theorem word_gcmenc : decodeWord 9 0b0_1110000_00011_00100_00101_00000_0010 = some (.gcmenc 9 3 4 5) := by decide
theorem word_farx : decodeWord 9 0b0_1111101_00011_00100_00101_000000111 = some (.farx 9 5 3 4 5 7) := by decide

/-! ### Results worked out by hand, or published with the algorithm that the spec names -/

/-- DIV: the quotient of the one overflow, and of a zero divisor (03 R73). -/
theorem div_corners : exec (.div 0 3 1 2) (lit |> setG 0 1 0x8000000000000000 |> setG 0 2 (BitVec.allOnes 64)) =
      Says.answers (lit |> setG 0 1 0x8000000000000000 |> setG 0 2 (BitVec.allOnes 64)) 0 3 0x8000000000000000 ∧
    exec (.div 0 3 1 2) (lit |> setG 0 1 7) = Says.answers (lit |> setG 0 1 7) 0 3 (BitVec.allOnes 64) := by
  constructor <;> rfl

/-- CRC-32C of the nine digits "123456789" is E3069283. -/
theorem crc32c_check : crc32c 0 [0x31, 0x32, 0x33, 0x34, 0x35, 0x36, 0x37, 0x38, 0x39] = 0xE3069283#32 := by decide +kernel

/-- FIPS 197, appendix C.1. -/
theorem aes128_check : aesEncrypt 10 (aesSchedule ((List.range 16).map (BitVec.ofNat 8)))
    ((List.range 16).map (fun i => BitVec.ofNat 8 (0x11 * i))) =
    [0x69, 0xC4, 0xE0, 0xD8, 0x6A, 0x7B, 0x04, 0x30, 0xD8, 0xCD, 0xB7, 0x80, 0x70, 0xB4, 0xC5, 0x5A] := by decide +kernel

/-- FIPS 180: SHA-256 of "abc", whose padded message is one block. -/
theorem sha256_check : sha256Block sha256Init ([0x61626380#32] ++ List.replicate 14 0 ++ [0x18]) =
    [0xBA7816BF, 0x8F01CFEA, 0x414140DE, 0x5DAE2223, 0xB00361A3, 0x96177A9C, 0xB410FF61, 0xF20015AD] := by decide +kernel

/-- DADD of +17 and −20 is −3, in packed form (03 R108). -/
theorem dadd_check : nxt (exec (.dadd 0 3 1 2) (lit |> setG 0 1 0x17C |> setG 0 2 0x20D)) =
    nxt (Says.answers (lit |> setG 0 1 0x17C |> setG 0 2 0x20D) 0 3 0x3D) := by decide +kernel

/-! ### The statements about the queue, memory and integer words -/

theorem meets_step : ({ lit with pending := [.nop 0, .trap 0 1] } : State).pending = .nop 0 :: [.trap 0 1] := rfl

theorem meets_idle : lit.pending = [] ∧ lit.flag Fld.TB_STS_PLLLOCK = false ∧
    (let s := lit.put Fld.TB_STS_PLLLOCK 1
     s.pending = [] ∧ s.flag Fld.TB_STS_PLLLOCK = true ∧ s.reg Reg.TB_RATE = 0 ∧ s.reg Reg.TB_SLEW = 0) := by decide

theorem meets_round_trip : (wellFormed (.addi 0 1 2 0x3FFF) = true ∧ (encodeWord (.addi 0 1 2 0x3FFF)).isSome = true) ∧
    (wellFormed (.movb 0 1 2 3 1) = true ∧ (encodeWord (.movb 0 1 2 3 1)).isSome = true) ∧
    (wellFormed (.callm 0 1 0xFFFF 1) = true ∧ (encodeWord (.callm 0 1 0xFFFF 1)).isSome = true) := by decide

theorem meets_canonical_step : (lit.store none 0 (some_ 8)).memCanonical ∧
    (nxt (step { lit.store none 0 (some_ 8) with pending := [.std 0 1 2 0 0] })).isSome = true := by
  unfold State.memCanonical; decide

theorem meets_integer : (intResult (fun t => lit.thr t.toNat) (.sar 0 31 1 2)).isSome = true ∧
    (intResult (fun t => lit.thr t.toNat) (.remu 0 0 1 2)).isSome = true ∧
    (intResult (fun t => lit.thr t.toNat) (.nop 0)).isSome = true ∧ Ready lit 0 ∧ Elastic lit 0 := by
  unfold Ready Elastic; decide

theorem meets_branches : (branchCond (fun t => lit.thr t.toNat) (.bgeu 0 1 2 0x1FFF)).isSome = true ∧
    (branchCond (fun t => lit.thr t.toNat) (.blt 0 1 2 0x2000)).isSome = true ∧
    (((lit |> setG 0 1 0x1FFFFFFFC).thr 0).get 1).toNat % 2 ^ 32 % 4 = 0 := by decide

theorem meets_modes : (lit.thr 0).amode = false ∧ ((1 : RegNo) ≠ 0 ∧ (some 2 : Option RegNo) ≠ some 1) ∧
    ((0 : RegNo) = 0 ∨ (none : Option RegNo) = some 0) ∧ (0xFFF#12 : BitVec 12) ≠ 0 ∧
    ({ lit.thr 0 with st := 2 } : Thread).amode = true := by decide

/-! ### Memory words -/

/-- Thread 0 with a base register at the end of each part of the data space. -/
def ends : State := lit |> setG 0 1 0x7FF8 |> setG 0 2 0x1003FFF8 |> setG 0 3 0x103FC3FFF8 |> setG 0 4 0x2000FFFFF8 |>
  setG 0 5 0x3001FFFFF8 |> setG 0 6 0x100

theorem ready_ends : Ready ends 0 ∧ Elastic ends 0 ∧ Clean ends ∧ (ends.thr 0).priv = true := by
  unfold Ready Elastic Clean; decide

/-- The last doubleword of the own data SRAM, the own cluster memory, the Session Store and the frame buffer. -/
theorem meets_load_form : loadForm (.ldd 0 7 1 0 0) = some (0, 7, 1, 0, 0, 8, false) := rfl

theorem meets_loads : memOperand (ends.thr 0) (some 7) 1 0 0 = some (0x7FF8, none) ∧ (placeOf ends 0 0x7FF8 8).isSome = true ∧
    memOperand (ends.thr 0) (some 7) 2 3 0 = some (0x1003FFF8, none) ∧ (placeOf ends 0 0x1003FFF8 8).isSome = true ∧
    memOperand (ends.thr 0) (some 7) 4 1 8 = some (0x2000FFFFF8, some 0x2001000000) ∧
    (placeOf ends 0 0x2000FFFFF8 8).isSome = true ∧
    memOperand (ends.thr 0) (some 7) 5 2 8 = some (0x3001FFFFF0, some 0x3001FFFFF0) ∧
    (placeOf ends 0 0x3001FFFFF0 8).isSome = true := by decide

theorem meets_store_form : storeForm (.stb 0 7 1 0 7) = some (0, 7, 1, 0, 7, 1) := rfl

theorem meets_stores : memOperand (ends.thr 0) none 1 0 7 = some (0x7FFF, none) ∧ (placeOf ends 0 0x7FFF 1).isSome = true ∧
    (placeOf ends 0 0x1000000000 8).isSome = true ∧ (placeOf ends 0 0x1003FFFF 1).isSome = true := by decide

theorem meets_locks : let s := ends |> setG 0 1 0x1003FFF8
    let s' := s.store none (clusterBase 0 + 0x3FFF8) [2]
    (((s.thr 0).get 1).toNat % 8 = 0 ∧ dRegion 0x1003FFF8 = .ownCl ∧ (placeOf s 0 0x1003FFF8 8).isSome = true) ∧
    s.hooked 0 = false ∧ (s.thr 0).rankchk = false ∧ leNat (s.bytes (clusterBase 0 + 0x3FFF8) 8) = 0 ∧
    leNat (s'.bytes (clusterBase 0 + 0x3FFF8) 8) ≠ 0 ∧
    (let u := s.modThr 0 (fun th => { th with st := 4, held := 0x8000 })
     (u.thr 0).rankchk = true ∧ (u.thr 0).held.toNat / 2 ^ 15 ≠ 0 ∧
      (u.modThr 0 (fun th => { th with held := 0x7FFF }) |>.thr 0).held.toNat / 2 ^ 15 = 0) := by decide

theorem meets_reserved : let s := ends |> setG 0 1 0x7FF8
    ((lit.thr 0).spin = none ∧ ((s.thr 0).get 1).toNat % 8 = 0 ∧ (placeOf s 0 0x7FF8 8).isSome = true) ∧
    (let u := s.modThr 0 (fun th => { th with spin := some 5, wtmo := 1 })
     u.now < 5 + (u.thr 0).wtmo.toNat) ∧
    (0, resGranule (dsramBase 0 + 0x7FF8)) ∈ ({ s with resvs := [(0, resGranule (dsramBase 0 + 0x7FF8))] } : State).resvs ∧
    (0, resGranule (dsramBase 0 + 0x7FF8)) ∉ s.resvs ∧
    (resvTable (dsramBase 0 + 0x7FF8)).all (fun x => decide (s.scHeld (dsramBase 0 + 0x7FF8) < x.1)) = true := by decide

theorem meets_pairs : wfPair ⟨2, 3, 4⟩ ⟨1, 4, 9⟩ = true ∧ (2 : BitVec 5).toNat < 27 ∧ (26 : BitVec 5).toNat < 27 ∧
    writes ⟨2, 3, 4⟩ = some 3 ∧ writes ⟨1, 4, 9⟩ ≠ some 3 ∧ (3 : RegNo) ∉ reads ⟨1, 4, 9⟩ ∧
    (let s := ends
     placeOf s 0 ((s.thr 0).get 6).toNat 8 = some (dsramBase 0 + 0x100) ∧
      placeOf s 0 ((s.thr 0).get 1).toNat 8 = some (dsramBase 0 + 0x7FF8)) := by decide

/-! ### I/O, instruction space, special registers -/

theorem meets_io : let s := lit |> setG 0 1 (BitVec.ofNat 64 Reg.TB_RATE)
    ioSumOf (s.thr 0) 1 0 = Reg.TB_RATE ∧ Reg.TB_RATE < 2 ^ 24 ∧ s.pageOpen 0 Reg.TB_RATE = true ∧
    (reach (.core 0) Reg.TB_RATE).isSome = true ∧ s.blockAsleep Reg.TB_RATE = none ∧ s.targetFrozen 11 false = false ∧
    Reg.TB_RATE % 4 = 0 ∧ stewardOnly Reg.TB_RATE = false ∧
    ((reach (.core 0) Reg.TB_RATE).map (fun x =>
      decide (((s.writeReg (.core 0) x.1 x.2.1 x.2.2 5).settle).thr 0 = s.thr 0))) = some true := by decide +kernel

theorem meets_ind : Reg.PT_CTL % 8 = 0 ∧ (reach (.core 0) Reg.PT_CTL).isSome = true ∧
    (reach (.core 0) (Reg.PT_CTL + 4)).isSome = true ∧ pairLows.contains Reg.PT_CTL = false ∧
    isPairHi Reg.PT_CTL = false ∧ lit.pageOpen 0 (Reg.PT_CTL + 4) = true := by decide

theorem meets_outd : Reg.TB_STEP_LO % 8 = 0 ∧ pairLows.contains Reg.TB_STEP_LO = true ∧
    pairLows.contains (Reg.TB_STEP_LO + 4) = false ∧ isPairHi (Reg.TB_STEP_LO + 4) = true ∧
    (findReg (Reg.TB_STEP_LO + 4)).isSome = true ∧
    lit.writeDiscarded (Reg.TB_STEP_LO + 4) (Reg.TB_STEP_LO + 4) = none ∧
    stewardOnly Reg.TB_STEP_LO = false := by decide

theorem meets_iload : let s := ends |> setG 0 1 0x7FFC
    ioSumOf (s.thr 0) 1 0 % 2 ^ 32 % 4 = 0 ∧ ioSumOf (s.thr 0) 1 0 % 2 ^ 32 + 4 ≤ 0x8000 := by decide

theorem meets_special : (lit.core 0).ltimer = none ∧
    ((lit.modCore 0 (fun k => { k with ltimer := some 9 })).core 0).ltimer = some 9 := by decide

/-! ### Waiting, exceptions, micro-routines -/

theorem meets_wait : (lit.modThr 0 (fun th => { th with spin := none })).bestOffer 0 = none ∧ lit.sendsPending 0 = false ∧
    (lit.modPort 1 (fun x => { x with q1 := [{ addr := 0, len := 64, src := .thread 0, at_ := 0 }] })).sendsPending 0 = true :=
  by decide +kernel

/-- Thread 0 with a stack and a vector table in its SRAMs. -/
def handler : State := (lit |> setG 0 30 0x8000).modThr 0 (fun th => { th with vbase := 0x7F00 })

theorem handler_ready : Ready handler 0 ∧ (handler.thr 0).priv = true := by unfold Ready; decide

/-- The lowest and the highest vector that EXCEPTION_ENTRY raises, TRAP's, an interrupt's, at both ends of the stack area. -/
theorem meets_entries : EntryOk handler 0 1 ∧ EntryOk handler 0 14 ∧ EntryOk handler 0 15 ∧ EntryOk (setG 0 30 64 handler) 0 8 := by
  unfold EntryOk EntrySpace Elastic Clean; decide +kernel

theorem meets_failed_entry : let s := setG 0 30 0x9000 lit
    dRegion ((s.thr 0).sp - 64).toNat = .unmapped ∧ ∀ i, i < 8 → dRegion (((s.thr 0).sp - 64).toNat + i) = .unmapped := by
  decide +kernel

theorem meets_raising : let s := setG 0 1 0x102 handler
    EntryOk s 0 6 ∧ (s.thr 0).get 1 % 4 ≠ 0 ∧ EntryOk s 0 1 ∧ (8 : BitVec 5).toNat = 8 ∧
    memOperand (s.thr 0) (some 1) 1 1 4 = none ∧ memOperand (s.thr 0) none 0 2 4 = none ∧
    memOperand (s.thr 0) none 1 3 1 = none ∧ ((s.thr 0).get 1).toNat % 8 ≠ 0 := by
  unfold EntryOk EntrySpace Elastic Clean; decide +kernel

theorem meets_privilege : let s := handler.modThr 0 (fun th => { th with st := 0 })
    Ready s 0 ∧ EntryOk s 0 3 ∧ (s.thr 0).priv = false := by
  unfold EntryOk EntrySpace Ready Elastic Clean; decide +kernel

theorem meets_return : let s := setG 0 30 0x7FC0 handler
    (s.thr 0).sp.toNat + 64 ≤ 0x8000 ∧
    bitsGet (BitVec.ofNat 32 (leNat (s.bytes (dsramBase 0 + 0x7FC0 + 8) 4))) 8 1 = 0 := by decide +kernel

theorem meets_callm : handler.hooked 0 = false ∧ (maskRegs 0xFFFF).length + 4 ≤ 20 ∧ (maskRegs 0).length + 4 ≤ 4 ∧
    ((handler.thr 0).sp - BitVec.ofNat 64 (16 + 8 * (maskRegs 0xFFFF).length)).toNat +
      (16 + 8 * (maskRegs 0xFFFF).length) ≤ 0x8000 ∧ (((handler.thr 0).get 1).toNat % 2 ^ 32) % 4 = 0 ∧
    (maskRegs 0xFFFF).length + 1 ≤ 17 ∧
    ((setG 0 30 0x7F70 handler).thr 0).sp.toNat + (16 + 8 * (maskRegs 0xFFFF).length) ≤ 0x8000 := by decide +kernel

theorem meets_blocks : let s := lit |> setG 0 1 0x7FC0 |> setG 0 2 0x7F80 |> setG 0 3 64
    s.hooked 0 = false ∧ 0 < ((s.thr 0).get 3).toNat ∧ ((s.thr 0).get 3).toNat ≤ 64 ∧
    ((s.thr 0).get 1).toNat + ((s.thr 0).get 3).toNat ≤ 0x8000 ∧ ((s.thr 0).get 2).toNat + 64 ≤ ((s.thr 0).get 1).toNat := by
  decide +kernel

/-! ### Messages, the Metered role -/

theorem meets_mailbox : let s := setG 0 1 0x7FE0 lit
    let h : Header := { len := 64 }
    ((s.thr 0).get 1).toNat % 8 = 0 ∧ ((s.thr 0).get 1).toNat + 32 ≤ 0x8000 ∧ (s.thr 0).cur = none ∧ (s.thr 0).mailbox = [] ∧
    ((s.modThr 0 (fun th => { th with mailbox := [h] })).thr 0).mailbox = h :: [] ∧
    ((s.modThr 0 (fun th => { th with cur := some h })).thr 0).cur.isSome = true := by decide +kernel

/-- A port in service. -/
def port2 : State := (lit.put Fld.PT_CTL_EN 1 (ptOff 2)).put Fld.PT_STS_LINK 1 (ptOff 2)

theorem meets_send : let s := setG 0 1 0x10000000 port2
    sendPlace 0x10000000 9216 = true ∧ (placeOf s 0 0x10000000 9216).isSome = true ∧
    sendPlace 0x10000000 (max 13 1) = true ∧ (placeOf s 0 0x10000000 (min (max 13 1) 9216)).isSome = true ∧
    s.portInService 2 = true ∧ (s.put Fld.AS_PORTOOS_MAP 2).portInService 1 = false ∧ (s.egressQ 2 1).length < 256 ∧
    256 ≤ ((s.modPort 2 (fun x => { x with q1 := List.replicate 256 { addr := 0, len := 64, src := .thread 0, at_ := 0 } })).egressQ
      2 1).length := by decide +kernel

/-- Regions 6 and 7 hold the Metered role; pair 0 (cores 384 and 448) runs a message. -/
def metered : State :=
  let s := ((lit.put Fld.PS_STS_METERED 1).put Fld.RG_PSTS_STATE 0 (rgOff 6)).put Fld.RG_PSTS_STATE 0 (rgOff 7)
  let f (s : State) (c : Nat) : State :=
    (s.modThr (4 * c) (fun th => { th with tstate := .meteredRun, st := 1, pc := 0x100 })).modCore c
      (fun k => { k with budget := 1000 })
  ((f (f s 384) 448).setPair 0 { (s.pair 0) with phase := .running }) |> setG 1536 1 0x10000040 |> setG 1536 2 7

theorem metered_ready : Ready metered 1536 ∧ (metered.thr 1536).mode = true ∧ Clean metered := by
  unfold Ready Clean; decide +kernel

theorem meets_metered : pairOf 384 = some 0 ∧ pairCores 0 = (384, 448) ∧ (metered.core 384).cbuf = [] ∧ (metered.core 448).cbuf = [] ∧
    (metered.core 384).doneAt = none ∧ memOperand (metered.thr 1536) none 1 0 0 = some (0x10000040, none) ∧
    (placeOf metered 1536 0x10000040 8).isSome = true ∧ dRegion 0x10000040 = .ownCl ∧ granule 0x10000040 = 0x10000040 ∧
    (metered.thr 1536).rankchk = false ∧ leNat (metered.bytes (clusterBase 48 + 0x40) 8) = 0 ∧
    (1536, resGranule (clusterBase 48 + 0x40)) ∈
      ({ metered with resvs := [(1536, resGranule (clusterBase 48 + 0x40))] } : State).resvs := by decide +kernel

theorem meets_metered_io : let a := 0xFF0000
    let s := setG 1536 3 0xFF0000 metered
    ioSumOf (s.thr 1536) 3 0 = a ∧ s.pageOpen 1536 a = true ∧ (reach (.core 1536) a).isSome = true ∧ s.blockAsleep a = none ∧
    ((s.thr 1536).get 2 + (4 : BitVec 14).signExtend 64 - 3).toNat % 2 ^ 32 < 0x8000 := by decide +kernel

theorem meets_forwarding : let e : CbEntry := ⟨0, 0xFF, 0x10000040, 0x1122334455667788, 0⟩
    let s := metered.modCore 384 (fun k => { k with cbuf := [e] })
    (s.core 384).cbuf = [⟨0, 0xFF, (0x10000040 : Word).setWidth 48, 0x1122334455667788, 0⟩] ∧
    (∀ c, c = 384 ∨ c = 448 → c ≠ 384 → (s.core c).cbuf = []) := by
  refine ⟨by decide +kernel, ?_⟩
  rintro c (rfl | rfl) h
  · exact absurd rfl h
  · decide +kernel

/-! ### The near Annex -/

theorem meets_decimal : pkValid 0x999999999999999C = true ∧ pkValid 0x1D = true ∧ pkValid 0xA0C = false ∧
    (pkVal 0x999999999999999C - pkVal 0x1D).natAbs = 1000000000000000 ∧ (pkVal 0x999999999999999C).natAbs = 999999999999999 := by
  decide +kernel

theorem meets_digits : let s := ends |> setG 0 1 0x7FF1 |> setG 0 2 15 |> setG 0 3 0x7FF0
    1 ≤ ((s.thr 0).get 2).toNat ∧ ((s.thr 0).get 2).toNat ≤ 15 ∧ (placeOf s 0 0x7FF1 15).isSome = true ∧
    (placeOf s 0 0x7FF0 16).isSome = true ∧ pkValid 0x1C = true ∧ pkValid 0 = false := by decide +kernel

theorem meets_sums : (placeOf lit 0 0x4000 16384).isSome = true ∧ (placeOf lit 0 0x7FFF 1).isSome = true := by decide +kernel

/-- A context at 0x800 of the own data SRAM that the words accept. -/
def context : State := (lit |> setG 0 1 0x800 |> setG 0 2 0x100).store none (dsramBase 0 + 0x980) [0x81]

theorem meets_keys : (placeOf lit 0 0x7E00 512).isSome = true ∧ (placeOf lit 0 0x7FE0 32).isSome = true ∧
    (placeOf lit 0 0x7FF0 16).isSome = true ∧ (0x7E00 : Nat) % 8 = 0 := by decide +kernel

theorem meets_context : let c := ctxAt context (dsramBase 0 + 0x800)
    let full := context.store none (dsramBase 0 + 0x990) (leBytes 8 (16 * (2 ^ 32 - 3)))
    Memory.wf context.mem ∧ c.valid = true ∧ c.text = 0 ∧ c.aad = 0 ∧ (c.text + 15) / 16 < 2 ^ 32 - 2 ∧
    (ctxAt full (dsramBase 0 + 0x800)).text % 16 = 0 ∧ ((ctxAt full (dsramBase 0 + 0x800)).text + 15) / 16 < 2 ^ 32 - 2 ∧
    (ctxAt lit (dsramBase 0 + 0x800)).valid = false := by decide +kernel

theorem meets_apart : apart (dsramBase 0 + 0x800) 512 (dsramBase 0 + 0x100) 16 ∧
    apart (dsramBase 0 + 0x800) 512 (dsramBase 0 + 0xA00) 16 := by unfold apart; decide

theorem meets_hash : let p := dsramBase 0 + 0x800
    let s := lit.store none (p + 56) (leBytes 8 Config.shaMarker.toNat)
    shaValid (s.bytes p 64) false = true ∧ (placeOf lit 0 0x7FC0 64).isSome = true ∧ (placeOf lit 0 0x7FA0 96).isSome = true ∧
    (placeOf lit 0 0x7F80 128).isSome = true ∧ (placeOf lit 0 0x7FD0 48).isSome = true := by
  intro p s
  refine ⟨?_, by decide +kernel⟩
  have h : s.bytes (p + 56) 8 = leBytes 8 Config.shaMarker.toNat :=
    State.store_bytes lit none (p + 56) (leBytes 8 Config.shaMarker.toNat) (by decide)
  have h' : slice (s.bytes p 64) 56 8 = s.bytes (p + 56) 8 := by
    simp only [slice, State.bytes_eq]
    rfl
  unfold shaValid
  rw [show shaSize false - 8 = 56 from rfl, h', h, leNat_leBytes]
  rw [Nat.mod_eq_of_lt (show Config.shaMarker.toNat < 256 ^ 8 from Config.shaMarker.isLt)]
  simp

/-- A key of eight bytes; an empty Session Store, and one with the key in the first way of its bucket. -/
theorem meets_session : let s := lit |> setG 0 1 0x100 |> setG 0 2 8
    let key := s.bytes (dsramBase 0 + 0x100) 8
    let s' := run (exec (.sins 0 5 1 2)) s
    s.targetFrozen 8 false = false ∧ (placeOf s 0 0x100 32).isSome = true ∧
    (sessionBucket key).all (fun i => !s.sessionHolds i key) = true ∧
    (sessionBucket key).all (fun i => !s.sessionBad i && !(s.byte (sessionArea i)).getLsbD 0) = true ∧
    ((sessionBucket key)[0]?).any (fun i => s'.sessionHolds i key) = true := by decide +kernel

theorem meets_session_full : let key := lit.bytes (dsramBase 0 + 0x100) 8
    let s := (sessionBucket key).foldl (fun s i => s.store none (sessionArea i) [1]) lit
    (sessionBucket key).all (fun i => !s.sessionHolds i key && (s.byte (sessionArea i)).getLsbD 0) = true := by
  decide +kernel

theorem meets_farx : let s := (handler.put Fld.ANX_VID_VID 0xFFFF)
    let ok := ((s.put Fld.ANX_CTL_EN 0x81).put Fld.GL_LINK_STS_STATE 2).modFunc 0 (fun f => { f with bme := true })
    s.farOk 7 = false ∧ EntryOk s 0 8 ∧ ok.farOk 0 = true ∧ ok.farOk 7 = true ∧ ok.linkState = 2 ∧ ok.link.exitAt = none ∧
    (ok.put Fld.GL_LINK_STS_STATE 4).farOk 7 = true ∧ (ok.put Fld.GL_LINK_STS_STATE 4).linkState = 4 := by
  unfold EntryOk EntrySpace Elastic Clean; decide +kernel

theorem meets_far_answer : let r : FarReq := { tag := farTag 0 0 5 7, rd := 3, sentAt := 0 }
    let s := atNs 1000 ((handler.put Fld.ANX_VID_VID 0x1234).modThr 0 (fun th => { th with tstate := .farWait, far := some r }))
    (s.thr 0).tstate = .farWait ∧ (s.thr 0).far = some r ∧ bitsGet r.tag 0 11 = 0 ∧ (lit.thr 0).tstate ≠ .farWait ∧
    (0x1235 : BitVec 16).toNat ≠ s.get Fld.ANX_VID_VID ∧
    r.sentAt + 1000 * max 1 ((s.put Fld.ANX_TMO_US 1).get Fld.ANX_TMO_US) ≤ s.now ∧ EntrySpace s 0 9 := by
  unfold EntrySpace Elastic Clean; decide +kernel

/-! ### The registers of the I/O space -/

/-- The link to the partner die is Active. -/
def linked : State := lit.put Fld.GL_LINK_STS_STATE 2

theorem meets_write : writeOf (.tbStep rq0 5) = some (rq0, Reg.TB_STEP_LO, 5) ∧ lit.postWaits Reg.TB_STEP_LO 5 = false ∧
    (∃ d k b, Serves lit rq0 Reg.TB_STEP_LO true d k b) ∧ (∃ d k b, Serves linked (.pf 0) Reg.TB_STEP_LO true d k b) ∧
    (∃ d k b, Serves lit .sideband Reg.LL_CMD true d k b) := by
  refine ⟨rfl, by decide +kernel, serves_any ?_, serves_any ?_, serves_any ?_⟩ <;> decide +kernel

theorem meets_read : readOf (.tyPop rq0) = some (rq0, Reg.TY_POP) ∧ (∃ d k b, Serves lit rq0 Reg.TY_POP false d k b) := by
  exact ⟨rfl, serves_any (by decide +kernel)⟩

/-- A BAR's access to a place without a register, and one outside its route. -/
theorem meets_bar_miss : linked.routeLive (.pf 0) = true ∧ findReg 0xE8000 = none ∧ linked.blockAsleep 0xE8000 = none ∧
    routeOk (.pf 1) 0xFF0000 = false := by decide +kernel

theorem meets_fields : ∃ d k b, Serves lit rq0 Reg.PO_DFLT true d k b ∧
    (b / 0x10000 ∈ [0x02, 0x0C, 0x0E] ∧ lit.writeDiscarded d.base b = none ∧
      d.base ∉ [Reg.PO_DROP_MBF, Reg.PO_DROP_DEST, Reg.PO_DROP_P]) := by
  obtain ⟨d, k, b, h, p⟩ := serves_of (s := lit) (rq := rq0) (a := Reg.PO_DFLT) (w := true)
    (p := fun d _ b => decide (b / 0x10000 ∈ [0x02, 0x0C, 0x0E] ∧ lit.writeDiscarded d.base b = none ∧
      d.base ∉ [Reg.PO_DROP_MBF, Reg.PO_DROP_DEST, Reg.PO_DROP_P])) (by decide +kernel)
  exact ⟨d, k, b, h, of_decide_eq_true p⟩

/-- A register whose S fields a running block keeps. -/
theorem meets_stopped : (lit.put Fld.PO_CTL_EN 1).stoppedFor Reg.PO_FBSW 0 0xFFFFFFFF = false ∧
    ((findReg Reg.PO_FBSW).any (fun x => x.1.fields.any (fun f => f.acc == .rw && f.upd == .stopped &&
      Says.fieldOf f 0xFFFFFFFF != Says.fieldOf f (lit.reg Reg.PO_FBSW)))) = true := by decide +kernel

theorem meets_rc : ∃ d k b, Serves lit rq0 Reg.TB_XMEAS false d k b ∧
    (pairLows.contains d.base = false ∧ isPairHi b = false ∧ d.base ∉ [Reg.TY_POP, Reg.PT_TXTSID, Reg.CO_SLACK]) := by
  obtain ⟨d, k, b, h, p⟩ := serves_of (s := lit) (rq := rq0) (a := Reg.TB_XMEAS) (w := false)
    (p := fun d _ b => decide (pairLows.contains d.base = false ∧ isPairHi b = false ∧
      d.base ∉ [Reg.TY_POP, Reg.PT_TXTSID, Reg.CO_SLACK])) (by decide +kernel)
  exact ⟨d, k, b, h, of_decide_eq_true p⟩

theorem meets_pair : (BitVec.ofNat 24 Reg.GL_WIN_SRC_HI).toNat = (BitVec.ofNat 24 Reg.GL_WIN_SRC_LO).toNat + 4 ∧
    pairLows.contains Reg.GL_WIN_SRC_LO = true ∧ (∃ d k b, Serves lit rq0 Reg.GL_WIN_SRC_LO true d k b) ∧
    (∃ d k b, Serves lit rq0 Reg.GL_WIN_SRC_HI true d k b) ∧ (∃ d k b, Serves lit rq0 Reg.TB_NOW_LO false d k b) := by
  refine ⟨rfl, rfl, serves_any ?_, serves_any ?_, serves_any ?_⟩ <;> decide +kernel

/-! ### The Timebase -/

theorem meets_timebase : (∃ d k b, Serves lit rq0 Reg.TB_STEP_LO true d k b) ∧ (∃ d k b, Serves lit rq0 Reg.TB_SET_LO true d k b) ∧
    (∃ d k b, Serves lit rq0 Reg.TB_SLEW true d k b) ∧ (∃ d k b, Serves lit rq0 Reg.TB_DISC true d k b) ∧
    lit.get Fld.TB_STS_LOCKED = 0 := by
  refine ⟨serves_any ?_, serves_any ?_, serves_any ?_, serves_any ?_, ?_⟩ <;> decide +kernel

/-- The Timebase disciplined by PPS. -/
def pps : State := ({ lit with tb := { lit.tb with now := 3000000100 } }).put Fld.TB_CTL_MODE 1

theorem meets_pps : lit.dieOn = true ∧ true ≠ lit.flag Fld.TB_CTL_PPSPOL ∧ lit.flag Fld.TB_CTL_MODE = false ∧
    pps.dieOn = true ∧ true ≠ pps.flag Fld.TB_CTL_PPSPOL ∧ pps.flag Fld.TB_CTL_MODE = true ∧ pps.tb.ppsFirst = true ∧
    (ppsError pps.tb.now).natAbs ≤ pps.get Fld.TB_PPSCFG_STEPLIM * 1000 := by decide +kernel

theorem meets_pps_late : let s := atNs 1500000000 ({ pps with tb := { pps.tb with ppsFirst := false, ppsAt := some 0 } })
    s.tb.ppsFirst = false ∧ s.tb.ppsAt = some 0 ∧ 0 + 1000000000 + 1000 * s.get Fld.TB_PPSCFG_WIN < s.now ∧
    0 + 1500000000 ≤ s.now ∧ 0 + 3500000000 ≤ (atNs 3500000000 s).now ∧ lit.reg Reg.TB_SLEW = 0 := by decide +kernel

/-! ### The Crier, threads -/

theorem meets_software : (∃ d k b, Serves lit rq0 (Reg.CR_SWSET + 28) true d k b) ∧
    (∃ d k b, Serves lit rq0 Reg.CR_SWCLR true d k b) ∧ (∃ d k b, Serves linked (.pf 0) (Reg.CR_TCMPL + 16 * 2047) true d k b) ∧
    ((lit.setSrc 255 { lit.src 255 with claimed := some 2047, asserted := true }).src 255).claimed = some 2047 := by
  refine ⟨serves_any ?_, serves_any ?_, serves_any ?_, ?_⟩ <;> decide +kernel

/-- Source 768 is pending at level 15 for thread 0, which can enter its handler. -/
def offered : State := (((handler.put Fld.CR_SCFG_LEVEL 15 (8 * 768)).setReg Reg.CR_GRP 1).edge 768)

theorem meets_interrupt : (offered.bestOffer 0).any (fun o => decide (o.level = 15)) = true ∧ offered.atBoundary 0 = true ∧
    (offered.thr 0).resume = none ∧ (offered.thr 0).tstate ≠ .meteredRun ∧ EntrySpace offered 0 (32 + 15) ∧
    handler.bestOffer 0 = none := by
  unfold EntrySpace Elastic Clean; decide +kernel

theorem meets_hold_off : let s := atNs 192 ((lit.put Fld.CR_SMOD_HOLD 3 (8 * 768)).setSrc 768
      { lit.src 768 with pend := true, heldAt := some 0, cnt := 1 })
    (s.src 768).pend = true ∧ s.srcHold 768 ≠ 0 ∧ (s.src 768).heldAt = some 0 ∧ 0 + 64 * s.srcHold 768 ≤ s.now ∧
    (let o : Standing := ⟨0, 768, 15, 0, 0⟩
     let u := (offered.modThr 0 (fun th => { th with st := bitsSet th.st 4 4 15 })).modCrier (fun c => { c with offers := [o] })
     u.stands o = true ∧ u.candidate o.level 0 = false ∧ lit.crier.offers = []) := by
  decide +kernel

theorem meets_reset : let s := handler.modThr 0 (fun th => { th with vbase := 0x7FFC })
    s.threadOn 0 = true ∧ s.coreRetired 0 = false ∧ s.coreMetered 0 = false ∧ (s.thr 0).vbase.toNat + 4 ≤ 0x8000 ∧
    (sramWord s 0 (s.thr 0).vbase.toNat).toNat % 4 = 0 ∧ linked.blockRetired (Reg.CO_TCTL + thOff 0) = false := by decide +kernel

theorem meets_rst : ∃ d k b, Serves linked (.pf 0) (Reg.CO_TCTL + thOff 0) true d k b := serves_any (by decide +kernel)

theorem meets_timeout : let s := atNs 5 (handler.modThr 0 (fun th =>
      { th with wtmo := 5, waitAt := some (0, true), tstate := .wait }))
    (s.thr 0).waitAt = some (0, true) ∧ (s.thr 0).tstate = .wait ∧ (s.thr 0).wtmo ≠ 0 ∧ 0 + (s.thr 0).wtmo.toNat ≤ s.now ∧
    s.awake 0 = true ∧ s.copyWriting 0 = false ∧ s.bestOffer 0 = none ∧ EntrySpace s 0 11 ∧
    ((lit.modCore 511 (fun k => { k with ltimer := some 0 })).core 511).ltimer = some 0 := by
  unfold EntrySpace Elastic Clean; decide +kernel

theorem meets_boundary : (findReg Reg.PO_DFLT).any (fun x => x.1.base != Reg.CO_CTL) = true ∧ Reg.PO_DFLT ≠ Reg.PS_BANK ∧
    Reg.PO_DFLT / 0x10000 ≠ 0x0D := by decide +kernel

/-! ### Host queues and the link -/

/-- Queue 5 with 64 entries in each ring runs. -/
def queue : State := (run (execQueueStart rq0 5 0xC60) linked).modFunc 0 (fun f => { f with bme := true, msixEn := true })
def slot5 : Nat := hqOff 5

theorem meets_queue_control : (∃ d k b, Serves linked rq0 (Reg.HQ_CFG + slot5) true d k b) ∧
    (∃ d k b, Serves linked rq0 (Reg.HQ_DB + slot5) true d k b) ∧ linked.get Fld.HQ_STS_RUN slot5 = 0 ∧
    queue.get Fld.HQ_STS_RUN slot5 = 1 ∧ (queue.hq 5).desc = none ∧ (queue.hq 5).reading = none ∧ (queue.hq 5).staged = [] ∧
    (queue.hq 5).rx = [] ∧ queue.cqSize 5 = 64 := by
  refine ⟨serves_any ?_, serves_any ?_, ?_⟩ <;> decide +kernel

theorem meets_queue_valid : ((reach rq0 (Reg.HQ_CFG + slot5)).map (fun x =>
      ((linked.storeReg x.1 x.2.1 x.2.2 0xC61).hqValid 5, (linked.storeReg x.1 x.2.1 x.2.2 1).hqValid 5))) =
    some (true, false) := by decide +kernel

def noDesc : List Byte := [0, 1] ++ List.replicate 62 0
def badDesc : List Byte := [9, 1] ++ List.replicate 62 0
def txDesc : List Byte := [1, 0, 0, 0, 20, 0, 2, 1] ++ List.replicate 56 0
def msgDesc : List Byte := [2, 0, 0, 0, 20, 0, 2, 1] ++ List.replicate 56 0

/-- Queue 5 with three descriptors to read, ports in service. -/
def posted : State := ((run (execSqtail rq0 5 3) queue).put Fld.PT_CTL_EN 1 (ptOff 2)).put Fld.PT_STS_LINK 1 (ptOff 2)

theorem meets_descriptors : posted.promptWaits = false ∧ posted.link.stopping = [] ∧ (posted.hq 5).failed = false ∧
    (posted.hq 5).reading = none ∧ posted.tagsFree 5 1 = true ∧ posted.linkState = 2 ∧ posted.hqValid 5 = true ∧ posted.hqRun 5 = true ∧ posted.hqMoves 5 = true ∧
    posted.on Fld.HQ_CFG_SWQ slot5 = false ∧ posted.cfg Fld.HQ_CFG_SQSZ slot5 ≠ 0 ∧ (posted.hq 5).desc = none ∧
    posted.get Fld.HQ_SQPOS_HEAD slot5 ≠ posted.get Fld.HQ_SQPOS_TAIL slot5 ∧ 1 ≤ posted.cqRoom 5 ∧
    (noDesc.length = 64 ∧ posted.descCheck noDesc = 0) ∧ (badDesc.length = 64 ∧ posted.descCheck badDesc ≠ 0) := by decide +kernel

/-- The read of the next descriptor is outstanding. -/
def reading : State := run (execSqDescriptor 5 none) posted

theorem meets_read_outstanding : reading.hqValid 5 = true ∧ reading.promptWaits = false ∧ reading.link.stopping = [] ∧
    (reading.hq 5).failed = false ∧ (reading.hq 5).desc = none ∧ (reading.hq 5).reading.isSome = true ∧
    reading.hqMoves 5 = true ∧ 1 ≤ reading.cqRoom 5 ∧ reading.descCheck noDesc = 0 ∧ reading.descCheck badDesc ≠ 0 := by
  decide +kernel

/-- The descriptor is held. -/
def holding (d : List Byte) : State := run (execSqDescriptor 5 (some d)) reading

theorem meets_held : (∀ d ∈ [noDesc, txDesc, msgDesc], (holding d).hqValid 5 = true ∧ (holding d).hqMoves 5 = true ∧
      ((holding d).hq 5).desc = some (d, 0) ∧ ((holding d).hq 5).failed = false ∧ (holding d).link.stopping = [] ∧
      ((holding d).hq 5).got = none ∧ (holding d).promptWaits = false ∧ (holding d).descRoom 5 d 0 = true ∧
      (holding d).tagsFree 5 ((holding d).tagsFor 5 (descAddr d) (descLen d)) = true) ∧
    descOp noDesc = 0 ∧ descOp txDesc = 1 ∧ descOp msgDesc = 2 := by decide +kernel

theorem meets_frames_held : let s := holding msgDesc
    s.findCells 17 (cellsOf 20) = some 17 ∧ (some_ 20).length = descLen msgDesc ∧ s.fits (descCls msgDesc) (cellsOf 20) = true ∧
    Memory.wf s.mem ∧ s.egressUsed (descPort txDesc) (descCls txDesc) < 256 ∧ destOf (descDest msgDesc) = .thread 0 ∧
    s.placeOk (descCls msgDesc) (s.resolveDest (descCls msgDesc) 3 (descDest msgDesc)) = true ∧
    s.takesHeaders 0 = true ∧ s.gated 0 = false ∧ (s.thr 0).mailbox.length < 8 ∧ s.porter.store = [] := by decide +kernel

/-- The data's read is outstanding. -/
theorem meets_data_read : (let s := run (execMsg 5 17 none) (holding msgDesc)
      (s.hq 5).got.isSome = true ∧ (s.hq 5).desc = some (msgDesc, 0) ∧ s.hqMoves 5 = true ∧ s.targetFrozen 9 false = false ∧
      s.descRoom 5 msgDesc 0 = true ∧ Memory.wf s.mem ∧ (s.hq 5).failed = false ∧ s.takesHeaders 0 = true) ∧
    (let s := run (execTx 5 17 none) (holding txDesc)
     (s.hq 5).got.isSome = true ∧ (s.hq 5).desc = some (txDesc, 0) ∧ s.descRoom 5 txDesc 0 = true) := by decide +kernel

/-- A posting block at 0x1000 of the frame buffer that names 24 bytes at its start. -/
def post : State := (queue.store none (frameBase + 0x1000)
  (leBytes 4 24 ++ [0, 0, 0, 0] ++ leBytes 8 frameBase ++ some_ 32)).store none frameBase (some_ 64)

theorem meets_post : (∃ d k b, Serves post rq0 (Reg.HQ_POST + slot5) true d k b) ∧ (post.postBlock 0x1000).isSome = true ∧
    post.postWaits (Reg.HQ_POST + slot5) 0x1000 = false ∧ post.promptWaits = false ∧ (post.hq 5).staged = [] ∧ post.hqValid 5 = true ∧
    post.hqRun 5 = true ∧ post.hqMoves 5 = true ∧ post.nslot 5 24 = 1 ∧ 1 ≤ post.cqRoom 5 ∧ post.postBlock 0xF0000000 = none := by
  refine ⟨serves_any ?_, ?_⟩ <;> decide +kernel

theorem meets_rx : let x : RxWait := { hdr := { len := 24, cls := 1 }, slot := none }
    nextRx ((post.modHq 5 (fun y => { y with rx := [x] })).hq 5).rx = some x ∧ x.slot = none ∧ post.nslot 5 24 = 1 ∧
      (post.modHq 5 (fun y => { y with rx := [x] })).promptWaits = false ∧ post.targetFrozen 9 false = false := by
  decide +kernel

theorem meets_msix : let s := atNs 192 (((queue.put Fld.HQ_MOD_HOLD 3 slot5).setVec 5
      { queue.vec 5 with ctrl := 0, heldAt := some 0, cnt := 1 }))
    (s.vec 5).heldAt = some 0 ∧ s.cfg Fld.HQ_MOD_HOLD slot5 = 3 ∧ 0 + 64 * 3 ≤ s.now ∧ MaySend s 5 ∧
    ((s.setVec 5 { s.vec 5 with ctrl := 1, pend := true }).vec 5).pend = true := by
  unfold MaySend; decide +kernel

theorem meets_bar : linked.dieOn = true ∧ linked.linkUsable = true ∧ linked.link.bars = [] ∧
    linked.postWaits 0xC0060 5 = false ∧ barReg 0 0xC0060 = some 0xC0060 ∧
    barFrame 0 0xC0060 4 = false ∧ barFrame 0 0x2000000 1 = true ∧ barFrame 0 0x3FFFFF8 8 = true ∧
    linked.targetFrozen 9 false = false ∧ (0x7FFC : Nat) % 4 = 0 ∧ ¬ (0x14 : Nat) % 16 = 12 := by decide +kernel

/-- A load of the host window that waits for its bytes. -/
theorem meets_host_read : let r : HostRead := { instr := .ldd 0 1 2 0 0, va := 0x800000000000, fn := 0, pa := 0, len := 8, sentAt := 0 }
    let s := linked.modThr 0 (fun th => { th with hostRd := some r })
    (s.thr 0).hostRd = some r ∧ (encodeWord r.instr).isSome = true ∧ s.linkUsable = true ∧
    r.sentAt + ctoNs (s.func r.fn).cto ≤ (atNs (10 ^ 11) s).now := by decide +kernel

theorem meets_links : lit.dieOn = true ∧ lit.linkState = 0 ∧ (lit.modLink (fun l => { l with attempts := 2 })).link.attempts = 2 ∧
    lit.hqs = [] ∧ linked.linkState = 2 ∧
    (let s := (linked.put Fld.LL_STS_DSTATE 4).put Fld.GL_LINK_CTL_L1EN 1
     s.dstate = 4 ∧ s.flag Fld.GL_LINK_CTL_L1EN = true ∧ s.flag Fld.GL_LINK_STS_L1BLK = false ∧ s.linkIdle = true) ∧
    (lit.put Fld.GL_LINK_STS_STATE 4).linkState = 4 ∧
    (let s := atNs 10000000 (lit.put Fld.GL_LINK_STS_STATE 6)
     s.linkState = 6 ∧ s.link.since + 10000000 ≤ s.now) := by decide +kernel

theorem meets_no_host_reads : ∀ t, (State.thr { lit with threads := [] } t).hostRd = none := by
  intro t
  unfold State.thr
  rw [show ({ lit with threads := [] } : State).threads = [] from rfl]
  simp only [tblGet, Option.getD_none]
  unfold Thread.initial
  split <;> rfl

/-! ### Ports, Porter, Toll -/

def frame0 : RxFrame := { bytes := some_ 64, fcsOk := true, corrected := 0, uncorrectable := 0, cell := 7 }

theorem meets_receive : port2.portInService 2 = true ∧ port2.flag Fld.PT_STS_LINK (ptOff 2) = true ∧
    (some_ 59).length + 4 < 64 ∧ 9220 < (List.replicate 9217 (0 : Byte)).length + 4 ∧ 64 ≤ (some_ 60).length + 4 ∧
    (List.replicate 9216 (0 : Byte)).length + 4 ≤ 9220 ∧ isPfcFrame frame0.bytes = false ∧ port2.porter.ingress = [] ∧
    port2.targetFrozen 8 false = false ∧ port2.targetFrozen 9 false = false ∧ port2.targetFrozen 9 true = false := by decide +kernel

/-- A frame on port 2 whose walk ends with a parse error, for thread 0. -/
theorem meets_delivery :
    let s := (port2.put Fld.PO_CTL_EN 1).setReg Reg.PO_ERRDST 0
    let s1 := counted s 2 frame0
    let bank := s1.cfg Fld.PO_CTL_GBANK
    let s2 := s1.put Fld.PO_STS_BANK bank
    let w := s2.walk 2 bank frame0.bytes 16 (s2.startNode 2) {}
    let h : Header := { len := 64, port := 2, payoff := BitVec.ofNat 16 w.off, rxts := s1.rxStamp 2 64, vlan := false, tci := 0 }
    let r := s2.classify w h none
    let m := r.2.meterFrame 2 r.1.cls 64 (if r.1.hdr.noSess then none else some r.1.hdr.session.toNat)
    s.flag Fld.PO_CTL_EN = true ∧ s.holding = false ∧ s.darkening = false ∧ vlanTci frame0.bytes = none ∧
    r.1.drop = false ∧ destOf r.1.code = .thread 0 ∧ r.1.cls ∈ [1, 2, 3] ∧ m.1 = false ∧
    m.2.findCells 7 (cellsOf 64) = some 7 ∧ m.2.fits r.1.cls (cellsOf 64) = true ∧ m.2.placeOk r.1.cls r.1.code = true ∧ m.2.porter.store = [] ∧
    m.2.takesHeaders 0 = true ∧ m.2.gated 0 = false ∧ (m.2.thr 0).mailbox.length < 8 ∧ Memory.wf m.2.mem := by decide +kernel

theorem meets_held_header : let x : HeldHdr := { thread := 0, hdr := {} }
    let s := port2.modPorter (fun y => { y with store := [x] })
    s.redirectHeld = s ∧ s.porter.store.find? (fun y => y.thread == 0) = some x ∧ (s.thr 0).mailbox.length < 8 := by
  decide +kernel

/-- A frame of 20 bytes waits at port 2 in class 1. -/
def sending : State := (port2.modPort 2 (fun x => { x with
  q1 := [{ addr := frameBase, len := 20, src := .queue 5, at_ := 0 }] })).store none frameBase (some_ 20)

theorem meets_sending : sending.portSends 2 = true ∧ sending.flag Fld.PT_CTL_PGUARD (ptOff 2) = false ∧
    sending.flag Fld.PT_CTL_TAGUPD (ptOff 2) = false ∧ sending.flag Fld.PT_CTL_PTPEN (ptOff 2) = false ∧
    (((sending.fillShapers 2).egressFields 2).fillShapers 2).nextClass 2 = some 1 ∧ (sending.egressQ 2 1).length = 1 ∧
    (sending.egressQ 2 1).all (fun f => decide (sending.sourceAsleep f = none) && !sending.sourceFrozen 1 f) = true := by decide +kernel

theorem meets_pause : keysRise (port2.port 2).pausedUntil = true ∧
    (let s := port2.modPort 2 (fun x => { x with pausedUntil := [(3, 0), (7, 0)] })
     tblGet (s.port 2).pausedUntil 7 = some 0 ∧ 0 ≤ s.now ∧ keysRise (s.port 2).pausedUntil = true) ∧
    (let s := atNs 100000 ((port2.put Fld.PT_PFC_QUANTA 100 (ptOff 2)).modPort 2 (fun x => { x with pausing := true }))
     (s.port 2).pausing = true ∧ (s.port 2).pauseAt + s.pauseNs (s.get Fld.PT_PFC_QUANTA (ptOff 2)) / 2 ≤ s.now) := by
  decide +kernel

theorem meets_port_links : let down := (lit.put Fld.PT_CTL_EN 1 (ptOff 2)).put Fld.LG_STS_OUT 1
    let lpi := (port2.put Fld.PT_CTL_LPIEN 1 (ptOff 2)).put Fld.PT_STS_LPIOK 1 (ptOff 2)
    (down.flag Fld.PT_CTL_EN (ptOff 2) = true ∧ down.flag Fld.LG_STS_OUT = true ∧ down.portInService 2 = true ∧ down.get Fld.PT_STS_LINK (ptOff 2) = 0 ∧ (down.arrives 10).1 = true) ∧
    port2.get Fld.PT_STS_LINK (ptOff 2) = 1 ∧ lpi.egressIdle 2 = true ∧ (lpi.port 2).pausing = false ∧ (port2.arrives 10).1 = true ∧ sending.egressIdle 2 = false ∧
    (sending.put Fld.PT_STS_LPI 1 (ptOff 2)).get Fld.PT_STS_LPI (ptOff 2) = 1 ∧
    16 ≤ (((port2.modPort 2 (fun x => { x with uncAt := List.replicate 16 0 })).port 2).uncAt.filter
      (fun t => decide (port2.now ≤ t + 1000000))).length := by decide +kernel

theorem meets_arbiters : let req : List ArbRequest := [⟨.core 3, 0, 1⟩, ⟨.tally, 1, 2⟩]
    let x := lit.arrive (.fabric 8 0) ((lit.arb (arbKey (.fabric 8 0))).answer []) req
    lit.arbStopped (.fabric 8 0) = false ∧ lit.escapeReady 8 = false ∧ x.waiting.length = 2 ∧
    x.waiting.any (fun w => (lit.entryFor 8 w.cls x.out).isSome) = true ∧
    lit.arbStopped (.cluster 0) = false ∧ (lit.arrive (.cluster 0) {} req).waiting ≠ [] ∧ lit.arbStopped (.cluster 63) = true ∧
    lit.arbStopped (.annex 0 0) = false ∧ (lit.arrive (.annex 0 0) { out := [⟨1, 0, false, none, 7⟩] } req).waiting ≠ [] := by decide +kernel

theorem meets_starving : let s := atNs 6 ((run (execArbiterGrant (.fabric 8 0) [⟨.tally, 0, 1⟩, ⟨.assay, 0, 1⟩] []) lit).put Fld.TL_STCFG_LIMIT 5)
    ((s.arb (arbKey (.fabric 8 0))).waiting.find? (fun v => v.input == 48)).any (fun w => decide (w.at_ + 5 < s.now)) = true ∧
    s.get Fld.TL_STCFG_LIMIT = 5 := by decide +kernel

/-! ### The Prompt scheduler, Metered runs, the Accord -/

def message : PromptMsg := { group := 3, hdr := { session := 9, len := 100, fboff := 256 }, since := 0, rxAt := 0 }

/-- Service runs; slot 0 of the bank in effect is the slot of pair 0 and group 3, whose message waits. -/
def slotted : State :=
  let s := ((metered.put Fld.PS_CTL_EN 1).put Fld.LG_STS_OUT 1).setPair 0 { metered.pair 0 with phase := .idle }
  let s := (List.range 64).foldl (fun (s : State) c => s.setLoaded c true) s
  let s := [1536, 1792].foldl (fun (s : State) t => s.modThr t (fun th => { th with tstate := .meteredIdle })) s
  (s.setReg Reg.PS_BA (BitVec.ofNat 32 (0x8000 + 64 * 3))).modPrompt (fun x => { x with waiting := [message] })

theorem meets_slots : slotted.holding = false ∧ slotted.prompt.seriesAt ≤ slotted.now * 1000 ∧ slotted.flag Fld.PS_STS_SWPEND = false ∧ slotted.flag Fld.PS_CTL_EN = true ∧ slotted.meteredRole = true ∧
    slotted.flag Fld.LG_STS_OUT = true ∧ slotted.slotEntry slotted.activeBank 0 = some (0, 3) ∧
    (slotted.modPrompt (fun x => { x with slot := 255 })).slotEntry 0 255 = none ∧ slotted.oldest 3 = some message ∧
    slotted.pairFree (slotted.serving 0) = true ∧
    (slotted.setPair 0 { slotted.pair 0 with phase := .running }).pairFree 0 = false := by decide +kernel

theorem meets_handler_entry : let s := atNs 40 (metered.setPair 0 { phase := .dispatched, msg := some message })
    (s.pair 0).phase = .dispatched ∧ (s.pair 0).msg = some message ∧ (s.pair 0).dispAt + 40 ≤ s.now := by decide +kernel

theorem meets_switch_and_fallback :
    ((slotted.put Fld.PS_BANK_SEL 1).put Fld.PS_STS_SWPEND 1).flag Fld.PS_STS_SWPEND = true ∧ slotted.prompt.slot = 0 ∧
    slotted.prompt.seriesAt ≤ slotted.now * 1000 ∧
    (let s := atNs 1001 (((slotted.setReg Reg.PS_FBWAIT 1).setEff Reg.PS_FBWAIT 1).setEff (Reg.PS_GFB + 48) 0)
     s.oldest 3 = some message ∧ s.cfg Fld.PS_FBWAIT_US ≠ 0 ∧ message.since + 1000 * s.cfg Fld.PS_FBWAIT_US < s.now ∧
      s.porter.store = [] ∧ destOf (s.cfg Fld.PS_GFB_DEST (16 * message.group)) = .thread 0 ∧ s.takesHeaders 0 = true ∧
      s.gated 0 = false ∧ (s.thr 0).mailbox.length < 8) := by decide +kernel

theorem meets_conditions : (8 : BitVec 4).toNat < 9 ∧ (List.range 9).any (fun n => metered.fillPrompt.condFails n) = true ∧
    (List.range 9).any (fun n => !metered.fillPrompt.condFails n) = true := by decide +kernel

theorem meets_budget : let s := metered.modCore 384 (fun k => { k with beats := 1001 })
    (s.thr 1536).tstate = .meteredRun ∧ (s.core 384).budget < (s.core 384).beats := by decide +kernel

/-- One Twin of pair 0 stands at its DONE, the other 8 beats later is not there. -/
def alone : State :=
  let s := metered.modCore 384 (fun k => { k with doneAt := some (5, 0) })
  s.modCore 448 (fun k => { k with beats := 13 })

theorem meets_runs : let one := alone
    ((one.pair 0).phase = .running ∧ (one.pair 0).second = false ∧ (one.core 384).doneAt = some (5, 0) ∧
      (one.core 448).doneAt = none ∧ 5 + 8 ≤ (one.core 448).beats ∧ NoFaults one) ∧
    (let s := metered.setPair 0 { phase := .stopped, msg := some message }
     (s.pair 0).phase = .stopped ∧ (s.pair 0).msg = some message ∧ s.holding = false) ∧
    4096 ≤ ((metered.modCore 384 (fun k => { k with beats := 4096 })).core 384).beats ∧ (metered.core 448).doneAt = none := by
  unfold NoFaults; decide +kernel

/-- The other Twin stands at DONE with the signature that thread 1536 will have. -/
def twinDone : State := metered.modCore 448 (fun k => { k with doneAt := some (7, signature (metered.thr 1536) 1) })

theorem meets_accord : Ready twinDone 1536 ∧ (1536 : Tid).toNat = 4 * 384 ∧ (twinDone.pair 0).phase = .running ∧
    twinDone.sendsPending 1536 = false ∧ (twinDone.core 384).cbuf = (twinDone.core 448).cbuf ∧
    (twinDone.core 384).beats + 1 ≤ 7 + 8 ∧ 7 ≤ (twinDone.core 384).beats + 9 := by
  unfold Ready; decide +kernel

theorem meets_accord_signature : (twinDone.core 448).doneAt = some (7, signature (metered.thr 1536) 1) := rfl

theorem meets_release : ∀ e ∈ [(⟨0, 0xFF, 0x10000040, 0x1122334455667788, 0⟩ : CbEntry), ⟨2, 0xFF, 0x10000040, 0, 3⟩,
      ⟨6, 0xFF, 0x10000040, 0x20040, 0⟩],
    let s := (metered.setPair 0 { metered.pair 0 with phase := .releasing }).modCore 384 (fun k => { k with cbuf := [e] })
    (s.pair 0).phase = .releasing ∧ (s.core 384).cbuf = [e] ∧ s.releaseWait 384 e = .go := by decide +kernel

/-! ### The Tally -/

/-- Four sub-rings of 64 items in the frame buffer, enabled. -/
def rings : State := ((lit.put Fld.TY_CTL_EN 15).setReg (Reg.TY_RCFG + 8) 10).setReg Reg.TY_TPRI0 0x66666666

def item : List (BitVec 32) := (List.range 8).map (fun i => BitVec.ofNat 32 (i + 100))

theorem meets_reader : let s := rings.modTally (fun x => { x with rings := [(3, { items := [item, item] })] })
    (∃ d k b, Serves s rq0 Reg.TY_POP false d k b) ∧ (∃ d k b, Serves s rq0 Reg.TY_DROP true d k b) ∧
    (s.tally.reader = none ∧ (s.ring 3).items = item :: [item] ∧ (∀ q, q < 3 → (s.ring q).items = []) ∧
      s.tally.broken = none ∧ (s.modTally (fun x => { x with reader := some 3 })).tally.reader = some 3) := by
  refine ⟨serves_any ?_, serves_any ?_, ?_⟩ <;> decide +kernel

theorem meets_push : let s := rings.store none (frameBase + 0x1000) ([0, 0xC0] ++ some_ 62)
    (∃ d k b, Serves s rq0 Reg.TY_PUSH true d k b) ∧
    (blockRef 0x1006 = some (frameBase + 0x1000) ∧ bitsGet (0x1006 : Word32) 0 2 = 2 ∧ bitsGet (0x1006 : Word32) 2 3 + 1 = 2 ∧
      blockPlace (frameBase + 0x1000) 64 = true ∧ 0xC0 ≤ (s.byte (frameBase + 0x1000 + 1)).toNat ∧ s.ringOn 2 = true ∧
      (s.ring 2).items.length + 2 ≤ s.ringSize 2) := by
  refine ⟨serves_any ?_, ?_⟩ <;> decide +kernel

theorem meets_measures : let late := atNs 1000000
    (let s := late (rings.put Fld.TY_SCFG_PER 1000)
     s.dieOn = true ∧ rings.dieOn = true ∧ s.get Fld.TY_SCFG_PER ≠ 0 ∧ s.tally.sensorAt + 1000 * s.get Fld.TY_SCFG_PER ≤ s.now) ∧
    (let s := late (rings.put Fld.TY_ADCCTL_RECPER 1)
     s.get Fld.TY_ADCCTL_RECPER ≠ 0 ∧ s.tally.adcRecAt + 1000000 * s.get Fld.TY_ADCCTL_RECPER ≤ s.now) ∧
    (let s := rings.put Fld.TY_ADCCTL_CHEN 0x8000
     s.adcDue = some 15 ∧ s.get Fld.TY_ADCCTL_AVG = 0 ∧ s.adcChan 15 = {}) ∧
    (let s := ((rings.put Fld.TY_CE_MODE 2 380).put Fld.TY_CE_EDGE 3 380).put Fld.TB_STS_PLLLOCK 1
     s.get Fld.TY_CE_MODE (4 * 95) = 2 ∧ bitOf (s.get Fld.TY_CE_EDGE (4 * 95)) 1 = true ∧ s.tbTicks = true ∧ (s.arrives (32 + 95)).1 = true ∧
      (let u := (s.setReg Reg.TY_PWM_PER 100).setEff Reg.TY_PWM_PER 100
       u.cfg Fld.TY_PWM_PER_NS 0 = 100 ∧ ({ u with tb := { u.tb with now := 300 } } : State).tbTicks = true)) ∧
    (let s := late (rings.put Fld.TY_HCTL_PER 1)
     s.get Fld.TY_HCTL_PER ≠ 0 ∧ s.tally.snapAt + 1000000 * s.get Fld.TY_HCTL_PER ≤ s.now ∧ keysRise s.tally.hists = true) ∧
    (let s := late (rings.modTally (fun x => { x with meters := [(1023, { exc := 9, drops := 3 })] }))
     (s.meter 1023).exc ≠ 0 ∧ ((tblGet s.tally.meterAt 1023).getD 0) + 1000000 ≤ s.now) ∧
    rings.route 1 = (true, 2) ∧ rings.ringOn 2 = true ∧ (rings.ring 2).items.length + 2 ≤ rings.ringSize 2 := by
  decide +kernel

/-! ### The Bellows and the Assay -/

/-- Region 0 and the Metered regions 6 and 7 are steered. -/
def steering : State := ((((metered.put Fld.BW_CTL_EN 1).put Fld.BW_PCAP_CEIL_W 4095).put Fld.BW_PCAP_W 0).put Fld.BW_SET_SETPT 40 28)

theorem meets_evaluation : let m : BellowsInputs := ⟨List.replicate 8 ⟨1000, 0⟩, 0⟩
    m.regions.length = 8 ∧ m.regions[7]? = some ⟨1000, 0⟩ ∧ m.regions[0]? = some ⟨1000, 0⟩ ∧
    steering.dieOn = true ∧ steering.flag Fld.BW_CTL_EN = true ∧ steering.steered 0 = true ∧ steering.regionMetered 0 = false ∧
    steering.powerCap = 0 ∧ steering.envMin 0 ≤ steering.setpt 0 ∧ steering.setpt 0 ≤ steering.envMax 0 ∧
    steering.bellows.shed.contains 0 = false ∧ steering.mostlyBusy 0 = false ∧ steering.mostlyIdle 0 = true ∧
    steering.fullestMailbox 0 ≤ 1 ∧ steering.steered 7 = true ∧ steering.regionMetered 7 = true ∧
    steering.beatPs < 1000 + steering.margin 7 ⟨1000, 0⟩ ∧ steering.envMin 7 ≤ steering.setpt 7 ∧
    steering.setpt 7 < steering.envMax 7 := by decide +kernel

theorem meets_room : min 4095 0 + (Config.raisePower 7 (steering.setpt 7) (min 2 (steering.envMax 7 - steering.setpt 7))).toNat ≤
      steering.ceiling ∧
    steering.power_ + (Config.raisePower 7 (steering.setpt 7) (min 5 (steering.envMax 7 - steering.setpt 7))).toNat ≤
      steering.ceiling := by
  have h : steering.ceiling = 4095 := by decide +kernel
  have h' : steering.power_ = 0 := by decide +kernel
  rw [h, h']
  have h1 := (Config.raisePower 7 (steering.setpt 7) (min 2 (steering.envMax 7 - steering.setpt 7))).isLt
  have h2 := (Config.raisePower 7 (steering.setpt 7) (min 5 (steering.envMax 7 - steering.setpt 7))).isLt
  omega

theorem meets_raises : let s := steering
    (s.thr (4 * 448)).tstate = .meteredRun ∧ s.raisable 448 = true ∧ 0 < s.cfg Fld.BW_MCFG_SLKMIN ∧
    (let u := atNs (10 ^ 9) ((lit.put Fld.BW_CTL_EN 1).modBellows (fun b => { b with shed := [5], underAt := some 0 }))
     u.nextUnshed = some 5 ∧ u.flag Fld.BW_CTL_EN = true ∧ u.underLong = true ∧ u.unshedDue = true ∧ u.pstate 5 = 4) := by
  decide +kernel

theorem meets_report : lit.dieOn = true ∧ NoFaults lit ∧ lit.assay.window = none ∧ unitDefined 0x60000007 = true ∧
    isRow 0x60000007 = true ∧ (63 : BitVec 16).toNat < 64 ∧ unitDefined 5 = true ∧ unitClass 5 ≠ 15 := by
  unfold NoFaults; decide +kernel

theorem meets_request : (∃ d k b, Serves lit rq0 Reg.AS_TREQ true d k b) ∧ (∃ d k b, Serves lit rq0 Reg.AS_HOLD true d k b) ∧
    (lit.put Fld.AS_STS_HOLD 1).safeHold = true := by
  refine ⟨serves_any ?_, serves_any ?_, ?_⟩ <;> decide +kernel

/-- Core 5 has an open fault: queued, in test, and found lasting. -/
def fault5 : FaultRec := { unit := 5, cause := 2, log := 0 }
def queued : State := lit.modAssay (fun a => { a with queue := [fault5], faults := [(5, 0)], window := some (0, 10), count := 1 })
def tested5 : State := lit.modAssay (fun a => { a with running := [fault5], faults := [(5, 0)], window := some (0, 10), count := 1 })
def lasting5 : State := lit.modAssay (fun a => { a with retiring := [fault5], faults := [(5, 2)], window := some (0, 10), count := 1 })

theorem meets_verdict : queued.assay.queue = [fault5] ∧ queued.assay.running = [] ∧ queued.meteredRole = false ∧
    tested5.assay.running = [fault5] ∧ testUnit fault5 = (5 : Word32).toNat ∧ queued.safeHold = false ∧
    tested5.testPassed fault5 true = true ∧ tested5.testPassed fault5 false = false ∧ unitClass fault5.unit ≠ 15 ∧
    (let f : FaultRec := { unit := unitOf 15 3, cause := 2, log := 0 }
     metered.testPassed f true = true ∧ unitClass f.unit = 15 ∧ f.part = 0) ∧ tested5.transients 5 < 2 ∧
    tested5.assay.count ≤ fault5.log + 32 ∧ holdsSteward 5 = false ∧ isSharedBlock 5 = false ∧ tested5.assay.faults = [(5, 0)] ∧
    lasting5.assay.retiring = [fault5] ∧ unitClass 5 = 0 ∧ unitIndex 511 = 511 ∧ lasting5.coreRetired 5 = false ∧
    lasting5.answersOwed 5 = false ∧ lasting5.meteredRole = false ∧ (lit.put Fld.AS_STS_HOLD 1).assay.entering = none := by decide +kernel

theorem meets_window : (let s := atNs 20000000 (lit.modAssay (fun a => { a with window := some (0, 10), faults := [(5, 1)] }))
      s.windowOver = true ∧ s.faultsDone = true) ∧
    (atNs 20000000 tested5).windowOver = true ∧ (atNs 20000000 tested5).faultsDone = false := by decide +kernel

/-! ### Power, reset, the board -/

theorem meets_region : let s := lit.put Fld.RG_PSTS_STATE 0 (rgOff 5)
    (let u := atNs 20000 ((s.put Fld.RG_PCTL_IDLE 10 (rgOff 5)).modPower (fun x => { x with quietAt := [(5, 10000)] }))
     tblGet u.power.quietAt 5 = some 10000 ∧ u.get Fld.RG_PCTL_IDLE (rgOff 5) = 10 ∧ u.dieOn = true ∧ u.regionQuiet 5 = true ∧
      10000 + 1000 * 10 ≤ u.now) ∧
    (let u := s.modPower (fun x => { x with gating := [(5, (0, true))], leaving := [(5, (0, false))] })
     tblGet u.power.gating 5 = some (0, true) ∧ u.power.wakeReq = [] ∧ u.arbs = [] ∧ 5 ∉ u.bellows.shed ∧
      tblGet u.power.leaving 5 = some (0, false)) ∧
    (let u := lit.modPower (fun x => { x with wakeReq := [7] })
     7 ∈ u.power.wakeReq ∧ 7 ∉ u.bellows.shed ∧ u.pstate 7 = 4) ∧
    lit.regionRetired 7 = false ∧ lit.pstate 7 = 4 := by decide +kernel

theorem meets_region_write : ∃ d k b, Serves lit rq0 (Reg.RG_PCTL + rgOff 7) true d k b := serves_any (by decide +kernel)

theorem meets_dark_command : (∃ d k b, Serves lit rq0 Reg.LL_CMD true d k b) ∧ lit.dstate = 3 ∧ lit.holding = false ∧
    (lit.put Fld.AS_STS_HOLD 1).holding = true := by
  refine ⟨serves_any ?_, ?_⟩ <;> decide +kernel

/-- Dark entry has begun. -/
def darkening : State := (lit.put Fld.LL_STS_DSTATE 5).modPower (fun x => { x with dkStep := 1 })

theorem meets_dark : let held : Held := { cell := 1, cells := 1, cls := 0, rxAt := none }
    (let s := atNs 5000000 (((lit.put Fld.LL_STS_DSTATE 4).put Fld.LL_DIDLE_MS 5).modPower (fun x => { x with bankedAt := some 0 }))
     s.power.bankedAt = some 0 ∧ s.dstate = 4 ∧ s.holding = false ∧ s.get Fld.LL_DIDLE_MS ≠ 0 ∧
      0 + 1000000 * s.get Fld.LL_DIDLE_MS ≤ s.now) ∧
    darkening.power.dkStep = 1 ∧ darkening.messagesDone = true ∧
    (let s := atNs (10 ^ 10) (darkening.modPorter (fun x => { x with held := [held] }))
     s.messagesDone = false ∧ s.power.dkAt + 1000000 * max 1 (s.get Fld.LL_DRAIN_MS) ≤ s.now) ∧
    (let s := atNs 1000000 (darkening.modPower (fun x => { x with dkStep := 2 }))
     s.power.dkStep = 2 ∧ s.power.dkAt + 1000000 ≤ s.now ∧ s.power.dkWake = [] ∧ s.get Fld.LL_STRAP_PMMST = 0 ∧
      s.railsDone = true ∧ s.tb.coast = none ∧
      (let u : State := { s with tb := { s.tb with coast := some ⟨0, 0, 0, 0⟩ } }
       u.tb.coast.isSome = true ∧ u.power.dkStep = 2) ∧
      (let u := s.modPower (fun x => { x with dkStep := 3 })
       u.power.dkStep = 3 ∧ u.tb.onEdge ≠ .save)) ∧
    (atNs 100000 (lit.modPower (fun x => { x with hotAt := [(3, 0)] }))).power.hotAt = [(3, 0)] ∧ lit.power.resetLow = [] ∧
    lit.power.dkWake = [] ∧ lit.tb.coast = none ∧ lit.power.dkStep ≠ 3 := by
  decide +kernel

/-- The device is in Dark. -/
def dark : State := ({ power := { upStep := 0 } } : State).put Fld.LL_STS_DSTATE 1
/-- The last entry of the wake set names source `n`. -/
def listing (n : Nat) (s : State) : State := (s.put Fld.CR_WAKE_VALID 1 252).put Fld.CR_WAKE_SRC n 252

theorem meets_wakes : dark.power.resetLow = [] ∧ dark.dstate = 1 ∧ dark.flag Fld.LL_STS_WKF = false ∧
    (dark.put Fld.LL_CTL_I3CWK 1).get Fld.LL_CTL_I3CWK = 1 ∧ (dark.put Fld.LL_CTL_SBWK 1).get Fld.LL_CTL_SBWK = 1 ∧
    (let s := (listing 23 dark).setReg Reg.LL_ALARM_LO 5
     let u : State := { s with tb := { s.tb with xtal := 5 } }
     (u.reg Reg.LL_ALARM_LO).toNat + u.get Fld.LL_ALARM_HI_VAL * 2 ^ 32 = 5 ∧ u.tb.xtal.toNat = 5 ∧ u.power.alarmed ≠ some 5) ∧
    (dark.put Fld.LL_STS_WKF 1).flag Fld.LL_STS_WKF = true ∧ darkening.dstate = 5 ∧ darkening.power.dkStep ≠ 3 := by
  decide +kernel

theorem meets_listed : Listed (listing 23 dark) 23 ∧ Listed (listing 32 dark) 32 ∧ Listed (listing 199 dark) 199 := by
  refine ⟨⟨?_, 63, ?_⟩, ⟨?_, 63, ?_⟩, ⟨?_, 63, ?_⟩⟩ <;> decide +kernel

theorem meets_wake_command : ∃ d k b, Serves dark .sideband Reg.LL_CMD true d k b := serves_any (by decide +kernel)

theorem meets_wake_steps : let step (n : Nat) := dark.modPower (fun x => { x with upStep := n })
    (step 1).power.upStep = 1 ∧ (step 2).power.upWake = false ∧
    ((step 2).modPower (fun x => { x with upWake := true })).power.upWake = true ∧
    (let s := atNs (10 ^ 9) (step 1)
     s.power.upAt + 1000 * max 50 (s.get Fld.LL_WK_TMO_US) ≤ s.now ∧ s.power.upFails = 0 ∧ s.power.resetLow = [] ∧
      (s.modPower (fun x => { x with upFails := 1 })).power.upFails ≠ 0) ∧
    (let s := atNs 500000 (step 2)
     s.power.upStep = 2 ∧ s.power.upAt + 500000 ≤ s.now) ∧
    (let s := atNs 1000000 (step 4)
     s.power.upStep = 4 ∧ s.power.upAt + 1000000 ≤ s.now) ∧
    (step 3).power.upStep = 3 ∧ (step 3).railsDone = true ∧ (step 3).tb.onEdge ≠ .set ∧
    ((step 3).modCrier (fun c => { c with latched := [23] })).crier.latched = [23] ∧ isReservedSrc 23 = false ∧ (23 : Nat) ≠ 24 := by
  decide +kernel

/-- A transaction of the host on the bus. -/
def txn : PmTxn :=
  { host := true, rail := 15, page := 0, addr := 5, read := true, cmd := 7, len := 2, data := 0, pec := false, delay := 0 }
def master : State := lit.put Fld.LL_STRAP_PMMST 1

theorem meets_board : (lit.power.resetLow = [] ∧ (true != bitOf (lit.get Fld.LL_WAKECFG_POL) 7) = true ∧ lit.dstate = 3 ∧ (lit.arrives 199).1 = true) ∧
    lit.get Fld.TY_CE_MODE (4 * 95) ≠ 2 ∧ lit.darkening = false ∧ darkening.darkening = true ∧ darkening.dieOn = true ∧ 16 ≤ (95 : Nat) ∧
    (master.get Fld.LL_PMSTS_BUSY = 0 ∧ master.dstate ≠ 1 ∧ master.power.pmCur = none ∧ master.power.delayAt = none ∧
      master.power.rails = [] ∧ master.get Fld.LL_STRAP_PMMST = 1) ∧
    (let s := master.modPower (fun x => { x with pmCur := some txn })
     s.power.pmCur = some txn ∧ s.power.rails = [] ∧ s.power.hostTxn = none ∧ s.power.delayAt = none ∧ txn.len ≤ 2 ∧
      s.power.tries < 2 ∧ 2 ≤ (s.modPower (fun x => { x with tries := 2 })).power.tries ∧ txn.rail < 16) ∧
    (let s := atNs 5000000 (master.modPower (fun x => { x with delayAt := some (5, 0), rails := [txn] }))
     s.power.delayAt = some (5, 0) ∧ 0 + 1000000 * 5 ≤ s.now ∧ s.power.pmCur = none ∧ s.power.rails = txn :: []) := by
  decide +kernel

theorem meets_pmbus : ∃ d k b, Serves master rq0 Reg.LL_PMCMD true d k b := serves_any (by decide +kernel)

theorem meets_resets : isFused Reg.TB_RATE = false ∧
    Reg.TB_RATE ∉ [Reg.LL_RST_CAUSE, Reg.LL_STRAP, Reg.PO_DEVNUM, Reg.LL_PMSTS, Reg.LG_BOOT] ∧ 3 ≤ lit.dstate ∧
    (∀ x ∈ (lit.modPower (fun x => { x with resetLow := [1] })).power.resetLow, x = 1) ∧ 3 ∉ lit.power.resetLow ∧
    3 ∈ (lit.modPower (fun x => { x with resetLow := [3] })).power.resetLow ∧
    lit.get Fld.LL_STS_LDOLP = 0 ∧ (lit.put Fld.LL_STS_LDOLP 1).get Fld.LL_STS_LDOLP = 1 ∧
    (lit.modBoot (fun x => { x with clearing := true })).boot.clearing = true ∧ lit.dieOn = true := by decide +kernel

/-! ### The sideband, boot image, Attar and Ledger -/

theorem meets_sideband : (∃ d k b, Serves lit .sideband (0x70000 + 0) true d k b) ∧
    (∃ d k b, Serves lit .sideband (Reg.CR_WAKE + 0xFC) true d k b) ∧ (∃ d k b, Serves lit .sideband Reg.CR_WAKE false d k b) ∧
    lit.routeLive .sideband = true ∧ lit.power.sideOff = (0 : BitVec 16).toNat ∧ lit.flag Fld.LL_STS_VIOSW = true ∧
    dark.flag Fld.LL_STS_VIOSW = true ∧ (dark.put Fld.LL_STS_VIOSW 0).flag Fld.LL_STS_VIOSW = false ∧
    (lit.modPower (fun x => { x with dynAddr := some 8 })).power.dynAddr = some 8 := by
  refine ⟨serves_any ?_, serves_any ?_, serves_any ?_, ?_⟩ <;> decide +kernel

theorem meets_go : (∃ d k b, Serves lit rq0 Reg.LG_BOOT true d k b) ∧
    (lit.put Fld.LG_BOOT_STATE 1).get Fld.LG_BOOT_STATE = 1 ∧ 3 ∉ lit.power.faults := by
  refine ⟨serves_any ?_, ?_⟩ <;> decide +kernel

/-- An image of 512 bytes with one section of type 1, for a boot in debug mode. -/
def image : List Byte :=
  leBytes 4 0x84101A0B ++ leBytes 2 1 ++ leBytes 2 1 ++ leBytes 4 512 ++ leBytes 4 416 ++ leBytes 4 0x44 ++
    List.replicate 0x6C 0 ++ (leBytes 4 1 ++ leBytes 4 0x100 ++ leBytes 4 0x40 ++ leBytes 4 0x40) ++ List.replicate 0x70 0 ++
    some_ 160 ++ List.replicate 96 0

def booting : State :=
  { ((lit.put Fld.LG_BOOT_STATE 2).put Fld.LG_BOOT_DEBUG 1).put Fld.LG_BOOTLEN_BYTES 512 with
    mem := (image.zipIdx.filter (fun x => x.1 != 0)).map (fun x => (frameBase + x.2, x.1)) }

theorem meets_image : booting.get Fld.LG_BOOT_STATE = 2 ∧ booting.dieOn = true ∧ Memory.wf booting.mem ∧
    booting.get Fld.LG_BOOTLEN_BYTES = 512 ∧ booting.imageErr image = 0 ∧ leAt image 0 4 = 0x84101A0B ∧ leAt image 4 2 = 1 ∧
    (lit.put Fld.LG_BOOTLEN_BYTES 511).get Fld.LG_BOOTLEN_BYTES = 511 := by decide +kernel

theorem meets_image_bytes : booting.bytes frameBase 512 = image := by decide +kernel

theorem meets_bad_image : (lit.put Fld.LG_BOOT_STATE 2).imageErr ((lit.bytes frameBase 256)) = 1 := by decide +kernel

/-- A container that passes the GCM check as well was found by calculation outside this file: its tag is part of its own
additional data (13 R427), and the kernel's run of AES over it takes minutes. -/
theorem meets_patch_errors : (∃ d k b, Serves lit rq0 Reg.AT_PLOAD true d k b) ∧ lit.attar.acted = false ∧
    blockRef 0x30000000 = none ∧ blockRef 0 = some frameBase ∧ blockPlace frameBase 0x130 = true ∧
    (lit.modAttar (fun x => { x with acted := true })).attar.acted = true := by
  refine ⟨serves_any ?_, ?_⟩ <;> decide +kernel

theorem meets_reload : (∃ d k b, Serves lit rq0 Reg.AT_CTL true d k b) ∧ lit.flag Fld.AT_STS_RLBUSY = false ∧
    lit.attar.bad = false ∧ lit.clusterRetired 63 = false ∧ lit.meteredRole = false ∧ lit.attar.todo = [] ∧
    lit.attar.writing = none ∧ lit.pstate (7 / 8) ≤ 1 ∧ bitsGet (4 * 7 : Word32) 2 6 = 7 ∧
    (∀ c ∈ clusterCores 7, (lit.core c).tested = false) ∧
    (lit.modAttar (fun x => { x with writing := some (63, 2) })).attar.writing = some ((63 : ClusterId).toNat, 2) ∧
    lit.flag Fld.AT_STS_MERR = false := by
  refine ⟨serves_any ?_, ?_⟩ <;> decide +kernel

/-- A Ledger of one WRITE record of two words. -/
def ledger0 : List Byte :=
  leBytes 4 0x84104C47 ++ leBytes 2 1 ++ leBytes 2 0 ++ leBytes 4 7 ++ leBytes 4 56 ++ leBytes 4 2 ++ leBytes 4 0 ++ leBytes 8 0 ++
    (leBytes 1 1 ++ leBytes 3 0x0E0010 ++ leBytes 2 2 ++ leBytes 2 0 ++ leBytes 8 0x0000000200000001) ++
    (leBytes 1 0xFF ++ leBytes 3 0 ++ leBytes 4 0)
def ledgerBytes : List Byte := ledger0.take 0x14 ++ leBytes 4 (crc32c 0 ledger0).toNat ++ ledger0.drop 0x18

theorem meets_ledger : (lit.checkLedger ledgerBytes).1 = 0 ∧ (lit.checkLedger ledger0).1 = 2 ∧ 32 ≤ ledgerBytes.length ∧
    blockPlace frameBase 56 = true ∧ (lit.put Fld.LG_STS_STATE 1).get Fld.LG_STS_STATE = 1 ∧ lit.get Fld.LG_STS_STATE ≠ 1 := by
  decide +kernel

theorem meets_apply : ∃ d k b, Serves lit rq0 Reg.LG_APPLY true d k b := serves_any (by decide +kernel)

def applying (r : LedgerRec) (rest : List LedgerRec) : State :=
  { lit.put Fld.LG_STS_STATE 1 with ledger := { recs := r :: rest } }
def lastRec : LedgerRec := ⟨0xFF, 0, 0, []⟩

theorem meets_records : (let s := applying ⟨1, Reg.TB_RATE, 2, [5, 6]⟩ [lastRec]
      s.get Fld.LG_STS_STATE = 1 ∧ s.dieOn = true ∧ s.ledger.recs = ⟨1, Reg.TB_RATE, 2, 5 :: [6]⟩ :: [lastRec] ∧
      s.ledger.done = 0 ∧ (findReg Reg.TB_RATE).any (fun x => s.stoppedFor x.1.base x.2 5) = true ∧ Reg.TB_RATE / 0x10000 ≠ 1 ∧
      Reg.TB_RATE < 0xFF0000 ∧ s.blockAsleep Reg.TB_RATE = none) ∧
    (let s := applying ⟨3, Reg.TB_RATE, 5, [1, 1]⟩ [lastRec]
     (findReg Reg.TB_RATE).any (fun x => (s.readReg .ledger x.1 x.2 Reg.TB_RATE).1 &&& 1 != 1) = true ∧
      s.ledger.waitAt.getD s.now = 0 ∧ s.now < 0 + 1000 * 5 ∧ 0 + 1000 * 5 ≤ (atNs 5000 s).now) ∧
    (applying lastRec []).ledger.recs = [⟨0xFF, 0, 0, []⟩] ∧ (applying lastRec []).ledger.bad = false := by decide +kernel

theorem meets_commits : (∃ d k b, Serves lit rq0 Reg.LG_COMMIT true d k b) ∧
    (let s := lit.put Fld.LG_STS_STATE 2
     s.get Fld.LG_STS_STATE = 2 ∧ (∀ g, g < 8 → s.groupOk g = true) ∧ s.get Fld.LG_STS_OUT = 0 ∧
      (s.setReg (Reg.TL_CRED + 4) 0xFFFFFFFF).groupOk 0 = false) ∧
    (lit.put Fld.LG_STS_OUT 1).get Fld.LG_STS_OUT = 1 ∧ lit.get Fld.LG_STS_STATE ≠ 2 ∧
    (let s := (lit.modBoot (fun x => { x with committed := true }))
     s.boot.committed = true ∧ s.get Fld.LG_STS_OUT = 0 ∧ s.pins.holdN = true ∧ s.get Fld.LG_CTL_HOLD = 0) := by
  refine ⟨serves_any ?_, ?_⟩ <;> decide +kernel

/-! ### Completion of events -/

/-- What EventsComplete assumes beyond the premises met above. -/
theorem meets_events : (let s := atNs 40 (metered.setPair 0 { phase := .dispatched, msg := some message })
      s.holding = false ∧ (s.pair 0).dispAt + 40 ≤ s.now) ∧
    (let s := metered.setPair 0 { metered.pair 0 with phase := .releasing }
     (s.pair 0).phase = .releasing ∧ (s.core (pairCores 0).1).cbuf = []) ∧
    (let s := lit.modPower (fun x => { x with leaving := [(5, (0, true))] })
     tblGet s.power.leaving 5 = some (0, true) ∧ 5 ∉ s.bellows.shed) ∧
    (let s := dark.modPower (fun x => { x with upStep := 2, upWake := true })
     s.power.upStep = 2 ∧ s.power.resetLow = [] ∧ s.power.upWake = true) ∧
    (let s := atNs 1000000 (dark.modPower (fun x => { x with upStep := 1 }))
     s.power.upStep = 1 ∧ s.power.resetLow = [] ∧ s.power.upFails = 0 ∧
      s.power.upAt + 1000 * max 50 (s.get Fld.LL_WK_TMO_US) ≤ s.now) ∧
    (let s := lit.modPower (fun x => { x with dkStep := 2 })
     s.tb.coast = none ∧ s.power.dkStep = 2 ∧ 3 ≤ s.dstate) ∧
    (let s := lit.modBoot (fun x => { x with clearing := true })
     s.dieOn = true ∧ s.boot.clearing = true) ∧
    (let s := lit.put Fld.TY_ADCCTL_CHEN 2
     s.adcDue = some 1) ∧
    (handler.put Fld.ANX_TMO_US 1).farOk 0 = false ∧ lit.dieOn = true := by decide +kernel

end Sys2Proof.Tests
end

/-! PROOF. What the device's look at itself after a command (`State.settle`) leaves alone, with the entry to Safe Hold
that it may complete. -/

namespace Sys2Proof.Machine

/-- The state `t` differs from `s` only in what the device's look at itself may change: what a `Calm` change may touch, and
the status of Safe Hold where its entry goes on. -/
structure Settled (s t : State) : Prop where
  pending : t.pending = s.pending
  mem     : t.mem = s.mem
  eccC    : t.eccC = s.eccC
  eccU    : t.eccU = s.eccU
  reg     : ∀ a, ¬ SelfReg a → a ≠ Reg.AS_STS → t.reg a = s.reg a
  eff     : ∀ a, (∀ k, k < 2 → a ≠ Reg.PS_SPARE + 4 * k) → t.effReg a = s.effReg a
  hold    : t.hold = s.hold
  snap    : t.snap = s.snap
  thr     : ∀ n, ∃ m, t.thr n = { s.thr n with mailbox := m }
  cores   : t.cores = s.cores
  caches  : t.caches = s.caches
  resvs   : t.resvs = s.resvs
  pairs   : t.pairs = s.pairs
  bellows : t.bellows = s.bellows
  arbs    : t.arbs = s.arbs
  boot    : t.boot = s.boot
  ledger  : t.ledger = s.ledger
  tb      : t.tb = s.tb
  pins    : t.pins = s.pins

namespace Settled

variable {s t u : State}

theorem ofCalm (h : Calm s t) : Settled s t :=
  { h with reg := fun a ha _ => h.reg a ha }

theorem refl (s : State) : Settled s s := ofCalm (Calm.refl s)

/-- The beginning of Safe Hold, then what a `Calm` change does. -/
theorem ofHoldOn {c : Nat} (h : Calm (s.holdOn c) t) : Settled s t := by
  have k := (Calm.holdOn s c).trans h
  exact {
    k with
    reg := fun a ha hs => by
      rw [k.reg a ha, State.reg_put_other _ _ _ _ hs, State.reg_put_other _ _ _ _ hs]
      rfl }

/-- The device's look at itself. -/
theorem settle (s : State) : Settled s s.settle := by
  have h := Calm.settleRest s
  have hf : s.holdFinish = s ∨ ∃ c, s.holdFinish = s.holdOn c := by
    unfold State.holdFinish
    split
    · split
      · exact .inl rfl
      · exact .inr ⟨_, rfl⟩
    · exact .inl rfl
  rcases hf with e | ⟨c, e⟩
  · rw [e] at h
    exact ofCalm h
  · rw [e] at h
    exact ofHoldOn h

/-- The same where the die may be off, and the device does not act. -/
theorem settleOn (s : State) : Settled s s.settleOn := by
  unfold State.settleOn
  split
  · exact settle s
  · exact refl s

theorem byte (h : Settled s t) (a : Nat) : t.byte a = s.byte a := by rw [State.byte, h.mem, State.byte]

theorem bytes (h : Settled s t) (a n : Nat) : t.bytes a n = s.bytes a n := by
  simp [State.bytes_eq, h.byte]

theorem core (h : Settled s t) (c : Nat) : t.core c = s.core c := by rw [State.core, h.cores, State.core]

/-- A field of a register that the device does not write of itself. -/
theorem get (h : Settled s t) (f : FieldRef) (off : Nat) (hr : ¬ SelfReg (f.reg + off)) (ha : f.reg + off ≠ Reg.AS_STS) :
    t.get f off = s.get f off := by
  rw [State.get, h.reg _ hr ha, State.get]

end Settled

/-- The blocks whose registers the device may write of itself: PS, AT, PT, PO, HQ, TY, CR and LL. -/
theorem SelfReg.place {a : Nat} (h : SelfReg a) :
    a / 0x10000 ∈ [0x03, 0x05, 0x07, 0x0A, 0x0B, 0x0C, 0x0D] ∨ (0x100000 ≤ a ∧ a < 0x180000) := by
  cases h with
  | psSts | psCond | psCondlog | psFallbk | atSts | poDropMbf | poDropDest | poDropP | crWake | crReroute | crMerge
  | llSts | llPmsts | llEvt => exact .inl (by decide)
  | psSpare k hk | psSub k hk | atLoaded k hk | ptSts k hk | ptPfctx k hk | hqCqpos k hk | tyLvl k hk | tyLost k hk
  | crHnote k hk =>
    simp only [List.mem_cons, List.not_mem_nil, or_false, Reg.PS_SPARE, Reg.PS_SUB, Reg.AT_LOADED, Reg.PT_STS,
      Reg.PT_PFCTX, Reg.HQ_CQPOS, Reg.TY_LVL, Reg.TY_LOST, Reg.CR_HNOTE, ptOff]
    omega

end Sys2Proof.Machine

/-! PROOF. The register table: which registers lie where, and what the fields of a register hold after an update that goes
field by field (00 R7, R8, R11). -/

namespace Sys2Proof.Machine

/-! ### The table -/

/-- Every register of the table. -/
def allRegs : List RegDesc :=
  regsGL ++ regsLG ++ regsBW ++ regsTY ++ regsTB ++ regsCR ++ regsLL ++ regsAS ++ regsTL ++ regsAT ++ regsPT ++ regsPO ++
    regsPS ++ regsANX ++ regsHQ ++ regsRG ++ regsCO

theorem mem_allRegs {a : Nat} {d : RegDesc} (h : d ∈ pageRegs a) : d ∈ allRegs := by
  unfold pageRegs at h
  simp only [allRegs, List.mem_append]
  split at h
  case h_16 =>
    split at h
    · simp [h]
    · split at h
      · split at h
        · simp [h]
        · split at h
          · simp [h]
          · cases h
      · cases h
  all_goals simp only [h, true_or, or_true]

/-- The register found at an address is one of the address's page, and the address is one of its elements. -/
theorem findReg_some {a : Nat} {d : RegDesc} {i : Nat} (h : findReg a = some (d, i)) : d ∈ pageRegs a ∧ d.at a = some i := by
  obtain ⟨e, he, h⟩ := List.exists_of_findSome?_eq_some h
  obtain ⟨j, hj, e⟩ := Option.map_eq_some_iff.mp h
  cases e
  exact ⟨he, hj⟩

theorem findReg_mem {a : Nat} {d : RegDesc} {i : Nat} (h : findReg a = some (d, i)) : d ∈ allRegs :=
  mem_allRegs (findReg_some h).1

/-- The offsets of the elements of an array of registers. -/
def dimOffsets : List (Nat × Nat) → List Nat
  | [] => [0]
  | (stride, count) :: rest => (List.range count).flatMap (fun k => (dimOffsets rest).map (stride * k + ·))

theorem matchDims_mem (dims : List (Nat × Nat)) : ∀ (off i : Nat), matchDims off dims = some i → off ∈ dimOffsets dims := by
  induction dims with
  | nil =>
    intro off i h
    simp only [matchDims] at h
    split at h
    · simpa [dimOffsets]
    · cases h
  | cons e rest ih =>
    obtain ⟨stride, count⟩ := e
    intro off i h
    simp only [matchDims] at h
    split at h
    · rename_i hk
      obtain ⟨j, hj, -⟩ := Option.map_eq_some_iff.mp h
      simp only [dimOffsets, List.mem_flatMap, List.mem_range, List.mem_map]
      exact ⟨off / stride, hk, off % stride, ih _ _ hj, Nat.div_add_mod off stride⟩
    · cases h

/-- Every address of a register is its first address and the offset of an element. -/
theorem findReg_addr {a : Nat} {d : RegDesc} {i : Nat} (h : findReg a = some (d, i)) :
    ∃ off ∈ dimOffsets d.dims, a = d.base + off := by
  have hat := (findReg_some h).2
  unfold RegDesc.at at hat
  split at hat
  · exact ⟨a - d.base, matchDims_mem _ _ _ hat, by omega⟩
  · cases hat

/-- The own-core window of the I/O space holds no register of its own: `reach` leads it to the CO block. -/
theorem findReg_window {a : Nat} (h : 0xFF0000 ≤ a) (h' : a < 2 ^ 24) : findReg a = none := by
  have hp : a / 0x10000 = 0xFF := by omega
  simp [findReg, pageRegs, hp]

/-! ### Fields apart -/

/-- Two fields share no bit. -/
abbrev FieldsApart (f g : RegField) : Prop := f.lo + f.width ≤ g.lo ∨ g.lo + g.width ≤ f.lo

theorem allRegs_apart : ∀ d ∈ allRegs, d.fields.Pairwise FieldsApart ∧ ∀ f ∈ d.fields, f.lo + f.width ≤ 32 := by
  decide +kernel

/-- No two fields of a register share a bit. -/
theorem findReg_apart {a : Nat} {d : RegDesc} {i : Nat} (h : findReg a = some (d, i)) :
    d.fields.Pairwise FieldsApart ∧ ∀ f ∈ d.fields, f.lo + f.width ≤ 32 := allRegs_apart d (findReg_mem h)

end Sys2Proof.Machine

namespace Sys2Proof.Says

open Sys2Proof.Machine

/-! ### Bits of a field -/

theorem testBit_bitsGet (w : Word32) (lo n i : Nat) :
    (bitsGet w lo n).testBit i = (decide (i < n) && w.getLsbD (lo + i)) := by
  simp [bitsGet, Nat.testBit_mod_two_pow, Nat.testBit_div_two_pow, BitVec.getLsbD, Nat.add_comm]

theorem getLsbD_fieldMask (f : RegField) (j : Nat) :
    (fieldMask f).getLsbD j = (decide (j < 32) && decide (f.lo ≤ j) && decide (j < f.lo + f.width)) := by
  simp only [fieldMask, BitVec.getLsbD_ofNat, Nat.testBit_mul_two_pow, Nat.testBit_two_pow_sub_one]
  by_cases h : f.lo ≤ j
  · simp [h, show j - f.lo < f.width ↔ j < f.lo + f.width by omega]
  · simp [h]

/-- A field depends on its bits alone. -/
theorem fieldOf_congr (f : RegField) {w v : Word32} (h : ∀ j, f.lo ≤ j → j < f.lo + f.width → w.getLsbD j = v.getLsbD j) :
    fieldOf f w = fieldOf f v := by
  refine Nat.eq_of_testBit_eq fun i => ?_
  simp only [fieldOf, testBit_bitsGet]
  by_cases hi : i < f.width
  · rw [h _ (by omega) (by omega)]
  · simp [hi]

theorem fieldOf_bitsSet_same (f : RegField) (w : Word32) (v : Nat) (h : f.lo + f.width ≤ 32) (hv : v < 2 ^ f.width) :
    fieldOf f (bitsSet w f.lo f.width v) = v := by
  rw [fieldOf, bitsGet_bitsSet _ _ h, Nat.mod_eq_of_lt hv]

theorem fieldOf_bitsSet_apart {f g : RegField} (w : Word32) (v : Nat) (h : f.lo + f.width ≤ 32) (hd : FieldsApart f g) :
    fieldOf g (bitsSet w f.lo f.width v) = fieldOf g w := by
  rcases hd with hd | hd
  · exact bitsGet_bitsSet_above _ _ h hd
  · exact bitsGet_bitsSet_below _ _ h hd

/-- Clearing bits of a field leaves a field apart from it alone, and so does setting them. -/
theorem fieldOf_mask_apart {f g : RegField} (w v : Word32) (hd : FieldsApart f g) :
    fieldOf g (w &&& ~~~ (v &&& fieldMask f)) = fieldOf g w ∧ fieldOf g (w ||| (v &&& fieldMask f)) = fieldOf g w := by
  constructor <;>
  · refine fieldOf_congr g fun j h1 h2 => ?_
    have hj : (fieldMask f).getLsbD j = false := by
      rw [getLsbD_fieldMask]
      rcases hd with hd | hd
      · simp [show ¬ j < f.lo + f.width by omega]
      · simp [show ¬ f.lo ≤ j by omega]
    by_cases hw : j < 32
    · simp only [BitVec.getLsbD_and, BitVec.getLsbD_or, BitVec.getLsbD_not, hj, hw, Bool.and_false, Bool.or_false,
        Bool.not_false, decide_true, Bool.and_true]
    · simp [BitVec.getLsbD_of_ge _ _ (Nat.le_of_not_lt hw)]

/-- Clearing the bits of a field that `v` holds (W1C). -/
theorem fieldOf_clear (f : RegField) (w v : Word32) (h : f.lo + f.width ≤ 32) :
    fieldOf f (w &&& ~~~ (v &&& fieldMask f)) = fieldOf f w &&& ((2 ^ f.width - 1) ^^^ fieldOf f v) := by
  refine Nat.eq_of_testBit_eq fun i => ?_
  simp only [fieldOf, testBit_bitsGet, Nat.testBit_and, Nat.testBit_xor, Nat.testBit_two_pow_sub_one, BitVec.getLsbD_and,
    BitVec.getLsbD_not, getLsbD_fieldMask]
  by_cases hi : i < f.width
  · simp [hi, show f.lo + i < 32 by omega]
  · simp [hi]

/-- Setting the bits of a field that `v` holds (W1S). -/
theorem fieldOf_set (f : RegField) (w v : Word32) (h : f.lo + f.width ≤ 32) :
    fieldOf f (w ||| (v &&& fieldMask f)) = fieldOf f w ||| fieldOf f v := by
  refine Nat.eq_of_testBit_eq fun i => ?_
  simp only [fieldOf, testBit_bitsGet, Nat.testBit_or, BitVec.getLsbD_or, BitVec.getLsbD_and, getLsbD_fieldMask]
  by_cases hi : i < f.width
  · simp [hi, show f.lo + i < 32 by omega]
  · simp [hi]

/-- Clearing a whole field (RC). -/
theorem fieldOf_clearAll (f : RegField) (w : Word32) : fieldOf f (w &&& ~~~ fieldMask f) = 0 := by
  refine Nat.eq_of_testBit_eq fun i => ?_
  simp only [fieldOf, testBit_bitsGet, BitVec.getLsbD_and, BitVec.getLsbD_not, getLsbD_fieldMask, Nat.zero_testBit]
  by_cases hi : i < f.width
  · by_cases hw : f.lo + i < 32
    · simp [hi, hw]
    · simp [BitVec.getLsbD_of_ge w _ (Nat.le_of_not_lt hw)]
  · simp [hi]

theorem fieldOf_clearAll_apart {f g : RegField} (w : Word32) (hd : FieldsApart f g) :
    fieldOf g (w &&& ~~~ fieldMask f) = fieldOf g w := by
  have h := (fieldOf_mask_apart w (BitVec.allOnes 32) hd).1
  rwa [BitVec.allOnes_and] at h

/-! ### An update that goes field by field -/

/-- An update `g` of each field in turn, which leaves every field apart from its own alone, gives each field the value that
`val` computes from the field as it was. -/
theorem fieldOf_foldl {g : Word32 → RegField → Word32} {val : RegField → Nat → Nat} (fs : List RegField)
    (hp : fs.Pairwise FieldsApart) (hb : ∀ f ∈ fs, f.lo + f.width ≤ 32)
    (same : ∀ w f, f.lo + f.width ≤ 32 → fieldOf f (g w f) = val f (fieldOf f w))
    (other : ∀ w f e, f.lo + f.width ≤ 32 → FieldsApart f e → fieldOf e (g w f) = fieldOf e w) :
    (∀ e, (∀ f ∈ fs, FieldsApart f e) → ∀ w, fieldOf e (fs.foldl g w) = fieldOf e w) ∧
    ∀ f ∈ fs, ∀ w, fieldOf f (fs.foldl g w) = val f (fieldOf f w) := by
  induction fs with
  | nil => exact ⟨fun _ _ _ => rfl, fun _ h => nomatch h⟩
  | cons x r ih =>
    obtain ⟨hx, hr⟩ := List.pairwise_cons.mp hp
    obtain ⟨hbx, hbr⟩ := List.forall_mem_cons.mp hb
    obtain ⟨keep, put⟩ := ih hr hbr
    constructor
    · intro e he w
      obtain ⟨hex, her⟩ := List.forall_mem_cons.mp he
      rw [List.foldl_cons, keep e her, other _ _ _ hbx hex]
    · intro f hf w
      rw [List.foldl_cons]
      rcases List.mem_cons.mp hf with rfl | hf
      · rw [keep f (fun e he => (hx e he).symm), same _ _ hbx]
      · rw [put f hf, other _ _ _ hbx (hx f hf)]

/-- What a write of `v` makes of a field that holds `x`: `fieldAfter` as a function of the field alone. -/
def writtenField (ok : Bool) (v : Word32) (f : RegField) (x : Nat) : Nat :=
  match f.acc with
  | .rw => if f.upd == .stopped && !ok then x else fieldOf f v
  | .w1c => x &&& ((2 ^ f.width - 1) ^^^ fieldOf f v)
  | .w1s => x ||| fieldOf f v
  | _ => x

theorem writtenField_eq (ok : Bool) (v w : Word32) (f : RegField) : writtenField ok v f (fieldOf f w) = fieldAfter ok v w f := by
  cases ha : f.acc <;> simp only [fieldAfter, writtenField, ha]

/-- Every field after a write is as its access type and update category give it (00 R8, R11, R14). -/
theorem fieldOf_writeFields {d : RegDesc} {a i : Nat} (hr : findReg a = some (d, i)) (ok : Bool) (v w : Word32) :
    ∀ f ∈ d.fields, fieldOf f (d.fields.foldl (writeField ok v) w) = fieldAfter ok v w f := by
  obtain ⟨hp, hb⟩ := findReg_apart hr
  refine fun f hf => ((fieldOf_foldl (val := writtenField ok v) d.fields hp hb ?_ ?_).2 f hf w).trans (writtenField_eq ..)
  · intro w f h
    cases ha : f.acc <;> simp only [writeField, writtenField, ha]
    · split
      · rfl
      · exact fieldOf_bitsSet_same f w _ h (bitsGet_lt ..)
    · exact fieldOf_clear f w v h
    · exact fieldOf_set f w v h
  · intro w f e h hd
    cases ha : f.acc <;> simp only [writeField, ha]
    · split
      · rfl
      · exact fieldOf_bitsSet_apart w _ h hd
    · exact (fieldOf_mask_apart w v hd).1
    · exact (fieldOf_mask_apart w v hd).2

/-- The fields that satisfy `p` are copied from `r`, the others stay. -/
theorem fieldOf_copyFields {d : RegDesc} {a i : Nat} (hr : findReg a = some (d, i)) (p : RegField → Bool) (r w : Word32) :
    ∀ f ∈ d.fields, fieldOf f ((d.fields.filter p).foldl (fun w f => bitsSet w f.lo f.width (bitsGet r f.lo f.width)) w) =
      if p f then fieldOf f r else fieldOf f w := by
  obtain ⟨hp, hb⟩ := findReg_apart hr
  rw [List.foldl_filter]
  refine fun f hf => (fieldOf_foldl (val := fun f x => if p f then fieldOf f r else x) d.fields hp hb ?_ ?_).2 f hf w
  · intro w f h
    split
    · exact fieldOf_bitsSet_same f w _ h (bitsGet_lt ..)
    · rfl
  · intro w f e h hd
    split
    · exact fieldOf_bitsSet_apart w _ h hd
    · rfl

/-- A read clears the RC fields and leaves the others (00 R8). -/
theorem fieldOf_clearRead {d : RegDesc} {a i : Nat} (hr : findReg a = some (d, i)) (hs : d.base ≠ Reg.CO_SLACK) (w : Word32) :
    ∀ f ∈ d.fields, fieldOf f (clearRead d w) = if f.acc = .rc then 0 else fieldOf f w := by
  obtain ⟨hp, hb⟩ := findReg_apart hr
  rw [clearRead, if_neg hs]
  refine fun f hf => (fieldOf_foldl (val := fun f x => if f.acc = .rc then 0 else x) d.fields hp hb ?_ ?_).2 f hf w
  · intro w f h
    by_cases ha : f.acc = .rc
    · simpa [ha] using fieldOf_clearAll f w
    · simp [ha]
  · intro w f e h hd
    by_cases ha : f.acc = .rc
    · simpa [ha] using fieldOf_clearAll_apart w hd
    · simp [ha]

end Sys2Proof.Says

/-! PROOF. The 64-bit pairs, and the registers that single lemmas need by address. -/

namespace Sys2Proof.Machine

/-- Where every stride of an array is a multiple of `g`, so is every offset. -/
theorem dvd_of_matchDims {g : Nat} : ∀ (dims : List (Nat × Nat)) (off i : Nat), (∀ e ∈ dims, g ∣ e.1) →
    matchDims off dims = some i → g ∣ off
  | [], off, i, _, h => by
    simp only [matchDims] at h
    split at h
    · rename_i h0
      exact h0 ▸ Nat.dvd_zero g
    · cases h
  | (stride, count) :: rest, off, i, hd, h => by
    obtain ⟨hs, hr⟩ := List.forall_mem_cons.mp hd
    simp only [matchDims] at h
    split at h
    · obtain ⟨j, hj, -⟩ := Option.map_eq_some_iff.mp h
      exact (Nat.dvd_mod_iff hs).mp (dvd_of_matchDims rest _ _ hr hj)
    · cases h

/-- An element's address lies above its array's by a multiple of what divides the strides. -/
theorem findReg_dvd {g a : Nat} {d : RegDesc} {i : Nat} (h : findReg a = some (d, i)) (hd : ∀ e ∈ d.dims, g ∣ e.1) :
    d.base ≤ a ∧ g ∣ a - d.base := by
  have hat := (findReg_some h).2
  unfold RegDesc.at at hat
  split at hat
  · exact ⟨‹_›, dvd_of_matchDims _ _ _ hd hat⟩
  · cases hat

theorem allRegs_aligned : ∀ d ∈ allRegs, 4 ∣ d.base ∧ ∀ e ∈ d.dims, 4 ∣ e.1 := by decide +kernel

/-- Every register lies at a multiple of 4. -/
theorem findReg_aligned {a : Nat} {d : RegDesc} {i : Nat} (h : findReg a = some (d, i)) : a % 4 = 0 := by
  obtain ⟨hb, hd⟩ := allRegs_aligned d (findReg_mem h)
  have := findReg_dvd h hd
  omega

/-! ### Pairs (00 R7) -/

theorem allRegs_pairAligned : ∀ d ∈ allRegs, pairLows.contains d.base = true → 8 ∣ d.base ∧ ∀ e ∈ d.dims, 8 ∣ e.1 := by
  decide +kernel

/-- Every _LO lies at a multiple of 8. -/
theorem pairLow_aligned {a : Nat} {d : RegDesc} {i : Nat} (h : findReg a = some (d, i))
    (hp : pairLows.contains d.base = true) : a % 8 = 0 := by
  obtain ⟨hb, hd⟩ := allRegs_pairAligned d (findReg_mem h) hp
  have := findReg_dvd h hd
  omega

theorem isPairHi_some {a : Nat} (h : isPairHi a = true) :
    4 ≤ a ∧ ∃ d i, findReg (a - 4) = some (d, i) ∧ pairLows.contains d.base = true := by
  unfold isPairHi isPairLo at h
  simp only [Bool.and_eq_true, decide_eq_true_eq] at h
  obtain ⟨h4, h⟩ := h
  split at h
  · exact ⟨h4, _, _, ‹_›, h⟩
  · cases h

theorem isPairHi_above {a : Nat} {d : RegDesc} {i : Nat} (h : findReg a = some (d, i))
    (hp : pairLows.contains d.base = true) : isPairHi (a + 4) = true := by
  simpa [isPairHi, isPairLo, h] using hp

/-- The blocks with no pair, below the CO blocks. -/
theorem pageRegs_noPair {a : Nat} (hb : a / 0x10000 ∉ [0x00, 0x03, 0x04, 0x07, 0x08, 0x0B]) (ha : a < 0x200000) :
    ∀ d ∈ pageRegs a, pairLows.contains d.base = false := by
  unfold pageRegs
  split
  case h_2 | h_3 | h_6 | h_7 | h_10 | h_11 | h_13 | h_14 | h_15 => decide +kernel
  case h_16 p _ _ _ _ _ _ _ _ _ _ _ _ _ _ _ =>
    split
    · decide +kernel
    · rw [if_neg (by omega)]
      exact fun d h => nomatch h
  all_goals exact absurd (by simp_all) hb

/-- Blocks without pairs hold neither half of one. -/
theorem not_pair_of_block {a : Nat} {d : RegDesc} {i : Nat} (h : findReg a = some (d, i))
    (hb : a / 0x10000 ∉ [0x00, 0x03, 0x04, 0x07, 0x08, 0x0B]) (ha : a < 0x200000) :
    pairLows.contains d.base = false ∧ isPairHi a = false := by
  refine ⟨pageRegs_noPair hb ha d (findReg_some h).1, ?_⟩
  by_contra hc
  obtain ⟨h4, e, j, he, hp⟩ := isPairHi_some (by simpa using hc)
  have hx := pairLow_aligned he hp
  -- a _LO at a multiple of 8 does not end a block
  have hpage : (a - 4) / 0x10000 = a / 0x10000 := by omega
  rw [pageRegs_noPair (hpage ▸ hb) (by omega) e (findReg_some he).1] at hp
  cases hp

/-- The register 4 above a _LO is no _LO, and none of those that act by themselves. -/
theorem above_pairLow {a : Nat} {d e : RegDesc} {i j : Nat} (h : findReg a = some (d, i))
    (hp : pairLows.contains d.base = true) (he : findReg (a + 4) = some (e, j)) :
    pairLows.contains e.base = false ∧ e.base ≠ Reg.TY_POP ∧ e.base ≠ Reg.PT_TXTSID := by
  have h8 := pairLow_aligned h hp
  refine ⟨?_, fun hb => ?_, fun hb => ?_⟩
  · by_contra hc
    have := pairLow_aligned he (by simpa using hc)
    omega
  · have hd : ∀ d ∈ allRegs, d.base = Reg.TY_POP → 8 ∣ d.base ∧ ∀ e ∈ d.dims, 8 ∣ e.1 := by decide +kernel
    have := findReg_dvd he (hd e (findReg_mem he) hb).2
    have := (hd e (findReg_mem he) hb).1
    omega
  · have hd : ∀ d ∈ allRegs, d.base = Reg.PT_TXTSID → 8 ∣ d.base ∧ ∀ e ∈ d.dims, 8 ∣ e.1 := by decide +kernel
    have := findReg_dvd he (hd e (findReg_mem he) hb).2
    have := (hd e (findReg_mem he) hb).1
    omega

/-- HQ_POST lies in the HQ blocks only. -/
theorem pageRegs_noPost {a : Nat} (ha : ¬ (0x10 ≤ a / 0x10000 ∧ a / 0x10000 < 0x18)) :
    ∀ d ∈ pageRegs a, d.base ≠ Reg.HQ_POST := by
  unfold pageRegs
  split
  case h_16 =>
    rw [if_neg ha]
    split
    · split
      · decide +kernel
      · split
        · decide +kernel
        · exact fun d h => nomatch h
    · exact fun d h => nomatch h
  all_goals decide +kernel

/-- HQ_POST is neither half of a pair. -/
theorem pairHi_ne_hqPost {a : Nat} {d : RegDesc} {i : Nat} (h : findReg a = some (d, i)) (hp : isPairHi a = true) :
    d.base ≠ Reg.HQ_POST := by
  intro hb
  by_cases ha : 0x10 ≤ a / 0x10000 ∧ a / 0x10000 < 0x18
  · have hblock : a / 0x10000 ∉ [0x00, 0x03, 0x04, 0x07, 0x08, 0x0B] := by
      simp only [List.mem_cons, List.not_mem_nil, or_false]
      omega
    rw [(not_pair_of_block h hblock (by omega)).2] at hp
    cases hp
  · exact pageRegs_noPost ha d (findReg_some h).1 hb

end Sys2Proof.Machine

/-! PROOF. A word of an Elastic thread that completes, and the access of a register by any requester (02 R57 to R59; 04 R118;
05 R182; 15 R458 to R460). -/

namespace Sys2Proof.Says

open Sys2Proof.Machine

/-! ### Words -/

theorem Ready.mip {s : State} {t : Tid} (h : Ready s t) : (s.thr t.toNat).mip = false := by
  obtain ⟨-, -, hm, -⟩ := h
  exact hm

theorem Ready.issues {s : State} {t : Tid} (h : Ready s t) (i : Instr) : s.issues t.toNat i := by
  obtain ⟨hc, -, -, hw⟩ := h
  exact ⟨hc, by simp [hw]⟩

/-- A word of an Elastic thread whose body completes, goes on to the next word, and leaves the thread's mode and
micro-routine bit alone. -/
theorem runWord_seq {s s' : State} {t : Tid} {body : M Next} (i : Instr) (h : Ready s t) (hb : body s = .ok .seq s')
    (hm : (s'.thr t.toNat).mode = false) (hp : (s'.thr t.toNat).mip = false) :
    runWord t i false body s = worded s' t (after (s'.thr t.toNat) ((s'.thr t.toNat).pc + 4)) := by
  rw [runWord_elastic t i body s s' .seq (h.issues i) hb hm, State.finish_seq _ _ hp]
  rfl

/-- The thread and the rest of the state after a word. -/
theorem worded_thr (s : State) (t : Tid) (th : Thread) : (worded s t th).thr t.toNat = th := by
  rw [worded, State.leaveArbs_thr, State.thr_setThr_same]

theorem worded_thr_other (s : State) (t : Tid) (th : Thread) {u : Nat} (h : u ≠ t.toNat) :
    (worded s t th).thr u = s.thr u := by
  rw [worded, State.leaveArbs_thr, State.thr_setThr_other _ _ h]

/-- A word's end changes only its thread and the arbiters. -/
theorem worded_eq (s : State) (t : Tid) (th : Thread) :
    ∃ a, worded s t th = { s with threads := tblPut s.threads t.toNat th, arbs := a } := by
  obtain ⟨a, e⟩ := (s.setThr t.toNat th).leaveArbs_eq t.toNat
  exact ⟨a, e⟩

@[simp] theorem worded_mem (s : State) (t : Tid) (th : Thread) : (worded s t th).mem = s.mem := by
  obtain ⟨a, e⟩ := worded_eq s t th
  rw [e]

@[simp] theorem worded_regs (s : State) (t : Tid) (th : Thread) : (worded s t th).regs = s.regs := by
  obtain ⟨a, e⟩ := worded_eq s t th
  rw [e]

@[simp] theorem worded_resvs (s : State) (t : Tid) (th : Thread) : (worded s t th).resvs = s.resvs := by
  obtain ⟨a, e⟩ := worded_eq s t th
  rw [e]

@[simp] theorem worded_tb (s : State) (t : Tid) (th : Thread) : (worded s t th).tb = s.tb := by
  obtain ⟨a, e⟩ := worded_eq s t th
  rw [e]

@[simp] theorem worded_pending (s : State) (t : Tid) (th : Thread) : (worded s t th).pending = s.pending := by
  obtain ⟨a, e⟩ := worded_eq s t th
  rw [e]

/-! ### The arbiters on the way -/

theorem ofNat_toNat_tid (t : Tid) : BitVec.ofNat 11 t.toNat = t := by simp

/-- A path that is open lets an access through at once. -/
theorem grantAll_open {α : Type} {s : State} {t : Tid} {path : List ArbiterId} (h : pathOpen s t path = true) (slot : Bool)
    (x : α) : grantAll t.toNat path slot x s = .ok x s := by
  simp only [pathOpen, Bool.and_eq_true, Option.isNone_iff_eq_none] at h
  obtain ⟨hstop, hslot⟩ := h
  simp [grantAll, hstop, hslot]

/-! ### Register accesses -/

/-- An access to a block that is awake, by an open path, waits for nothing. -/
theorem ioReady_open {s : State} {t : Tid} {a : Nat} (hb : s.blockAsleep a = none)
    (hp : 0xFF0000 ≤ a ∨ pathOpen s t [s.fabricFor t.toNat 11] = true) : ioReady t.toNat a s = .ok () s := by
  simp only [ioReady, hb]
  split
  · exact grantAll_open (hp.resolve_left (by omega)) true ()
  · rfl

/-- The checks of an access that reaches a register pass. -/
theorem ioCheck_reaches {s : State} {t : Tid} {a : Nat} {d : RegDesc} {k b : Nat} (h : reaches s t a d k b) (write : Bool)
    (hw : write = true → stewardOnly d.base = true → (s.thr t.toNat).priv = true) :
    ioCheck t.toNat a write s = .ok (d, k, b) s := by
  obtain ⟨ha, hp, hr, -, -⟩ := h
  have hpriv : (write && stewardOnly d.base && !(s.thr t.toNat).priv) = false := by
    cases write <;> simp_all
  have ha : a < 16777216 := ha
  simp [ioCheck, hp, ha, hr, hpriv]

theorem reaches_reach {s : State} {t : Tid} {a : Nat} {d : RegDesc} {k b : Nat} (h : reaches s t a d k b) :
    reach (.core t) a = some (d, k, b) := by
  obtain ⟨-, -, hr, -⟩ := h
  exact hr

theorem ioOpen_reaches {s : State} {t : Tid} {a : Nat} {d : RegDesc} {k b : Nat} (h : reaches s t a d k b) :
    ioOpen t.toNat a s = .ok () s := by
  obtain ⟨ha, hp, -, hb, hg⟩ := h
  have ha : a < 16777216 := ha
  simp [ioOpen, look, bind, EStateM.bind, hp, ha, ioReady_open hb hg]

/-- A core's access to a register that it reaches takes place at once. -/
theorem ioAct_reaches {α : Type} {s : State} {t : Tid} {a : Nat} {d : RegDesc} {k b : Nat} (h : reaches s t a d k b)
    (write : Bool) (hw : write = true → stewardOnly d.base = true → (s.thr t.toNat).priv = true)
    (f : RegDesc → Nat → Nat → State → α × State) :
    ioAct t.toNat a write f s = .ok (f d k b s).1 (f d k b s).2 := by
  simp [ioAct, bind, EStateM.bind, ioOpen_reaches h, ioCheck_reaches h write hw]

/-- The register that a requester reaches is the one that the table gives for its address. -/
theorem reach_findReg {rq : Requester} {a : Nat} {d : RegDesc} {k b : Nat} (h : reach rq a = some (d, k, b)) :
    findReg b = some (d, k) := by
  unfold reach at h
  obtain ⟨⟨d', k'⟩, hr, e⟩ := Option.map_eq_some_iff.mp h
  cases e
  exact hr

/-- Outside the own-core window the address reached is the one given. -/
theorem reach_addr {rq : Requester} {a : Nat} {d : RegDesc} {k b : Nat} (h : reach rq a = some (d, k, b)) (ha : a < 0xFF0000) :
    b = a := by
  unfold reach at h
  obtain ⟨⟨d', k'⟩, -, e⟩ := Option.map_eq_some_iff.mp h
  cases rq <;> cases e <;> simp [show ¬ 0xFF0000 ≤ a by omega]

/-- A write that reaches no HQ_POST that has to wait does not wait. -/
theorem postWaits_reach {s : State} {rq : Requester} {a : Nat} {d : RegDesc} {k b : Nat} (h : reach rq a = some (d, k, b))
    (ha : a < 2 ^ 24) (v : Word32) (hp : d.base = Reg.HQ_POST → s.postStops k v = false) : s.postWaits a v = false := by
  by_cases hw : a < 0xFF0000
  · have hb := reach_addr h hw
    subst hb
    simp only [State.postWaits, reach_findReg h]
    by_cases hd : d.base = Reg.HQ_POST
    · simp [hp hd]
    · simp [hd]
  · simp [State.postWaits, findReg_window (Nat.le_of_not_lt hw) ha]

variable {s : State} {rq : Requester} {a : Nat} {wr : Bool} {d : RegDesc} {k b : Nat}

theorem Serves.reach_eq (h : Serves s rq a wr d k b) : reach rq a = some (d, k, b) := by
  obtain ⟨-, -, hr, -⟩ := h
  exact hr

theorem Serves.addr_lt (h : Serves s rq a wr d k b) : a < 2 ^ 24 := by
  obtain ⟨-, -, -, -, ha, -⟩ := h
  exact ha

theorem Serves.findReg (h : Serves s rq a wr d k b) : findReg b = some (d, k) := reach_findReg h.reach_eq

theorem Serves.reaches {t : Tid} (h : Serves s (.core t) a wr d k b) : reaches s t a d k b := by
  obtain ⟨-, -, hr, hb, ha, hc⟩ := h
  obtain ⟨hp, hg, -⟩ := hc t rfl
  exact ⟨ha, hp, hr, hb, hg⟩

/-- An access that is served takes place on its register. -/
theorem Serves.access {α : Type} (h : Serves s rq a wr d k b) (f : RegDesc → Nat → Nat → State → α × State) :
    s.access rq a wr f = (some (f d k b s).1, (f d k b s).2) := by
  obtain ⟨hl, ho, hr, hb, -, hc⟩ := id h
  cases rq with
  | core t =>
    obtain ⟨-, -, hw⟩ := hc t rfl
    simp only [State.access, hl, ioAct_reaches h.reaches wr hw f]
    rfl
  | _ => simp [State.access, hl, ho, hr, hb]

/-- A write that is served writes its register, and the device acts on it. -/
theorem Serves.write (h : Serves s rq a true d k b) (v : Word32) (hp : s.postWaits a v = false) :
    s.performWrite rq a v = (s.writeReg rq d k b v).settleOn := by
  rw [State.performWrite, hp, h.access]
  rfl

/-- A read that is served answers the word that it finds, with the effect of the read. -/
theorem Serves.read (h : Serves s rq a false d k b) :
    s.performRead rq a = (s.readReg rq d k b).2.emit (.reply rq a (s.readReg rq d k b).1) := by
  have ha : a % 2 ^ 24 = a := Nat.mod_eq_of_lt h.addr_lt
  simp only [State.performRead, h.access, BitVec.toNat_ofNat, ha]

/-- A write to any register but HQ_POST. -/
theorem Serves.write_plain (h : Serves s rq a true d k b) (v : Word32) (hd : d.base ≠ Reg.HQ_POST) :
    s.performWrite rq a v = (s.writeReg rq d k b v).settleOn :=
  h.write v (postWaits_reach h.reach_eq h.addr_lt v (fun e => absurd e hd))

end Sys2Proof.Says

/-! PROOF. Stored bytes, and the commands that are the read or the write of one register. -/

namespace Sys2Proof.Says

open Sys2Proof.Machine

/-- Settles O7: the laws of the store operation. -/
theorem storedBytesReadBack : Obligations.StoredBytesReadBack := by
  intro s who a bs h
  exact ⟨s.store_bytes who a bs h, fun x hx => s.store_byte_outside who a x bs hx⟩

/-! ### Register commands -/

/-- Bits that a command sets in the value written, and bits that it clears. -/
theorem withBits_set (v on : Word32) : withBits v on 0 = v ||| on := by
  rw [withBits, show ~~~ (0 : Word32) = BitVec.allOnes 32 from rfl, BitVec.and_allOnes]

theorem withBits_clear (v off : Word32) : withBits v 0 off = v &&& ~~~ off := BitVec.or_zero

/-- The doorbells: the index, with WHICH above it (10 R342). -/
theorem doorbell_word (i : BitVec 16) {k : Nat} (hk : k < 4) :
    BitVec.setWidth 32 i ||| BitVec.ofNat 32 (2 ^ 16 * k) = BitVec.ofNat 32 (i.toNat + 2 ^ 16 * k) := by
  apply BitVec.eq_of_toNat_eq
  have hi : i.toNat < 2 ^ 16 := i.isLt
  have hor := Nat.two_pow_add_eq_or_of_lt hi k
  simp only [BitVec.toNat_or, BitVec.toNat_setWidth, BitVec.toNat_ofNat]
  rw [Nat.mod_eq_of_lt (by omega), Nat.mod_eq_of_lt (by omega), Nat.mod_eq_of_lt (by omega), Nat.or_comm, ← hor, Nat.add_comm]

theorem next_write_congr (s : State) (rq : Requester) (a : Nat) {v w : Word32} (h : v = w) :
    (Host.Outcome.next (s.performWrite rq a v) : Host.Outcome State Fault Refusal) = .next (s.performWrite rq a w) := by
  rw [h]

/-- A command that is the write of one register is that write. -/
theorem exec_writeOf {c : Instr} {rq : Requester} {a : Nat} {v : Word32} (h : writeOf c = some (rq, a, v)) (s : State) :
    exec c s = .next (s.performWrite rq a v) := by
  unfold writeOf at h
  split at h <;> cases h
  -- the commands that give a 1 to a bit
  case h_4 | h_6 | h_17 | h_22 | h_30 | h_32 | h_34 | h_37 | h_38 | h_39 | h_40 | h_41 | h_42 | h_43 =>
    exact next_write_congr s _ _ (withBits_set ..)
  -- those that give a 0
  case h_7 | h_31 => exact next_write_congr s _ _ (withBits_clear ..)
  -- the doorbells
  case h_8 i => exact next_write_congr s _ _ (doorbell_word i (k := 0) (by decide))
  case h_9 i => exact next_write_congr s _ _ (doorbell_word i (k := 1) (by decide))
  case h_10 i => exact next_write_congr s _ _ (doorbell_word i (k := 2) (by decide))
  all_goals rfl

/-- A command that is the read of one register is that read. -/
theorem exec_readOf {c : Instr} {rq : Requester} {a : Nat} (h : readOf c = some (rq, a)) (s : State) :
    exec c s = .next (s.performRead rq a) := by
  unfold readOf at h
  split at h <;> cases h <;> rfl

/-! ### A BAR where no register lies (00 R10; 10 R325) -/

/-- A BAR's access off its route does not take place. -/
theorem access_offRoute {α : Type} (s : State) (f : FnId) {a : Nat} (wr : Bool) (g : RegDesc → Nat → Nat → State → α × State)
    (h : routeOk (.pf f) a = false) : s.access (.pf f) a wr g = (none, s) := by
  simp [State.access, h]

/-- A BAR's read where no register lies for it does not take place. -/
theorem access_absent {α : Type} (s : State) (f : FnId) {a : Nat} (wr : Bool) (g : RegDesc → Nat → Nat → State → α × State)
    (hb : s.blockAsleep a = none) (h : routeOk (.pf f) a = false ∨ findReg a = none) :
    s.access (.pf f) a wr g = (none, s) := by
  rcases h with h | h
  · exact access_offRoute s f wr g h
  · have hr : reach (.pf f) a = none := by simp [reach, h]
    simp only [State.access, hb, hr, ite_self]

/-- Settles O30: each command is the access to its register, and an access that is served takes place on it. -/
theorem registerCommands : Obligations.RegisterCommands := by
  intro s c
  refine ⟨?_, ?_, ?_, ?_⟩
  · intro rq a v d k b hc hs hp
    rw [exec_writeOf hc, hs.write v hp]
  · intro rq a d k b hc hs
    rw [exec_readOf hc, hs.read]
  · intro f a hc ha hl hb hr
    have ha' : a % 2 ^ 24 = a := Nat.mod_eq_of_lt ha
    rw [exec_readOf hc]
    simp only [State.performRead, access_absent s f false _ hb hr, hl, hb, Option.isNone_none, Bool.and_self, if_true,
      BitVec.toNat_ofNat, ha', absentWord]
  · intro f a v hc hr
    rw [exec_writeOf hc, State.performWrite, access_offRoute s f true _ hr, ite_self]

end Sys2Proof.Says

/-! PROOF. IN, IND, OUT and OUTD of an Elastic thread (03 R91). -/

namespace Sys2Proof.Machine

/-! ### What a read leaves alone -/

theorem Steady.setReader {s t : State} (h : Steady s t) (r : Option Nat) : Steady s (t.setReader r) := h.free rfl

theorem Steady.returnItem {s t : State} (h : Steady s t) (it : List Word32) : Steady s (t.returnItem it).2 :=
  h.foldN (fun _ _ h => h.setReg _ _) _

theorem Steady.popItem {s t : State} (h : Steady s t) (p : Nat) : Steady s (t.popItem p).2 := by
  unfold State.popItem
  dsimp only
  split
  · exact h
  · rename_i rest _
    have h1 : Steady s (t.setRing p { t.ring p with items := rest, rp := (t.ring p).rp + 1 }) := h.free rfl
    exact (((h1.put _ _ _).level _ _).setReader _).returnItem _

theorem Steady.tyPop {s t : State} (h : Steady s t) : Steady s t.tyPop.2 := by
  unfold State.tyPop
  split
  · split
    · exact (h.setReader _).returnItem _
    · exact h.popItem _
  · split
    · exact h.popItem _
    · exact h

theorem Steady.readTxtsid {s t : State} (h : Steady s t) (p : Nat) : Steady s (t.readTxtsid p).2 := by
  unfold State.readTxtsid
  dsimp only
  split
  · exact h
  · rename_i rest _
    have h1 : Steady s (t.modPort p (fun x => { x with twoStep := rest })) := h.free rfl
    exact ((h1.setReg _ _).setReg _ _).level _ _

/-- A read changes neither memory nor what a thread computes with. -/
theorem State.readReg_keeps (s : State) (rq : Requester) (d : RegDesc) (i a : Nat) :
    (s.readReg rq d i a).2.mem = s.mem ∧
      ∀ n, ∃ m c x r, (s.readReg rq d i a).2.thr n = { s.thr n with mailbox := m, cur := c, tstate := x, resume := r } := by
  unfold State.readReg
  dsimp only
  split
  · exact ⟨(Steady.refl s).tyPop.mem, (Steady.refl s).tyPop.thr⟩
  · split
    · exact ⟨((Steady.refl s).readTxtsid i).mem, ((Steady.refl s).readTxtsid i).thr⟩
    · split
      · split
        · exact ⟨rfl, fun _ => ⟨_, _, _, _, rfl⟩⟩
        · split
          · exact ⟨rfl, fun _ => ⟨_, _, _, _, rfl⟩⟩
          · exact ⟨rfl, fun _ => ⟨_, _, _, _, rfl⟩⟩
      · split
        · exact ⟨rfl, fun _ => ⟨_, _, _, _, rfl⟩⟩
        · split
          · exact ⟨rfl, fun _ => ⟨_, _, _, _, rfl⟩⟩
          · exact ⟨rfl, fun _ => ⟨_, _, _, _, rfl⟩⟩

/-- A read of a register without RC fields, which is no pair and hands out no items, changes nothing. -/
theorem State.readReg_quiet {s : State} {rq : Requester} {d : RegDesc} {i a : Nat}
    (hf : d.fields.all (fun f => f.acc != .rc) = true) (hl : pairLows.contains d.base = false) (hh : isPairHi a = false)
    (h1 : d.base ≠ Reg.TY_POP) (h2 : d.base ≠ Reg.PT_TXTSID) :
    s.readReg rq d i a = (s.view rq d i a, s) := by
  have hrc : d.fields.any (fun f => f.acc == .rc) = false := by
    rw [List.any_eq_false]
    intro f hm
    simpa using List.all_eq_true.mp hf f hm
  simp only [State.readReg, if_neg h1, if_neg h2, hl, hh, hrc]
  rfl

end Sys2Proof.Machine

namespace Sys2Proof.Says

open Sys2Proof.Machine

/-! ### The address -/

theorem ioSumOf_eq (th : Thread) (ra : RegNo) (imm : BitVec 14) :
    (th.get ra + imm.signExtend 64).toNat = ioSumOf th ra imm := by
  rw [ioSumOf, BitVec.ofInt_add, BitVec.ofInt_toInt]
  rfl

theorem ioAddr_aligned {th : Thread} {ra : RegNo} {imm : BitVec 14} {n : Nat} (h : ioSumOf th ra imm % n = 0) (s : State) :
    ioAddr (th.get ra + imm.signExtend 64) n s = .ok (ioSumOf th ra imm) s := by
  simp only [ioAddr, ioSumOf_eq, h, ne_eq, not_true_eq_false, if_false]
  rfl

/-! ### Single accesses -/

variable {s : State} {t : Tid} {a : Nat} {d : RegDesc} {k b : Nat}

theorem ioRead_reaches (h : reaches s t a d k b) :
    ioRead t.toNat a s = .ok (s.readReg (.core t) d k b).1 (s.readReg (.core t) d k b).2 := by
  rw [ioRead, ioAct_reaches h false (fun e => nomatch e), ofNat_toNat_tid]

/-- A write that the thread may make, and that need not wait for the engine, takes place and the device looks at itself. -/
theorem ioWrite_reaches (h : reaches s t a d k b) (v : Word32) (hw : stewardOnly d.base = true → (s.thr t.toNat).priv = true)
    (hp : d.base = Reg.HQ_POST → s.postStops k v = false) :
    ioWrite t.toNat a v s = .ok () (s.writeReg (.core t) d k b v).settle := by
  have hpost : postReady a v s = .ok () s := by
    simp [postReady, postWaits_reach (reaches_reach h) h.1 v hp]
  simp only [ioWrite, bind, EStateM.bind, ioOpen_reaches h, ioCheck_reaches h true (fun _ => hw), hpost,
    ioAct_reaches h true (fun _ => hw), ofNat_toNat_tid]

/-- A write that leaves the thread as it was: the next word follows. -/
theorem afterOut_same {u : State} {th : Thread} {n : Nat} (h : u.thr n = th) : afterOut n th u = .ok .seq u := by
  simp [afterOut, h]

/-! ### The words -/

theorem inBody_reaches {rd ra : RegNo} {imm : BitVec 14} (h : reaches s t (ioSumOf (s.thr t.toNat) ra imm) d k b)
    (ha : ioSumOf (s.thr t.toNat) ra imm % 4 = 0) :
    inBody t rd ra imm s = .ok .seq ((s.readReg (.core t) d k b).2.setG t.toNat rd
      (BitVec.ofNat 64 (s.readReg (.core t) d k b).1.toNat)) := by
  simp only [inBody, look, change, bind, EStateM.bind, ioAddr_aligned ha, ioRead_reaches h,
    BitVec.ofNat_toNat]
  rfl

theorem indBody_reaches {rd ra : RegNo} {imm : BitVec 14} {d' : RegDesc} {k' b' : Nat}
    (h : reaches s t (ioSumOf (s.thr t.toNat) ra imm) d k b) (h' : reaches s t (ioSumOf (s.thr t.toNat) ra imm + 4) d' k' b')
    (ha : ioSumOf (s.thr t.toNat) ra imm % 8 = 0) (hq : (s.readReg (.core t) d k b).2 = s) :
    indBody t rd ra imm s = .ok .seq ((s.readReg (.core t) d' k' b').2.setG t.toNat rd
      ((s.readReg (.core t) d' k' b').1 ++ (s.readReg (.core t) d k b).1)) := by
  simp only [indBody, look, change, bind, EStateM.bind, ioAddr_aligned ha, ioOpen_reaches h,
    ioCheck_reaches h false (fun e => nomatch e), ioCheck_reaches h' false (fun e => nomatch e), ioRead_reaches h, hq,
    ioRead_reaches h']
  rfl

theorem outBody_reaches {rs ra : RegNo} {imm : BitVec 14} (he : Elastic s t)
    (h : reaches s t (ioSumOf (s.thr t.toNat) ra imm) d k b) (ha : ioSumOf (s.thr t.toNat) ra imm % 4 = 0)
    (hw : stewardOnly d.base = true → (s.thr t.toNat).priv = true)
    (hp : d.base = Reg.HQ_POST → s.postStops k (((s.thr t.toNat).get rs).setWidth 32) = false)
    (hu : (s.writeReg (.core t) d k b (((s.thr t.toNat).get rs).setWidth 32)).settle.thr t.toNat = s.thr t.toNat) :
    outBody t rs ra imm s = .ok .seq (s.writeReg (.core t) d k b (((s.thr t.toNat).get rs).setWidth 32)).settle := by
  have hm : (s.thr t.toNat).mode = false := he
  simp only [outBody, look, bind, EStateM.bind, ioAddr_aligned ha, hm, Bool.false_eq_true, if_false,
    ioWrite_reaches h _ hw hp, afterOut_same hu]

/-- OUTD: `u` is the state once the upper half has been written, `w` once the lower half has. -/
theorem outdBody_reaches {rs ra : RegNo} {imm : BitVec 14} {d' : RegDesc} {k' b' : Nat} {u w : State} (he : Elastic s t)
    (h : reaches s t (ioSumOf (s.thr t.toNat) ra imm) d k b) (h' : reaches s t (ioSumOf (s.thr t.toNat) ra imm + 4) d' k' b')
    (ha : ioSumOf (s.thr t.toNat) ra imm % 8 = 0) (hs : stewardOnly d.base = false) (hs' : stewardOnly d'.base = false)
    (hu : ioWrite t.toNat (ioSumOf (s.thr t.toNat) ra imm + 4) ((((s.thr t.toNat).get rs) >>> 32).setWidth 32) s = .ok () u)
    (hw : ioWrite t.toNat (ioSumOf (s.thr t.toNat) ra imm) (((s.thr t.toNat).get rs).setWidth 32) u = .ok () w)
    (hth : w.thr t.toNat = s.thr t.toNat) : outdBody t rs ra imm s = .ok .seq w := by
  have hm : (s.thr t.toNat).mode = false := he
  have hsum : ioSum t.toNat (ioSumOf (s.thr t.toNat) ra imm) s = .ok () s := by
    have ha24 : ioSumOf (s.thr t.toNat) ra imm < 16777216 := h.1
    simp [ioSum, h.2.1, ha24]
  have hc := ioCheck_reaches h true (fun _ e => absurd e (by simp [hs]))
  have hc' := ioCheck_reaches h' true (fun _ e => absurd e (by simp [hs']))
  simp only [outdBody, look, bind, EStateM.bind, ioAddr_aligned ha, hsum, hm, Bool.false_eq_true, if_false,
    ioOpen_reaches h, hc, hc', hu, hw, afterOut_same hth]

/-- A word that ends by writing a register over a state that a read left: nothing else of the thread has changed. -/
theorem runWord_read {rd : RegNo} {u : State} {v : Word} {body : M Next} (i : Instr) (h : Ready s t) (he : Elastic s t)
    (hb : body s = .ok .seq (u.setG t.toNat rd v))
    (hu : ∃ m c x r, u.thr t.toNat = { s.thr t.toNat with mailbox := m, cur := c, tstate := x, resume := r }) :
    let s' := runWord t i false body s
    s'.mem = u.mem ∧ s'.regs = u.regs ∧ (s'.thr t.toNat).regs = ((s.thr t.toNat).set rd v).regs ∧
      (s'.thr t.toNat).pc = (s.thr t.toNat).pc + 4 ∧ (s'.thr t.toNat).st = (s.thr t.toNat).st := by
  obtain ⟨m, c, x, r, hu⟩ := hu
  have hth : (u.setG t.toNat rd v).thr t.toNat =
      ({ s.thr t.toNat with mailbox := m, cur := c, tstate := x, resume := r } : Thread).set rd v := by
    rw [State.setG, State.thr_modThr_same, hu]
  have hst : ((u.setG t.toNat rd v).thr t.toNat).st = (s.thr t.toNat).st := by
    rw [hth]
    unfold Thread.set
    split <;> rfl
  dsimp only
  rw [runWord_seq i h hb (by rw [Thread.mode, hst]; exact he) (by rw [Thread.mip, hst]; exact h.mip)]
  refine ⟨worded_mem .., worded_regs .., ?_, ?_, ?_⟩
  · rw [worded_thr, after, hth]
    unfold Thread.set
    split <;> rfl
  · rw [worded_thr, after, hth, Thread.set_pc]
  · rw [worded_thr]
    exact hst

theorem inputWordsElastic : InputWordsElastic := by
  intro s t rd ra imm d k b h he th a hr
  constructor
  · intro ha
    obtain ⟨hmem, hthr⟩ := s.readReg_keeps (.core t) d k b
    obtain ⟨h1, h2, h3⟩ := runWord_read (.ioIn t rd ra imm) h he (inBody_reaches hr ha) (hthr t.toNat)
    exact ⟨_, rfl, h1.trans hmem, h2, h3⟩
  · intro d' k' b' ha hr' hf hl hh hty hpt
    obtain ⟨hmem, hthr⟩ := s.readReg_keeps (.core t) d' k' b'
    have hq : (s.readReg (.core t) d k b).2 = s := by rw [State.readReg_quiet hf hl hh hty hpt]
    obtain ⟨h1, -, h3⟩ := runWord_read (.ind t rd ra imm) h he (indBody_reaches hr hr' ha hq) (hthr t.toNat)
    exact ⟨_, rfl, h1.trans hmem, h3⟩

/-- A word whose body leaves the thread as it was: the thread goes on to the next word. -/
theorem runWord_seq_same {u : State} {body : M Next} (i : Instr) (h : Ready s t) (he : Elastic s t)
    (hb : body s = .ok .seq u) (hu : u.thr t.toNat = s.thr t.toNat) :
    runWord t i false body s = worded u t (after (s.thr t.toNat) ((s.thr t.toNat).pc + 4)) := by
  rw [runWord_seq i h hb (by rw [hu]; exact he) (by rw [hu]; exact h.mip), hu]

theorem outputWordsElastic : OutputWordsElastic := by
  intro s t rs ra imm d k b h he th a u hr hw ha hu hp
  exact congrArg Host.Outcome.next (runWord_seq_same _ h he (outBody_reaches he hr ha hw hp hu) hu)

theorem outputDoubleElastic : OutputDoubleElastic := by
  intro s t rs ra imm d d' k b k' b' h he th a v u w hr hr' hru hb' hlo hlo' hhi hdisc ha hpriv hs hs' hu hw
  have hpost' : d'.base = Reg.HQ_POST → s.postStops k' ((v >>> 32).setWidth 32) = false :=
    fun e => absurd e (pairHi_ne_hqPost (reach_findReg (reaches_reach hr')) hhi)
  have hpost : d.base = Reg.HQ_POST → u.postStops k (v.setWidth 32) = false := fun e => by
    rw [e] at hlo
    exact absurd hlo (by decide)
  -- the upper half is held
  have hold : (s.writeReg (.core t) d' k' b' ((v >>> 32).setWidth 32)).settle = u := by
    have e4 : b' - 4 = b := by omega
    simp only [State.writeReg, hdisc, hlo', hhi, e4, Bool.false_eq_true, if_false, if_true]
    rfl
  have hwhi := ioWrite_reaches hr' ((v >>> 32).setWidth 32) (fun _ => hpriv) hpost'
  have hwlo := ioWrite_reaches hru (v.setWidth 32) (fun _ => hu ▸ hpriv) hpost
  exact congrArg Host.Outcome.next
    (runWord_seq_same _ h he (outdBody_reaches he hr hr' ha hs hs' (hold ▸ hwhi) hwlo hw) hw)

/-- Settles O15: each word's body runs on the registers that its address reaches, and the word then ends as any other. -/
theorem inputOutputWords : Obligations.InputOutputWords :=
  ⟨inputWordsElastic, outputWordsElastic, outputDoubleElastic⟩

end Sys2Proof.Says

/-! PROOF. Stores of an Elastic thread to a place that answers at once (03 R75; 02 R51 to R53; 05 R160, R171). -/

namespace Sys2Proof.Machine

theorem State.bytes_congr {s u : State} (h : u.mem = s.mem) (a n : Nat) : u.bytes a n = s.bytes a n := by
  simp only [State.bytes_eq, State.byte, h]

/-! ### The reservations that a store clears (05 R171) -/

theorem resGranule_granule (x : Nat) : resGranule (granule x) = resGranule x := by
  unfold resGranule granule
  omega

theorem mem_granulesOf (a n g : Nat) : g ∈ granulesOf a n ↔ ∃ x, a ≤ x ∧ x < a + n ∧ granule x = g := by
  induction n with
  | zero => simp only [granulesOf, List.not_mem_nil, false_iff]; rintro ⟨x, h1, h2, -⟩; omega
  | succ n ih =>
    have hstep : g ∈ granulesOf a (n + 1) ↔ g ∈ granulesOf a n ∨ g = granule (a + n) := by
      rw [granulesOf, List.mem_append]
      split
      · rename_i hc
        have hm : granule (a + n) ∈ granulesOf a n := by simpa using hc
        exact ⟨fun h => .inl (h.resolve_right (by simp)), fun h => .inl (h.elim id (fun e => e ▸ hm))⟩
      · rw [List.mem_singleton]
    rw [hstep, ih]
    constructor
    · rintro (⟨x, h1, h2, h3⟩ | rfl)
      · exact ⟨x, h1, by omega, h3⟩
      · exact ⟨a + n, by omega, by omega, rfl⟩
    · rintro ⟨x, h1, h2, h3⟩
      by_cases hx : x = a + n
      · subst hx
        exact .inr h3.symm
      · exact .inl ⟨x, h1, by omega, h3⟩

theorem noteStores_resvs (gs : List Nat) (who : Option Nat) : ∀ (s : State) (r : Nat × Nat),
    r ∈ (gs.foldl (fun s g => s.noteStore who g) s).resvs ↔ r ∈ s.resvs ∧ (some r.1 = who ∨ ∀ g ∈ gs, r.2 ≠ g) := by
  induction gs with
  | nil => intro s r; simp
  | cons g gs ih =>
    intro s r
    rw [List.foldl_cons, ih]
    simp only [State.noteStore, List.mem_filter, Bool.or_eq_true, decide_eq_true_eq, List.forall_mem_cons]
    tauto

/-- A store clears the reservations of other threads on the granules that it touches, and no other. -/
theorem State.store_resvs (s : State) (who : Option Nat) (a : Nat) (bs : List Byte) (r : Nat × Nat) :
    r ∈ (s.store who a bs).resvs ↔
      r ∈ s.resvs ∧ (some r.1 = who ∨ ∀ x, a ≤ x → x < a + bs.length → resGranule x ≠ r.2) := by
  rw [State.store, noteStores_resvs]
  refine and_congr_right fun _ => or_congr_right ?_
  simp only [List.forall_mem_map, mem_granulesOf]
  constructor
  · intro h x h1 h2 e
    exact h (granule x) ⟨x, h1, h2, rfl⟩ (by rw [resGranule_granule, e])
  · rintro h g ⟨x, h1, h2, rfl⟩ e
    exact h x h1 h2 (by rw [← resGranule_granule, e])

/-- What a store leaves alone: everything but memory, its error marks, caches, reservations and captured SCs. -/
theorem noteStores_eq (gs : List Nat) (who : Option Nat) : ∀ s : State,
    ∃ rv cs, gs.foldl (fun s g => s.noteStore who g) s = { s with resvs := rv, cores := cs } := by
  induction gs with
  | nil => exact fun s => ⟨_, _, rfl⟩
  | cons g gs ih =>
    intro s
    obtain ⟨rv, cs, e⟩ := ih (s.noteStore who g)
    exact ⟨rv, cs, by rw [List.foldl_cons, e]; rfl⟩

theorem State.store_eq (s : State) (who : Option Nat) (a : Nat) (bs : List Byte) :
    ∃ m c u ca rv cs, s.store who a bs = { s with mem := m, eccC := c, eccU := u, caches := ca, resvs := rv, cores := cs } := by
  obtain ⟨rv, cs, e⟩ := noteStores_eq ((granulesOf a bs.length).map resGranule) who { s with
    caches := dropLines s.caches who a bs.length, mem := memPutAll s.mem a bs,
    eccC := s.eccC.filter (fun w => !coversWord a bs.length w), eccU := s.eccU.filter (fun w => !coversWord a bs.length w) }
  exact ⟨_, _, _, _, rv, cs, e⟩

theorem State.store_thr (s : State) (who : Option Nat) (a : Nat) (bs : List Byte) (n : Nat) :
    (s.store who a bs).thr n = s.thr n := by
  obtain ⟨_, _, _, _, _, _, e⟩ := s.store_eq who a bs
  rw [e]
  rfl

theorem State.store_reg (s : State) (who : Option Nat) (a : Nat) (bs : List Byte) (n : Nat) :
    (s.store who a bs).reg n = s.reg n := by
  obtain ⟨_, _, _, _, _, _, e⟩ := s.store_eq who a bs
  rw [e]
  rfl

/-- A store makes no error mark. -/
theorem State.store_ecc {s : State} (who : Option Nat) (a : Nat) (bs : List Byte) (hc : s.eccC = []) (hu : s.eccU = []) :
    (s.store who a bs).eccC = [] ∧ (s.store who a bs).eccU = [] := by
  obtain ⟨rv, cs, e⟩ := noteStores_eq ((granulesOf a bs.length).map resGranule) who { s with
    caches := dropLines s.caches who a bs.length, mem := memPutAll s.mem a bs,
    eccC := s.eccC.filter (fun w => !coversWord a bs.length w), eccU := s.eccU.filter (fun w => !coversWord a bs.length w) }
  rw [State.store, e]
  simp [hc, hu]

/-! ### A store of an Elastic thread -/

/-- Bytes that lie in one region are all in the first half of an access. -/
theorem firstHalf_whole {a n : Nat} (h : ∀ i, i < n → dRegion (a + i) = dRegion a) : firstHalf a n = n := by
  cases n with
  | zero => rfl
  | succ n => rw [firstHalf, if_pos (h n (by omega))]

/-- Without an error mark a performed store at its place is that store. -/
theorem writeAt_die {s : State} {t a p : Nat} {bs : List Byte} (hm : (s.thr t).mode = false) (hc : s.eccC = [])
    (hu : s.eccU = []) : writeAt t a bs (.die p) s = .ok () (s.store (some t) p bs) := by
  simp [writeAt, isCaptured, hm, State.badWrite, hc, hu]

/-- A store to bytes of one region whose place is on the die. -/
theorem storeBytes_die {s : State} {t a p : Nat} {bs : List Byte} (hr : ∀ i, i < bs.length → dRegion (a + i) = dRegion a)
    (hp : place t a bs.length true false s = .ok (.die p) s) (hm : (s.thr t).mode = false) (hc : s.eccC = [])
    (hu : s.eccU = []) : storeBytes t a bs s = .ok () (s.store (some t) p bs) := by
  have hw : storeBytes t a bs = writeHalf t a bs := by
    unfold storeBytes storeSplit
    rw [firstHalf_whole hr]
    exact if_pos rfl
  rw [hw]
  simp only [writeHalf, bind, EStateM.bind, hp, writeAt_die hm hc hu]

end Sys2Proof.Machine

namespace Sys2Proof.Says

open Sys2Proof.Machine

/-- A region that is Active or Quiet is not Gated. -/
theorem gated_of_active {s : State} {r : Nat} (h : s.pstate r ≤ 1) : s.gated r = false := by
  simp [State.gated, show ¬ 2 ≤ s.pstate r by omega]

/-- The checks of an access to cluster memory that answers at once. -/
theorem clusterOpen_iff (s : State) (t : Tid) (cl : Nat) : clusterOpen s t cl = true ↔
    s.clusterRetired cl = false ∧ s.pstate (cl / 8) ≤ 1 ∧ pathOpen s t (s.clusterPath t.toNat cl) = true := by
  simp [clusterOpen, and_assoc]

theorem place_dsram {t a : Nat} (n : Nat) (wr code : Bool) (s : State) (h : dRegion a = .dsram) :
    place t a n wr code s = .ok (.die (dsramBase (t / 4) + a)) s := by
  simp only [place, physOf, h]

theorem physOf_ownCl {a : Nat} (t : Nat) (h : dRegion a = .ownCl) :
    physOf (t / 4) a = clusterBase (t / 32) + (a - 0x10000000) := by
  simp only [physOf, h]
  rw [Nat.div_div_eq_div_mul]

theorem physOf_glob {a cl : Nat} (c : Nat) (h : dRegion a = .glob cl) : physOf c a = a := by
  simp only [physOf, h]

/-- An access to cluster memory that answers at once. -/
theorem place_cluster {s : State} {t : Tid} {a cl : Nat} (n : Nat) (wr code : Bool)
    (h : dRegion a = .ownCl ∧ cl = t.toNat / 32 ∨ dRegion a = .glob cl) (ho : clusterOpen s t cl = true) :
    place t.toNat a n wr code s = .ok (.die (physOf (t.toNat / 4) a)) s := by
  obtain ⟨h1, h2, h3⟩ := (clusterOpen_iff s t cl).mp ho
  have hst : (s.clusterRetired cl || s.pstate (cl / 8) == 4 || s.pstate (cl / 8) == 6) = false := by
    simp [h1, show s.pstate (cl / 8) ≠ 4 by omega, show s.pstate (cl / 8) ≠ 6 by omega]
  have hcl : clusterOf (t.toNat / 4) a = some cl := by
    rcases h with ⟨h, rfl⟩ | h
    · simp only [clusterOf, h, Nat.div_div_eq_div_mul]
    · simp only [clusterOf, h]
  rcases h with ⟨h, -⟩ | h <;>
    simp only [place, h, hcl, hst, gated_of_active h2, Bool.false_eq_true, if_false, grantAll_open h3]

/-- An access to the Session Store or the frame buffer that meets no withdrawn row and an open target. -/
theorem place_far {s : State} {t : Tid} {a : Nat} (n : Nat) (wr code : Bool) (h : dRegion a = .session ∨ dRegion a = .frame)
    (hw : (List.range n).any (fun i => s.assay.withdrawn.contains (rowUnit (a + i))) = false)
    (ho : pathOpen s t [s.fabricFor t.toNat (if a < frameBase then 8 else 9)] = true) :
    place t.toNat a n wr code s = .ok (.die a) s := by
  rcases h with h | h <;> simp only [place, h, hw, Bool.false_eq_true, if_false, grantAll_open ho]

/-- The Session Store lies below the frame buffer. -/
theorem dRegion_session {a : Nat} (h : dRegion a = .session) : a < frameBase := by
  unfold dRegion at h
  unfold frameBase
  by_contra hc
  simp only [show ¬ a < 0x8000 by omega, show ¬ a < 0x10040000 by omega, show ¬ a < 0x1010000000 by omega,
    show ¬ a < 0x2001000000 by omega, and_false, if_false] at h
  split at h
  · cases h
  · split at h <;> cases h

theorem dRegion_frame {a : Nat} (h : dRegion a = .frame) : ¬ a < frameBase := by
  unfold dRegion at h
  unfold frameBase
  intro hc
  simp only [show ¬ 0x3000000000 ≤ a by omega, show ¬ 0x800000000000 ≤ a by omega, false_and, if_false] at h
  split at h
  · cases h
  · split at h
    · cases h
    · split at h
      · split at h <;> cases h
      · split at h <;> cases h

/-- `placeOf` says where an access of a thread goes that is permitted and waits for nothing. -/
theorem placeOf_some {s : State} {t : Tid} {a n p : Nat} (h : placeOf s t a n = some p) (wr : Bool) :
    (∀ i, i < n → dRegion (a + i) = dRegion a) ∧ place t.toNat a n wr false s = .ok (.die p) s := by
  unfold placeOf at h
  split at h
  · cases h
  · rename_i hreg
    refine ⟨fun i hi => ?_, ?_⟩
    · by_contra hne
      exact hreg (List.any_eq_true.mpr ⟨i, List.mem_range.mpr hi, by simpa using hne⟩)
    · split at h <;> rename_i hd
      · obtain rfl := Option.some.inj h
        exact place_dsram n wr false s hd
      · split at h
        · obtain rfl := Option.some.inj h
          rw [← physOf_ownCl t.toNat hd]
          exact place_cluster n wr false (.inl ⟨hd, rfl⟩) ‹_›
        · cases h
      · split at h
        · obtain rfl := Option.some.inj h
          have e := place_cluster n wr false (.inr hd) ‹_›
          rwa [physOf_glob (t.toNat / 4) hd] at e
        · cases h
      · split at h
        · cases h
        · rename_i hc
          obtain rfl := Option.some.inj h
          simp only [Bool.or_eq_true, not_or, Bool.not_eq_true, Bool.not_eq_false'] at hc
          exact place_far n wr false (.inl hd) hc.1 (by rw [if_pos (dRegion_session hd)]; exact hc.2)
      · split at h
        · cases h
        · rename_i hc
          obtain rfl := Option.some.inj h
          simp only [Bool.or_eq_true, not_or, Bool.not_eq_true, Bool.not_eq_false'] at hc
          exact place_far n wr false (.inr hd) hc.1 (by rw [if_neg (dRegion_frame hd)]; exact hc.2)
      · cases h

/-! ### The word -/

/-- A store to a place that answers at once: the store, then the base register. -/
theorem storeBody_placed {s : State} {t : Tid} {rs ra : RegNo} {m : BitVec 2} {dd : BitVec 12} {n : Nat} {ea : Word}
    {wb : Option Word} {p : Nat} (he : Elastic s t) (hc : Clean s)
    (hm : memOperand (s.thr t.toNat) none ra m dd = some (ea, wb)) (hp : placeOf s t ea.toNat n = some p) :
    storeBody t rs ra m dd n s = .ok .seq
      ((s.store (some t.toNat) p (leBytes n ((s.thr t.toNat).get rs).toNat)).writeBack t.toNat ra wb) := by
  obtain ⟨hr, hpl⟩ := placeOf_some hp true
  have hlen := leBytes_length n ((s.thr t.toNat).get rs).toNat
  have hst := storeBytes_die (bs := leBytes n ((s.thr t.toNat).get rs).toNat) (hlen.symm ▸ hr) (hlen.symm ▸ hpl) he hc.1 hc.2.1
  simp only [storeBody, look, change, bind, EStateM.bind, hm, storeNat, hst]
  rfl

theorem writeBack_thr (s : State) (t : Nat) (ra : RegNo) (wb : Option Word) :
    (s.writeBack t ra wb).thr t = withBase (s.thr t) ra wb := by
  cases wb with
  | none => rfl
  | some v => exact State.thr_modThr_same ..

theorem writeBack_eq (s : State) (t : Nat) (ra : RegNo) (wb : Option Word) :
    ∃ th, (∀ u, u ≠ t → (s.writeBack t ra wb).thr u = s.thr u) ∧ s.writeBack t ra wb = { s with threads := th } := by
  cases wb with
  | none => exact ⟨s.threads, fun _ _ => rfl, rfl⟩
  | some v => exact ⟨_, fun u hu => State.thr_modThr_other _ _ hu, rfl⟩

theorem withBase_mode (th : Thread) (ra : RegNo) (wb : Option Word) :
    (withBase th ra wb).mode = th.mode ∧ (withBase th ra wb).mip = th.mip ∧ (withBase th ra wb).pc = th.pc := by
  cases wb with
  | none => exact ⟨rfl, rfl, rfl⟩
  | some v => exact ⟨Thread.set_mode .., Thread.set_mip .., Thread.set_pc ..⟩

/-- The word of each form of store runs its body. -/
theorem exec_storeForm {i : Instr} {t : Tid} {rs ra : RegNo} {m : BitVec 2} {dd : BitVec 12} {n : Nat}
    (h : storeForm i = some (t, rs, ra, m, dd, n)) (s : State) :
    exec i s = .next (runWord t i false (storeBody t rs ra m dd n) s) := by
  unfold storeForm at h
  split at h <;> cases h <;> rfl

/-- The state of a completed store: the bytes, every other byte, the reservations, and the rest as it was. -/
theorem stored_worded (s : State) (t : Tid) (p : Nat) (bs : List Byte) (ra : RegNo) (wb : Option Word) (th : Thread) :
    Stored s (worded ((s.store (some t.toNat) p bs).writeBack t.toNat ra wb) t th) t p bs := by
  obtain ⟨ths, hoth, e⟩ := writeBack_eq (s.store (some t.toNat) p bs) t.toNat ra wb
  obtain ⟨_, _, _, _, _, _, es⟩ := s.store_eq (some t.toNat) p bs
  have hmem : (worded ((s.store (some t.toNat) p bs).writeBack t.toNat ra wb) t th).mem = (s.store (some t.toNat) p bs).mem := by
    rw [worded_mem, e]
  refine ⟨fun hc => ?_, fun x hx => ?_, fun r => ?_, ?_, ?_, ?_, fun u hu => ?_⟩
  · rw [State.bytes_congr hmem, s.store_bytes (some t.toNat) p bs hc]
  · rw [State.byte, hmem, ← State.byte, State.store_byte_outside s _ p x bs hx]
  · rw [worded_resvs, e]
    simpa [keptBy] using s.store_resvs (some t.toNat) p bs r
  · rw [worded_regs, e, es]
  · rw [worded_tb, e, es]
  · rw [worded_pending, e, es]
  · rw [worded_thr_other _ _ _ hu, hoth u hu, State.store_thr]

/-- Settles O12: the store's place answers, the store is performed there, and the word ends. -/
theorem storesElastic : Obligations.StoresElastic := by
  intro s i t rs ra m dd n ea wb p hi h he hc hm hp
  have hb := storeBody_placed (rs := rs) he hc hm hp
  have hth : (((s.store (some t.toNat) p (leBytes n ((s.thr t.toNat).get rs).toNat)).writeBack t.toNat ra wb).thr t.toNat) =
      withBase (s.thr t.toNat) ra wb := by rw [writeBack_thr, State.store_thr]
  obtain ⟨hmode, hmip, hpc⟩ := withBase_mode (s.thr t.toNat) ra wb
  refine ⟨_, exec_storeForm hi s, ?_, ?_⟩ <;>
    rw [runWord_seq i h hb (by rw [hth, hmode]; exact he) (by rw [hth, hmip]; exact h.mip)]
  · exact stored_worded ..
  · rw [worded_thr, hth, hpc]

end Sys2Proof.Says

/-! PROOF. Taking an exception whose frame and vector lie in the core's own SRAMs (04 R129 to R135). -/

namespace Sys2Proof.Machine

/-! ### The frame -/

/-- The state once the 8-byte words `vs` have been stored from `p` on by thread `t`. -/
def State.storeWords (s : State) (t p : Nat) : List Nat → State
  | [] => s
  | v :: vs => (s.store (some t) p (leBytes 8 v)).storeWords t (p + 8) vs

theorem State.storeWords_eq (vs : List Nat) : ∀ (s : State) (t p : Nat),
    ∃ m c u ca rv cs, s.storeWords t p vs = { s with mem := m, eccC := c, eccU := u, caches := ca, resvs := rv, cores := cs } := by
  induction vs with
  | nil => exact fun s t p => ⟨_, _, _, _, _, _, rfl⟩
  | cons v vs ih =>
    intro s t p
    obtain ⟨_, _, _, _, _, _, e⟩ := s.store_eq (some t) p (leBytes 8 v)
    obtain ⟨_, _, _, _, _, _, e'⟩ := ih (s.store (some t) p (leBytes 8 v)) t (p + 8)
    exact ⟨_, _, _, _, _, _, by rw [State.storeWords, e', e]⟩

theorem State.storeWords_thr (s : State) (t p : Nat) (vs : List Nat) (n : Nat) : (s.storeWords t p vs).thr n = s.thr n := by
  obtain ⟨_, _, _, _, _, _, e⟩ := State.storeWords_eq vs s t p
  rw [e]
  rfl

theorem State.storeWords_ecc (vs : List Nat) : ∀ (s : State) (t p : Nat), s.eccC = [] → s.eccU = [] →
    (s.storeWords t p vs).eccC = [] ∧ (s.storeWords t p vs).eccU = [] := by
  induction vs with
  | nil => exact fun s t p hc hu => ⟨hc, hu⟩
  | cons v vs ih =>
    intro s t p hc hu
    obtain ⟨hc', hu'⟩ := s.store_ecc (some t) p (leBytes 8 v) hc hu
    exact ih _ t _ hc' hu'

/-- Words stored in a row leave every other byte alone. -/
theorem State.storeWords_outside (vs : List Nat) : ∀ (s : State) (t p x : Nat), (x < p ∨ p + 8 * vs.length ≤ x) →
    (s.storeWords t p vs).byte x = s.byte x := by
  induction vs with
  | nil => exact fun s t p x _ => rfl
  | cons v vs ih =>
    intro s t p x h
    rw [List.length_cons] at h
    rw [State.storeWords, ih _ t _ x (by omega), State.store_byte_outside _ _ _ _ _ (by rw [leBytes_length]; omega)]

theorem State.bytes_append (s : State) (a m n : Nat) : s.bytes a (m + n) = s.bytes a m ++ s.bytes (a + m) n := by
  simp only [State.bytes_eq, List.range_add, List.map_append, List.map_map]
  congr 1
  exact List.map_congr_left (fun i _ => by rw [Function.comp, Nat.add_assoc])

/-- Words stored in a row read back. -/
theorem State.storeWords_bytes (vs : List Nat) : ∀ (s : State) (t p : Nat), Memory.wf s.mem →
    (s.storeWords t p vs).bytes p (8 * vs.length) = vs.flatMap (leBytes 8) := by
  induction vs with
  | nil => exact fun s t p _ => rfl
  | cons v vs ih =>
    intro s t p h
    have hlen := leBytes_length 8 v
    have hfirst : ((s.store (some t) p (leBytes 8 v)).storeWords t (p + 8) vs).bytes p 8 = leBytes 8 v := by
      have hb := s.store_bytes (some t) p (leBytes 8 v) h
      rw [hlen] at hb
      refine Eq.trans ?_ hb
      rw [State.bytes_eq, State.bytes_eq]
      exact List.map_congr_left fun i hi =>
        State.storeWords_outside vs _ t _ _ (.inl (by have := List.mem_range.mp hi; omega))
    rw [List.length_cons, show 8 * (vs.length + 1) = 8 + 8 * vs.length by omega, State.bytes_append, State.storeWords, hfirst,
      ih _ t _ (State.store_wf _ _ _ _ h), List.flatMap_cons]

theorem dRegion_dsram {a : Nat} (h : a < 0x8000) : dRegion a = .dsram := by
  rw [dRegion, if_pos h]

/-- A frame in the own data SRAM of an Elastic thread is stored. -/
theorem storeFrame_dsram (vs : List Nat) : ∀ {s : State} {t a : Nat}, (s.thr t).mode = false → s.eccC = [] → s.eccU = [] →
    a + 8 * vs.length ≤ 0x8000 → storeFrame t a vs s = .ok () (s.storeWords t (dsramBase (t / 4) + a) vs) := by
  induction vs with
  | nil => exact fun _ _ _ _ => rfl
  | cons v vs ih =>
    intro s t a hm hc hu h
    rw [List.length_cons] at h
    have hreg : ∀ i, i < (leBytes 8 v).length → dRegion (a + i) = dRegion a := fun i hi => by
      rw [leBytes_length] at hi
      rw [dRegion_dsram (by omega), dRegion_dsram (by omega)]
    have hst : storeNat t a 8 v s = .ok () (s.store (some t) (dsramBase (t / 4) + a) (leBytes 8 v)) :=
      storeBytes_die hreg (by simp only [place, physOf, dRegion_dsram (show a < 0x8000 by omega)]) hm hc hu
    obtain ⟨hc', hu'⟩ := s.store_ecc (some t) (dsramBase (t / 4) + a) (leBytes 8 v) hc hu
    have hrest := ih (s := s.store (some t) (dsramBase (t / 4) + a) (leBytes 8 v)) (t := t) (a := a + 8)
      (by rw [State.store_thr]; exact hm) hc' hu' (by omega)
    simp only [storeFrame, bind, EStateM.bind, atAddr, hst, hrest]
    rfl

/-! ### The vector -/

/-- The word of an instruction SRAM is read where it lies. -/
theorem readInstr_isram {s : State} {t a : Nat} (h : a < 0x8000) (fetch : Bool) (hc : s.eccC = []) (hu : s.eccU = []) :
    readInstr t a fetch s = .ok (BitVec.ofNat 32 (leNat (s.bytes (isramBase (t / 4) + a) 4))) s := by
  have hr : iRegion a = .isram := by rw [iRegion, if_pos h]
  have hrc : (IRegion.isram == .cluster || IRegion.isram == .host) = false := rfl
  simp only [readInstr, hrc, Bool.and_false, Bool.false_eq_true, if_false, readInstr1, hr, State.badRead, hu, List.isEmpty_nil,
    Bool.not_true, Bool.false_and, State.correct, State.corrIn, hc, if_true, List.foldl_nil]

end Sys2Proof.Machine

namespace Sys2Proof.Says

open Sys2Proof.Machine

/-- The vector of a table in the own instruction SRAM. -/
theorem readVector_isram {s : State} {t : Tid} {v vb : Nat} (hv : (s.thr t.toNat).vbase.toNat = vb)
    (h : vb + 4 * v + 4 ≤ 0x8000) (hc : s.eccC = []) (hu : s.eccU = []) (ha : (sramWord s t (vb + 4 * v)).toNat % 4 = 0) :
    readVector t.toNat v s = .ok (sramWord s t (vb + 4 * v)) s := by
  have hmod : (vb + 4 * v) % 2 ^ 32 = vb + 4 * v := Nat.mod_eq_of_lt (by omega)
  have hr : (iRegion (vb + 4 * v) == .rom) = false := by
    rw [iRegion, if_pos (by omega)]
    rfl
  have hi := readInstr_isram (s := s) (t := t.toNat) (a := vb + 4 * v) (by omega) true hc hu
  simp only [sramWord] at ha ⊢
  simp only [readVector, look, bind, EStateM.bind, hv, hmod, atAddr, hi, hr, Bool.false_eq_true, if_false, ha, if_true]
  rfl

/-- The instruction SRAMs lie above the data SRAMs. -/
theorem sramWord_congr {s u : State} {t : Tid} {a p n : Nat}
    (h : ∀ x, x < p ∨ p + n ≤ x → u.byte x = s.byte x) (hp : p + n ≤ 0x2000000000000) : sramWord u t a = sramWord s t a := by
  have hb : u.bytes (isramBase (t.toNat / 4) + a) 4 = s.bytes (isramBase (t.toNat / 4) + a) 4 := by
    simp only [State.bytes_eq]
    refine List.map_congr_left fun i _ => h _ (.inr ?_)
    unfold isramBase
    omega
  rw [sramWord, hb, sramWord]

theorem dsram_below (t : Tid) {f : Nat} (h : f ≤ 0x8000) : dsramBase (t.toNat / 4) + f ≤ 0x2000000000000 := by
  have := t.isLt
  unfold dsramBase
  omega

/-! ### The frame's bytes -/

/-- The words of the frame of an entry, in ascending order (04 R132). -/
def frameWords (th : Thread) (v : Nat) (pc st : Word32) : List Nat :=
  [pc.toNat, st.toNat + v * 2 ^ 32, th.lk.toNat, (th.get 1).toNat, (th.get 2).toNat, (th.get 3).toNat, (th.get 4).toNat,
    (th.get 5).toNat]

theorem leBytes_add (m n x y : Nat) (h : x < 256 ^ m) : leBytes (m + n) (x + y * 256 ^ m) = leBytes m x ++ leBytes n y := by
  induction m generalizing x with
  | zero =>
    have : x = 0 := by simpa using h
    simp [leBytes, this]
  | succ m ih =>
    have hx : x / 256 < 256 ^ m := by
      rw [Nat.div_lt_iff_lt_mul (by decide), ← Nat.pow_succ]
      exact h
    have hdiv : (x + y * 256 ^ (m + 1)) / 256 = x / 256 + y * 256 ^ m := by
      rw [Nat.pow_succ, ← Nat.mul_assoc, Nat.add_mul_div_right _ _ (by decide)]
    have hbyte : BitVec.ofNat 8 (x + y * 256 ^ (m + 1)) = BitVec.ofNat 8 x := by
      apply BitVec.eq_of_toNat_eq
      rw [BitVec.toNat_ofNat, BitVec.toNat_ofNat, Nat.pow_succ, ← Nat.mul_assoc, Nat.add_mul_mod_self_right]
    rw [show m + 1 + n = (m + n) + 1 by omega, leBytes, hdiv, hbyte, ih _ hx, leBytes, List.cons_append]

theorem frameWords_bytes (th : Thread) (v : Nat) (pc st : Word32) :
    (frameWords th v pc st).flatMap (leBytes 8) = entryFrameBytes th v pc st := by
  have h := leBytes_add 4 4 st.toNat v (by have := st.isLt; omega)
  simp only [frameWords, entryFrameBytes, List.flatMap_cons, List.flatMap_nil, List.append_nil, List.append_assoc, Thread.lk]
  rw [show st.toNat + v * 2 ^ 32 = st.toNat + v * 256 ^ 4 by norm_num, h]
  simp only [List.append_assoc]

/-- The frame is stored and the vector read: the handler's address, and the state with the frame. -/
theorem entryFrame_sram {s : State} {t : Tid} {v : Nat} (h : EntrySpace s t v) (pc st : Word32) :
    entryFrame t.toNat v pc st s = .ok (sramWord s t ((s.thr t.toNat).vbase.toNat + 4 * v))
      (s.storeWords t.toNat (dsramBase (t.toNat / 4) + ((s.thr t.toNat).sp - 64).toNat) (frameWords (s.thr t.toNat) v pc st)) := by
  obtain ⟨he, ⟨hc, hu, -⟩, hf, hv, ha⟩ := h
  have hm : (s.thr t.toNat).mode = false := he
  generalize hfr : ((s.thr t.toNat).sp - 64).toNat = f at hf ⊢
  have hstore := storeFrame_dsram (frameWords (s.thr t.toNat) v pc st) hm hc hu (a := f) (by simpa [frameWords] using hf)
  obtain ⟨hc', hu'⟩ := State.storeWords_ecc (frameWords (s.thr t.toNat) v pc st) s t.toNat (dsramBase (t.toNat / 4) + f) hc hu
  have hw := sramWord_congr (t := t) (a := (s.thr t.toNat).vbase.toNat + 4 * v)
    (State.storeWords_outside (frameWords (s.thr t.toNat) v pc st) s t.toNat (dsramBase (t.toNat / 4) + f))
    (by have := dsram_below t hf; simp only [frameWords, List.length_cons, List.length_nil]; omega)
  have hvec := readVector_isram (s := s.storeWords t.toNat (dsramBase (t.toNat / 4) + f) (frameWords (s.thr t.toNat) v pc st))
    (by rw [State.storeWords_thr]) hv hc' hu' (by rw [hw]; exact ha)
  rw [hw] at hvec
  have hall : frameAllowed t.toNat f s = .ok () s := by simp only [frameAllowed, hm, Bool.false_and, Bool.false_eq_true, if_false]
  simp only [frameWords] at hstore hvec
  simp only [entryFrame, look, bind, EStateM.bind, hfr, hall, hstore, hvec, frameWords]

/-! ### Entry to the handler -/

/-- The thread as it enters its handler (04 R132). -/
def enteredThread (th : Thread) (handler : Word32) : Thread :=
  { (th.set 30 (th.sp - 64)).drop with
    st := stAfterEntry th.st, pc := handler, waitAt := none, far := none, resume := none,
    tstate := if th.tstate == .meteredRun then .meteredRun else .ready }

theorem lbDrop_eq (s : State) (t : Nat) : ∃ c, s.lbDrop t = { s with cores := c } := by
  unfold State.lbDrop
  split
  · split
    · exact ⟨_, rfl⟩
    · exact ⟨s.cores, rfl⟩
  · exact ⟨s.cores, rfl⟩

theorem setCause_eq (s : State) (t : Nat) (x : Raise) (failed : Bool) : ∃ r, s.setCause t x failed = { s with regs := r } := by
  unfold State.setCause
  dsimp only
  split <;> split <;> exact ⟨_, rfl⟩

/-- A handler of a table outside the boot ROM is entered: the thread, its reservation, arbiters, the loop buffer and the
cause registers change. -/
theorem enterHandler_eq {s : State} {t : Nat} (x : Raise) (handler : Word32) (hv : (s.thr t).vbase ≠ 0xFFFF0000#32) :
    ∃ a c r, s.enterHandler t x none handler = { s with
      threads := tblPut s.threads t (enteredThread (s.thr t) handler), arbs := a, cores := c, regs := r,
      resvs := s.resvs.filter (fun r => decide (r.1 ≠ t)) } := by
  have hvb : ((s.modThr t (fun th => enteredThread th handler)).thr t).vbase ≠ 0xFFFF0000#32 := by
    rw [State.thr_modThr_same, enteredThread, Thread.drop, Thread.set]
    split <;> exact hv
  obtain ⟨a, ea⟩ := (s.modThr t (fun th => enteredThread th handler)).leaveArbs_eq t
  obtain ⟨c, ec⟩ := lbDrop_eq (((s.modThr t (fun th => enteredThread th handler)).leaveArbs t).dropResv t) t
  obtain ⟨r, er⟩ := setCause_eq ((((s.modThr t (fun th => enteredThread th handler)).leaveArbs t).dropResv t).lbDrop t) t x false
  refine ⟨a, c, r, ?_⟩
  have hrom : ∀ u : State, u.thr t = (s.modThr t (fun th => enteredThread th handler)).thr t → u.romRoutine t x.vector.toNat = u := by
    intro u hu
    rw [State.romRoutine, hu, if_neg (fun h => hvb h.2.2)]
  have e : s.enterHandler t x none handler =
      ((((((s.modThr t (fun th => enteredThread th handler)).leaveArbs t).dropResv t).lbDrop t).setCause t x false).romRoutine t
        x.vector.toNat) := rfl
  rw [e, hrom _ (by rw [er, ec, State.dropResv, ea]; rfl), er, ec, State.dropResv, ea]
  rfl

/-- The state in which an entry to vector `v` enters its handler: the frame stored. -/
def framed (s : State) (t : Tid) (v : Nat) (pc : Word32) : State :=
  s.storeWords t.toNat (dsramBase (t.toNat / 4) + ((s.thr t.toNat).sp - 64).toNat)
    (frameWords (s.thr t.toNat) v pc (stAfterEntry (s.thr t.toNat).st))

/-- The handler of vector `v`, as the table in the own instruction SRAM names it. -/
def handlerOf (s : State) (t : Tid) (v : Nat) : Word32 := sramWord s t ((s.thr t.toNat).vbase.toNat + 4 * v)

/-- With the frame stored, entry to the handler completes the entry. -/
theorem enterHandler_entered {s : State} {t : Tid} {v : Nat} (x : Raise) (pc : Word32) (h : EntrySpace s t v)
    (hs : (s.thr t.toNat).tstate ≠ .meteredRun) :
    Entered s ((framed s t v pc).enterHandler t.toNat x none (handlerOf s t v)) t v pc := by
  obtain ⟨-, -, hf, hvb, -⟩ := h
  have hvbase : (s.thr t.toNat).vbase ≠ 0xFFFF0000#32 := fun e => by
    rw [e] at hvb
    have : (0xFFFF0000#32).toNat = 0xFFFF0000 := rfl
    omega
  have hth : (framed s t v pc).thr t.toNat = s.thr t.toNat := State.storeWords_thr ..
  obtain ⟨a, c, r, e⟩ := enterHandler_eq (s := framed s t v pc) (t := t.toNat) x (handlerOf s t v) (by rw [hth]; exact hvbase)
  have hnew : ((framed s t v pc).enterHandler t.toNat x none (handlerOf s t v)).thr t.toNat =
      enteredThread (s.thr t.toNat) (handlerOf s t v) := by
    rw [e, State.thr, tblGet_tblPut_same, hth]
    rfl
  have hmem : ((framed s t v pc).enterHandler t.toNat x none (handlerOf s t v)).mem = (framed s t v pc).mem := by rw [e]
  refine ⟨fun hc => ?_, fun y hy => ?_, ?_, ?_, ?_, ?_, ?_, fun g => ?_⟩
  · rw [State.bytes_congr hmem]
    have hb := State.storeWords_bytes (frameWords (s.thr t.toNat) v pc (stAfterEntry (s.thr t.toNat).st)) s t.toNat
      (dsramBase (t.toNat / 4) + ((s.thr t.toNat).sp - 64).toNat) hc
    rw [frameWords_bytes] at hb
    exact hb
  · rw [State.byte, hmem, ← State.byte, framed, State.storeWords_outside]
    simpa [frameWords] using hy
  · rw [hnew]
    rfl
  · rw [hnew]
    rfl
  · rw [hnew, enteredThread]
    simp [hs]
  · rw [hnew, enteredThread, Thread.drop, Thread.set]
    split <;> rfl
  · rw [hnew, enteredThread, Thread.drop, Thread.set]
    split <;> rfl
  · rw [e]
    simp

/-- An exception whose frame and vector lie in the own SRAMs is taken: the thread enters the handler. -/
theorem takeException_entered {s : State} {t : Tid} {v : Nat} (x : Raise) (pc : Word32) (hx : x.vector.toNat = v)
    (h : EntrySpace s t v) (hs : (s.thr t.toNat).tstate ≠ .meteredRun) :
    ∃ s', takeException t.toNat x pc none s = .ok () s' ∧ Entered s s' t v pc := by
  refine ⟨_, ?_, enterHandler_entered x pc h hs⟩
  simp only [takeException, hx, entryFrame_sram h pc (frameSt (s.thr t.toNat) none)]
  rfl

/-- The device's look at itself after an entry leaves it as it is. -/
theorem Entered.settle {s u : State} {t : Tid} {v : Nat} {pc : Word32} (h : Entered s u t v pc) :
    Entered s u.settle t v pc := by
  obtain ⟨hframe, hbytes, hregs, hpc, hst, hheld, hvb, hres⟩ := h
  have k := Settled.settle u
  obtain ⟨m, hm⟩ := k.thr t.toNat
  refine ⟨fun hc => ?_, fun x hx => ?_, ?_, ?_, ?_, ?_, ?_, fun g => ?_⟩
  · rw [k.bytes]
    exact hframe hc
  · rw [k.byte]
    exact hbytes x hx
  · rw [hm]
    exact hregs
  · rw [hm]
    exact hpc
  · rw [hm]
    exact hst
  · rw [hm]
    exact hheld
  · rw [hm]
    exact hvb
  · rw [k.resvs]
    exact hres g

end Sys2Proof.Says

/-! PROOF. Thread reset, the timers of a thread and of a core, and the update of Boundary fields (00 R11; 03 R86; 04 R136,
R138). -/

namespace Sys2Proof.Machine

/-! ### Registers of a core's block -/

/-- An element of an array over the cores: the core's place in it, then the place in the arrays within a core's block. -/
theorem matchDims_core {c x : Nat} (hc : c < 512) (hx : x < 2048) (rest : List (Nat × Nat)) :
    matchDims (coOff c + x) ((262144, 8) :: (32768, 8) :: (2048, 8) :: rest) =
      (matchDims x rest).map (fun i => c * (rest.map (·.2)).prod + i) := by
  have h1 : (coOff c + x) / 262144 = c / 64 := by unfold coOff; omega
  have h2 : (coOff c + x) % 262144 / 32768 = c / 8 % 8 := by unfold coOff; omega
  have h3 : (coOff c + x) % 262144 % 32768 / 2048 = c % 8 := by unfold coOff; omega
  have h4 : (coOff c + x) % 262144 % 32768 % 2048 = x := by unfold coOff; omega
  simp only [matchDims, h1, h2, h3, h4, show c / 64 < 8 by omega, show c / 8 % 8 < 8 by omega, show c % 8 < 8 by omega, if_true]
  cases matchDims x rest with
  | none => rfl
  | some i =>
    simp only [Option.map_some, List.map_cons, List.prod_cons]
    congr 1
    generalize (rest.map (·.2)).prod = q
    have hq : c * q = (c / 64 * 64 + c / 8 % 8 * 8 + c % 8) * q := by congr 1; omega
    rw [hq]
    ring

theorem pageRegs_co {a : Nat} (h : 0x200000 ≤ a) (h' : a < 0x400000) (ho : a % 0x8000 < 0x4000) : pageRegs a = regsCO := by
  unfold pageRegs
  split
  case h_16 => rw [if_neg (by omega), if_pos (by omega), if_pos ho]
  all_goals omega

/-- The registers of a core lie in its block. -/
theorem pageRegs_coOff {c x : Nat} (hc : c < 512) (hx : x < 2048) : pageRegs (0x200000 + (coOff c + x)) = regsCO := by
  refine pageRegs_co ?_ ?_ ?_ <;> unfold coOff <;> omega

/-- A register array over the cores, at an address of a core's block above its first register. -/
theorem at_coOff {c x b : Nat} (hc : c < 512) (hx : x < 2048) (hb : 0x200000 ≤ b) (hbx : b ≤ 0x200000 + x)
    (rest : List (Nat × Nat)) (fs : List RegField) :
    (⟨b, (262144, 8) :: (32768, 8) :: (2048, 8) :: rest, fs⟩ : RegDesc).at (0x200000 + (coOff c + x)) =
      (matchDims (0x200000 + x - b) rest).map (fun i => c * (rest.map (·.2)).prod + i) := by
  have hle : b ≤ 0x200000 + (coOff c + x) := by omega
  have e : 0x200000 + (coOff c + x) - b = coOff c + (0x200000 + x - b) := by omega
  simp only [RegDesc.at, hle, if_true, e]
  exact matchDims_core hc (by omega) rest

/-- CO_TCTL of a thread. -/
theorem findReg_tctl (t : Tid) : findReg (Reg.CO_TCTL + thOff t.toNat) =
    some (⟨Reg.CO_TCTL, [(262144, 8), (32768, 8), (2048, 8), (64, 4)], [⟨0, 1, .wo, .live, 0⟩]⟩, t.toNat) := by
  have ht := t.isLt
  generalize t.toNat = n at ht ⊢
  obtain ⟨c, i, hc, hi, rfl⟩ : ∃ c i, c < 512 ∧ i < 4 ∧ n = 4 * c + i := ⟨n / 4, n % 4, by omega, by omega, by omega⟩
  have ha : Reg.CO_TCTL + thOff (4 * c + i) = 0x200000 + (coOff c + (0x100 + i * 0x40)) := by
    rw [thOff, show (4 * c + i) / 4 = c by omega, show (4 * c + i) % 4 = i by omega]
    simp only [Reg.CO_TCTL]
    omega
  have hx : 0x100 + i * 0x40 < 2048 := by omega
  have hat := fun (b : Nat) (hb : 0x200000 ≤ b) (hb' : b ≤ 0x200100) => at_coOff (b := b) hc hx hb (by omega)
  -- the single registers of the block lie below, and so do the eight of CO_IOPERM
  have single : ∀ b : Nat, b < 0x200100 → matchDims (0x200000 + (0x100 + i * 0x40) - b) [] = none := fun b hb => by
    rw [matchDims, if_neg (by omega)]
  have ioperm : matchDims (0x200000 + (0x100 + i * 0x40) - 0x200010) [(4, 8)] = none := by
    rw [matchDims, if_neg (by omega)]
  have tctl : matchDims (0x200000 + (0x100 + i * 0x40) - 0x200100) [(64, 4)] = some i := by
    have h1 : (0x200000 + (0x100 + i * 0x40) - 0x200100) / 64 = i := by omega
    have h2 : (0x200000 + (0x100 + i * 0x40) - 0x200100) % 64 = 0 := by omega
    rw [matchDims, h1, h2, if_pos hi]
    simp [matchDims]
  rw [ha, findReg, pageRegs_coOff hc hx]
  simp only [regsCO, List.findSome?_cons, hat Reg.CO_ID (by decide) (by decide), hat Reg.CO_CTL (by decide) (by decide),
    hat Reg.CO_STS (by decide) (by decide), hat Reg.CO_IOPERM (by decide) (by decide), hat Reg.CO_LTCTL (by decide) (by decide),
    hat Reg.CO_MBEATS (by decide) (by decide), hat Reg.CO_SLACK (by decide) (by decide),
    hat Reg.CO_TCTL (by decide) (by decide), single _ (show Reg.CO_ID < 0x200100 by decide),
    single _ (show Reg.CO_CTL < 0x200100 by decide), single _ (show Reg.CO_STS < 0x200100 by decide), ioperm,
    single _ (show Reg.CO_LTCTL < 0x200100 by decide), single _ (show Reg.CO_MBEATS < 0x200100 by decide),
    single _ (show Reg.CO_SLACK < 0x200100 by decide), tctl, Option.map_none, Option.map_some]
  simp [Nat.mul_comm]

end Sys2Proof.Machine

/-! PROOF. Thread resets, the time-outs and the update of Boundary fields (00 R11; 03 R86; 04 R136, R138). -/

namespace Sys2Proof.Machine

/-! ### Writes that store nothing -/

/-- A register stored as it is reads as it did. -/
theorem State.reg_setReg_self (s : State) (a n : Nat) : (s.setReg a (s.reg a)).reg n = s.reg n := by
  by_cases h : n = a
  · rw [h, State.reg_setReg_same]
  · exact State.reg_setReg_other _ _ h

/-- A write of a register without a field that takes or clears bits stores it as it is. -/
theorem storeReg_unwritable {d : RegDesc} (h : ∀ f ∈ d.fields, f.acc = .ro ∨ f.acc = .wo ∨ f.acc = .rc) (s : State)
    (i a : Nat) (v : Word32) : s.storeReg d i a v = s.setReg a (s.reg a) := by
  have hfold : ∀ (ok : Bool) (w : Word32), d.fields.foldl (writeField ok v) w = w := by
    intro ok w
    generalize d.fields = fs at h
    induction fs with
    | nil => rfl
    | cons f fs ih =>
      have hf : writeField ok v w f = w := by
        rcases h f (List.mem_cons_self) with e | e | e <;> simp only [writeField, e]
      rw [List.foldl_cons, hf, ih (fun g hg => h g (List.mem_cons_of_mem _ hg))]
  have hch : changesStopped d v (s.reg a) = false := by
    rw [changesStopped, List.any_eq_false]
    intro f hf
    rcases h f hf with e | e | e <;> simp [e]
  simp [State.storeReg, hfold, hch]

/-- A write outside the Porter's block, of a register that no busy engine or bank holds, takes place. -/
theorem writeDiscarded_none {s : State} {b a : Nat} (hr : s.blockRetired a = false) (hp : a / 0x10000 ≠ 0x0C)
    (hb : b ∉ [Reg.PS_BA, Reg.PS_BB, Reg.LL_PMCMD, Reg.LL_PMDATA]) : s.writeDiscarded b a = none := by
  simp only [List.mem_cons, List.not_mem_nil, or_false, not_or] at hb
  obtain ⟨h1, h2, h3, h4⟩ := hb
  have hbank : a / 0x2000 * 0x2000 ≠ (if s.cfg Fld.PO_CTL_GBANK = 0 then Reg.PO_GA else Reg.PO_GB) := by
    split <;> simp only [Reg.PO_GA, Reg.PO_GB] <;> omega
  simp only [State.writeDiscarded, hr, hbank, h1, h2, h3, h4, false_and, or_self, if_false, Bool.false_eq_true]

/-- Outside the CO and RG blocks nothing is retired. -/
theorem blockRetired_low {s : State} {a : Nat} (h : a < 0x200000) : s.blockRetired a = false := by
  rw [State.blockRetired, if_pos (.inl h)]

/-- A write of a register that stores its fields and is no half of a pair: the fields, then what it makes happen. -/
theorem writeReg_plain {s : State} {d : RegDesc} {a : Nat} (hd : s.writeDiscarded d.base a = none)
    (hlo : pairLows.contains d.base = false) (hhi : isPairHi a = false) (ht : d.base ≠ Reg.TY_CTL)
    (hact : actsOnly d.base = false) (rq : Requester) (i : Nat) (v : Word32) :
    s.writeReg rq d i a v = (s.storeReg d i a v).afterWrite rq d.base i a (s.reg a) v := by
  simp only [State.writeReg, hd, hlo, hhi, State.writePlain, ht, hact, if_false, Bool.false_eq_true]

/-! ### The reset of a thread's registers -/

/-- A thread once its registers are reset (04 R136). -/
def clearedThread (th : Thread) (t : Nat) (mode : Bool) : Thread :=
  { th.drop with
    regs := Vector.replicate 32 0, held := 0, wtmo := 0, spin := none, waitAt := none, far := none,
    resume := none, lbCand := [], claims := [],
    st := BitVec.ofNat 32 (b2n mode + 8 * b2n (t == steward)) }

theorem Calm.releaseClaims (s : State) (t : Nat) : Calm s (s.releaseClaims t) := by
  unfold State.releaseClaims
  refine Calm.foldl (fun u x h => ?_) _ s (Calm.refl s)
  unfold State.endClaim
  dsimp only [Bool.false_and]
  exact .ite _ h (.ite _ ((h.setSrc ..).countEvent _) (h.setSrc ..))

/-- The registers' reset: claims are released, then the thread, its arbiters, its reservation and the loop buffer. -/
theorem resetRegs_eq (s : State) (t : Nat) (mode : Bool) : ∃ u a c, Calm s u ∧ s.resetRegs t mode = { u with
    threads := tblPut u.threads t (clearedThread (u.thr t) t mode), arbs := a, cores := c,
    resvs := u.resvs.filter (fun r => decide (r.1 ≠ t)) } := by
  obtain ⟨a, ea⟩ := (s.releaseClaims t).leaveArbs_eq t
  obtain ⟨c, ec⟩ := Says.lbDrop_eq (((s.releaseClaims t).leaveArbs t).dropResv t) t
  refine ⟨_, a, c, Calm.releaseClaims s t, ?_⟩
  have e : s.resetRegs t mode =
      (((s.releaseClaims t).leaveArbs t).dropResv t |>.lbDrop t).modThr t (fun th => clearedThread th t mode) := rfl
  rw [e, ec, State.dropResv, ea]
  rfl

end Sys2Proof.Machine

namespace Sys2Proof.Says

open Sys2Proof.Machine

/-! ### A reset thread -/

/-- What a reset of thread `t` leaves (04 R136). -/
def ResetDone (s s' : State) (t : Tid) : Prop :=
  s'.mem = s.mem ∧ (∀ r, (s'.thr t.toNat).get r = 0) ∧ (s'.thr t.toNat).held = 0 ∧ (s'.thr t.toNat).wtmo = 0 ∧
    (s'.thr t.toNat).vbase = (s.thr t.toNat).vbase ∧ (s'.thr t.toNat).tstate = .ready ∧
    (s'.thr t.toNat).pc = sramWord s t (s.thr t.toNat).vbase.toNat ∧ (∀ g, (t.toNat, g) ∉ s'.resvs) ∧
    (s'.thr t.toNat).st = if t = 0 then 8 else 0

/-- The device's look at itself leaves a reset thread as it is. -/
theorem ResetDone.settled {s u w : State} {t : Tid} (h : ResetDone s u t) (k : Settled u w) : ResetDone s w t := by
  obtain ⟨hmem, hregs, hheld, hwtmo, hvb, hts, hpc, hres, hst⟩ := h
  obtain ⟨m, hm⟩ := k.thr t.toNat
  refine ⟨k.mem.trans hmem, ?_⟩
  rw [hm, k.resvs]
  exact ⟨hregs, hheld, hwtmo, hvb, hts, hpc, hres, hst⟩

theorem ResetDone.haltRefresh {s u : State} {t : Tid} (h : ResetDone s u t) (cl : Nat) : ResetDone s (u.haltRefresh cl) t :=
  h.settled (Settled.ofCalm ((Calm.refl u).level _ _))

theorem clearedThread_get (th : Thread) (t : Nat) (mode : Bool) (r : RegNo) : (clearedThread th t mode).get r = 0 := by
  simp [Thread.get, clearedThread]

/-- Thread 0 is privileged from its reset (04 R136). -/
theorem resetStatus (t : Tid) : BitVec.ofNat 32 (b2n false + 8 * b2n (t.toNat == steward)) = if t = 0 then 8 else 0 := by
  by_cases h : t = 0
  · subst h
    decide
  · have hne : t.toNat ≠ 0 := fun e => h (BitVec.eq_of_toNat_eq e)
    rw [if_neg h]
    simp [steward, hne, b2n]

/-- A thread reset whose vector lies in the own instruction SRAM (04 R136). -/
theorem threadReset_done {s : State} {t : Tid} (hm : s.coreMetered (t.toNat / 4) = false) (hc : Clean s)
    (hv : (s.thr t.toNat).vbase.toNat + 4 ≤ 0x8000) (ha : (sramWord s t (s.thr t.toNat).vbase.toNat).toNat % 4 = 0) :
    ∃ s', threadReset t.toNat s = .ok () s' ∧ ResetDone s s' t := by
  obtain ⟨u, a, c, k, e⟩ := resetRegs_eq s t.toNat false
  obtain ⟨m, hth⟩ := k.thr t.toNat
  have hthr : (s.resetRegs t.toNat false).thr t.toNat = clearedThread (u.thr t.toNat) t.toNat false := by
    rw [e, State.thr, tblGet_tblPut_same]
    rfl
  have hvb : (clearedThread (u.thr t.toNat) t.toNat false).vbase = (s.thr t.toNat).vbase := by rw [hth]; rfl
  have hmem : (s.resetRegs t.toNat false).mem = s.mem := by rw [e]; exact k.mem
  have hword : sramWord (s.resetRegs t.toNat false) t (s.thr t.toNat).vbase.toNat = sramWord s t (s.thr t.toNat).vbase.toNat := by
    rw [sramWord, State.bytes_congr hmem, sramWord]
  obtain ⟨hcc, huu, -⟩ := hc
  have hvec := readVector_isram (s := s.resetRegs t.toNat false) (t := t) (v := 0) (vb := (s.thr t.toNat).vbase.toNat)
    (by rw [hthr, hvb]) (by omega) (by rw [e]; exact k.eccC.trans hcc) (by rw [e]; exact k.eccU.trans huu)
    (by simpa only [Nat.mul_zero, Nat.add_zero, hword] using ha)
  simp only [Nat.mul_zero, Nat.add_zero, hword] at hvec
  have hrun : threadReset t.toNat s = .ok () (((s.resetRegs t.toNat false).modThr t.toNat (fun th =>
      { th with pc := sramWord s t (s.thr t.toNat).vbase.toNat, tstate := .ready })).haltRefresh (t.toNat / 32)) := by
    simp only [threadReset, hm, Bool.false_and, hvec]
  refine ⟨_, hrun, ResetDone.haltRefresh ?_ _⟩
  refine ⟨hmem, ?_⟩
  rw [State.thr_modThr_same, hthr]
  refine ⟨clearedThread_get (u.thr t.toNat) t.toNat false, rfl, rfl, hvb, rfl, rfl, fun g => ?_, resetStatus t⟩
  rw [State.modThr, State.setThr_resvs, e]
  simp

/-- A reset of an enabled thread outside the Metered role (04 R136). -/
theorem resetThread_done {s : State} {t : Tid} (hon : s.threadOn t.toNat = true)
    (hr : s.coreRetired (t.toNat / 4) = false) (hm : s.coreMetered (t.toNat / 4) = false) (hc : Clean s)
    (hv : (s.thr t.toNat).vbase.toNat + 4 ≤ 0x8000) (ha : (sramWord s t (s.thr t.toNat).vbase.toNat).toNat % 4 = 0) :
    ResetDone s (s.resetThread t.toNat) t := by
  obtain ⟨s', e, h⟩ := threadReset_done hm hc hv ha
  have hreset : s.resetThread t.toNat = s'.haltRefresh (t.toNat / 32) := by
    simp only [State.resetThread, hon, hr, hm, Bool.not_true, Bool.or_self, Bool.false_eq_true, if_false, State.doReset, e]
  rw [hreset]
  exact h.haltRefresh _

/-! ### CO_TCTL.RST -/

/-- CO_TCTL is neither half of a pair. -/
theorem tctl_noPair (t : Tid) : pairLows.contains Reg.CO_TCTL = false ∧ isPairHi (Reg.CO_TCTL + thOff t.toNat) = false := by
  refine ⟨by decide, ?_⟩
  by_contra hc
  obtain ⟨h4, e, j, he, hp⟩ := isPairHi_some (by simpa using hc)
  have h8 := pairLow_aligned he hp
  simp only [Reg.CO_TCTL, thOff, coOff] at h8
  omega

/-- A write of 1 to CO_TCTL.RST resets the thread. -/
theorem writeReg_rst {s : State} {rq : Requester} {t : Tid} {d : RegDesc} {k : Nat} {v : Word32}
    (h : Machine.findReg (Reg.CO_TCTL + thOff t.toNat) = some (d, k)) (hb : s.blockRetired (Reg.CO_TCTL + thOff t.toNat) = false)
    (hv : v.getLsbD 0 = true) :
    s.writeReg rq d k (Reg.CO_TCTL + thOff t.toNat) v =
      (s.setReg (Reg.CO_TCTL + thOff t.toNat) (s.reg (Reg.CO_TCTL + thOff t.toNat))).resetThread t.toNat := by
  rw [findReg_tctl] at h
  obtain ⟨rfl, rfl⟩ := Prod.mk.inj (Option.some.inj h)
  obtain ⟨hlo, hhi⟩ := tctl_noPair t
  have ht := t.isLt
  have hpage : 0x20 ≤ (Reg.CO_TCTL + thOff t.toNat) / 0x10000 := by
    simp only [Reg.CO_TCTL]
    omega
  generalize Reg.CO_TCTL + thOff t.toNat = b at hb hhi hpage ⊢
  have hdisc : s.writeDiscarded Reg.CO_TCTL b = none := writeDiscarded_none hb (by omega) (by decide)
  have hafter : ∀ (u : State) (old : Word32), u.afterWrite rq Reg.CO_TCTL t.toNat b old v = u.afterCore Reg.CO_TCTL t.toNat v := by
    intro u old
    unfold State.afterWrite
    split
    case h_16 => rfl
    all_goals omega
  rw [writeReg_plain hdisc hlo hhi (by decide) (by decide), hafter, storeReg_unwritable (by simp)]
  simp [State.afterCore, hv]

/-- A register stored as it is changes none of what a thread's reset asks. -/
theorem resetThread_setSelf {s : State} {t : Tid} (b : Nat) (hon : s.threadOn t.toNat = true)
    (hr : s.coreRetired (t.toNat / 4) = false) (hm : s.coreMetered (t.toNat / 4) = false) (hc : Clean s)
    (hv : (s.thr t.toNat).vbase.toNat + 4 ≤ 0x8000) (ha : (sramWord s t (s.thr t.toNat).vbase.toNat).toNat % 4 = 0) :
    ResetDone s ((s.setReg b (s.reg b)).resetThread t.toNat) t := by
  refine resetThread_done (s := s.setReg b (s.reg b)) hon ?_ ?_ hc hv ha
  · rw [State.coreRetired, State.reg_setReg_self]
    exact hr
  · rw [← hm]
    simp only [State.coreMetered, State.meteredRole, State.flag, State.get, State.reg_setReg_self]

theorem rst_done {s : State} {rq : Requester} {t : Tid} {d : RegDesc} {k b : Nat} (v : Word32)
    (h : Serves s rq (Reg.CO_TCTL + thOff t.toNat) true d k b) (hb : s.blockRetired b = false)
    (hon : s.threadOn t.toNat = true) (hr : s.coreRetired (t.toNat / 4) = false)
    (hm : s.coreMetered (t.toNat / 4) = false) (hc : Clean s) (hv : (s.thr t.toNat).vbase.toNat + 4 ≤ 0x8000)
    (ha : (sramWord s t (s.thr t.toNat).vbase.toNat).toNat % 4 = 0) :
    ∃ s', exec (.rst rq t v) s = .next s' ∧ ResetDone s s' t := by
  have hlt : Reg.CO_TCTL + thOff t.toNat < 0xFF0000 := by
    have := t.isLt
    simp only [Reg.CO_TCTL, thOff, coOff]
    omega
  obtain rfl := reach_addr h.reach_eq hlt
  have hf := h.findReg
  have hd : d.base = Reg.CO_TCTL := by
    rw [findReg_tctl] at hf
    obtain ⟨rfl, -⟩ := Prod.mk.inj (Option.some.inj hf)
    rfl
  have hbit : (v ||| 1#32).getLsbD 0 = true := by simp
  refine ⟨_, (exec_writeOf rfl s).trans (congrArg _ (h.write_plain _ (by rw [hd]; decide))), ?_⟩
  rw [writeReg_rst hf hb hbit]
  exact (resetThread_setSelf _ hon hr hm hc hv ha).settled (Settled.settleOn _)

/-! ### Time-outs -/

theorem waitTimeout_entered {s : State} {t : Tid} {since : Nat} (hw : (s.thr t.toNat).waitAt = some (since, true))
    (hs : (s.thr t.toNat).tstate = .wait) (hn : (s.thr t.toNat).wtmo ≠ 0)
    (hnow : since + (s.thr t.toNat).wtmo.toNat ≤ s.now) (ha : s.awake t.toNat = true)
    (hc : s.copyWriting (t.toNat / 32) = false) (ho : s.bestOffer t.toNat = none) (he : EntrySpace s t 11) :
    ∃ s', exec (.waitTimeout t) s = .next s' ∧ Entered s s' t 11 (s.thr t.toNat).pc := by
  obtain ⟨u, hu, h⟩ := takeException_entered { vector := xWaitTmo } (s.thr t.toNat).pc rfl he (by rw [hs]; decide)
  refine ⟨u.settle, ?_, h.settle⟩
  have e : exec (.waitTimeout t) s = execWaitTimeout t s := rfl
  have hn' : ((s.thr t.toNat).wtmo != 0) = true := by simpa using hn
  simp only [e, execWaitTimeout, hw, hs, hn', hnow, ha, hc, ho, hu, device, beq_self_eq_true, decide_true, Option.isNone_none,
    Bool.true_or, Bool.not_false, Bool.and_self, if_true]

/-- The timers' registers lie in the CO blocks, which the device does not write of itself. -/
theorem ltctl_notSelf (c : CoreId) : ¬ SelfReg (Reg.CO_LTCTL + coOff c.toNat) ∧ Reg.CO_LTCTL + coOff c.toNat ≠ Reg.AS_STS := by
  simp only [Reg.CO_LTCTL, Reg.AS_STS]
  refine ⟨fun h => ?_, by omega⟩
  have := h.place
  simp only [List.mem_cons, List.not_mem_nil, or_false] at this
  have hc := c.isLt
  unfold coOff at this
  omega

theorem localTimerExpiry_pend {s : State} {c : CoreId} {e : Nat} (h : (s.core c.toNat).ltimer = some e) (hn : e ≤ s.now) :
    ∃ s', exec (.localTimerExpiry c) s = .next s' ∧ s'.mem = s.mem ∧ (s'.core c.toNat).ltimer = none ∧
      s'.get Fld.CO_LTCTL_PEND (coOff c.toNat) = 1 := by
  obtain ⟨hself, has⟩ := ltctl_notSelf c
  have k := Settled.settle ((s.modCore c.toNat (fun k => { k with ltimer := none })).put Fld.CO_LTCTL_PEND 1 (coOff c.toNat))
  refine ⟨_, ?_, k.mem, ?_, ?_⟩
  · have e : exec (.localTimerExpiry c) s = execLocalTimerExpiry c s := rfl
    simp only [e, execLocalTimerExpiry, h, hn, if_true, device]
  · rw [k.core]
    exact congrArg Core.ltimer (State.core_setCore_same ..)
  · rw [k.get _ _ hself has]
    exact State.get_put_same _ _ _ _ (by decide)

/-! ### Fields in effect -/

/-- The fields of one update category take the values last written, the others stay (00 R11). -/
theorem copyFields_field {d : RegDesc} {a i : Nat} (hr : Machine.findReg a = some (d, i)) (s : State) (u : Upd) :
    ∀ f ∈ d.fields, fieldOf f ((s.copyFields d a u).effReg a) =
      if f.upd = u then fieldOf f (s.reg a) else fieldOf f (s.effReg a) := by
  intro f hf
  have h := fieldOf_copyFields hr (fun f => f.upd == u) (s.reg a) (s.effReg a) f hf
  simp only [beq_iff_eq] at h
  rw [← h, State.copyFields]
  split
  · rename_i he
    rw [List.isEmpty_iff.mp he, List.foldl_nil]
  · rw [State.effReg_setEff_same]

theorem copyFields_mem (s : State) (d : RegDesc) (a : Nat) (u : Upd) : (s.copyFields d a u).mem = s.mem := by
  unfold State.copyFields
  dsimp only
  split <;> rfl

theorem boundaryUpdate_effect {s : State} {a : IoAddr} {d : RegDesc} {i : Nat} (hr : Machine.findReg a.toNat = some (d, i))
    (hd : d.base ≠ Reg.CO_CTL) (hb : a.toNat ≠ Reg.PS_BANK) (hp : a.toNat / 0x10000 ≠ 0x0D) :
    ∃ s', exec (.boundaryUpdate a) s = .next s' ∧ s'.mem = s.mem ∧
      ∀ f ∈ d.fields, fieldOf f (s'.effReg a.toNat) =
        if f.upd = .boundary then fieldOf f (s.reg a.toNat) else fieldOf f (s.effReg a.toNat) := by
  have hcopy : s.boundaryCopy a.toNat = s.copyFields d a.toNat .boundary := by
    simp only [State.boundaryCopy, hr, State.copyFields]
  have hrun : exec (.boundaryUpdate a) s = device (s.copyFields d a.toNat .boundary) := by
    have e : exec (.boundaryUpdate a) s = execBoundaryUpdate a s := rfl
    have hctl : coreCtlAt a.toNat = none := by simp [coreCtlAt, hr, hd]
    simp only [e, execBoundaryUpdate, hctl, hb, if_false, hcopy]
  have k := Settled.settle (s.copyFields d a.toNat .boundary)
  refine ⟨_, hrun, k.mem.trans (copyFields_mem ..), fun f hf => ?_⟩
  rw [k.eff _ (fun j hj e => hp (by rw [e, Reg.PS_SPARE]; omega)), copyFields_field hr s .boundary f hf]

/-- Settles O34: a reset reads its vector where the table lies, a time-out enters its handler, and an update copies fields. -/
theorem threadEvents : Obligations.ThreadEvents := by
  intro s t
  refine ⟨fun hon hr hm hc hv ha => ⟨?_, ?_⟩, ?_, ?_, ?_⟩
  · exact ⟨_, rfl, (resetThread_done hon hr hm hc hv ha).settled (Settled.settle _)⟩
  · exact fun rq v d k b h hb _ => rst_done v h hb hon hr hm hc hv ha
  · exact fun since hw hs hn hnow ha hc ho he => waitTimeout_entered hw hs hn hnow ha hc ho he
  · exact fun c e h hn => localTimerExpiry_pend h hn
  · exact fun a d i hr hd hb hp => boundaryUpdate_effect hr hd hb hp

end Sys2Proof.Says

/-! PROOF. Commits of shadow groups and the start of the outputs (00 R11; 14 R433 to R436). -/

namespace Sys2Proof.Machine

/-! ### The registers that commit groups hold -/

/-- The address holds a register of a commit group, other than those of the spare pairs, which the device writes of itself. -/
def grouped (a : Nat) : Bool :=
  (findReg a).any (fun r => (groupOf r.1).isSome && r.1.base != Reg.PS_SPARE)

theorem grouped_iff {a : Nat} {d : RegDesc} {i g : Nat} (h : findReg a = some (d, i)) (hg : groupOf d = some g)
    (hs : d.base ≠ Reg.PS_SPARE) : grouped a = true := by
  simp [grouped, h, hg, hs]

/-- A page of registers without a commit group. -/
theorem grouped_page {a : Nat} (h : ∀ d ∈ pageRegs a, groupOf d = none) : grouped a = false := by
  unfold grouped
  cases hr : findReg a with
  | none => rfl
  | some r => simp [h r.1 (findReg_some hr).1]

theorem grouped_hq {a : Nat} (h : 0x100000 ≤ a) (h' : a < 0x180000) : grouped a = false := by
  refine grouped_page ?_
  have hp : pageRegs a = regsHQ := by
    unfold pageRegs
    split
    case h_16 => rw [if_pos (by omega)]
    all_goals omega
  rw [hp]
  decide +kernel

/-- The device writes no register of a commit group of itself, but those of the spare pairs. -/
theorem SelfReg.not_grouped {a : Nat} (h : SelfReg a) : grouped a = false := by
  cases h with
  | psSpare k hk => exact (show ∀ k < 2, grouped (Reg.PS_SPARE + 4 * k) = false by decide +kernel) k hk
  | psSub k hk => exact (show ∀ k < 16, grouped (Reg.PS_SUB + 4 * k) = false by decide +kernel) k hk
  | atLoaded k hk => exact (show ∀ k < 2, grouped (Reg.AT_LOADED + 4 * k) = false by decide +kernel) k hk
  | ptSts k hk => exact (show ∀ k < 8, grouped (Reg.PT_STS + ptOff k) = false by decide +kernel) k hk
  | ptPfctx k hk => exact (show ∀ k < 8, grouped (Reg.PT_PFCTX + ptOff k) = false by decide +kernel) k hk
  | tyLvl k hk => exact (show ∀ k < 4, grouped (Reg.TY_LVL + 4 * k) = false by decide +kernel) k hk
  | tyLost k hk => exact (show ∀ k < 4, grouped (Reg.TY_LOST + 4 * k) = false by decide +kernel) k hk
  | crHnote k hk => exact (show ∀ k < 8, grouped (Reg.CR_HNOTE + 4 * k) = false by decide +kernel) k hk
  | hqCqpos q hq => exact grouped_hq (by simp only [Reg.HQ_CQPOS]; omega) (by simp only [Reg.HQ_CQPOS]; omega)
  | psSts | psCond | psCondlog | psFallbk | atSts | poDropMbf | poDropDest | poDropP | crWake | crReroute | crMerge
  | llSts | llPmsts | llEvt => decide +kernel

/-- The registers of GL, LG and BW are written by commands only. -/
theorem low_notSelf {a : Nat} (h : a < 0x30000) : ¬ SelfReg a ∧ a ≠ Reg.AS_STS := by
  simp only [Reg.AS_STS]
  refine ⟨fun hs => ?_, by omega⟩
  have := hs.place
  simp only [List.mem_cons, List.not_mem_nil, or_false] at this
  omega

/-- The registers of a group are none of the spare pairs'. -/
theorem grouped_ne_spare {a : Nat} (h : grouped a = true) : ∀ k, k < 2 → a ≠ Reg.PS_SPARE + 4 * k := by
  rintro k hk rfl
  rw [SelfReg.not_grouped (.psSpare k hk)] at h
  cases h

/-! ### Listed registers -/

/-- Every register with a listed value in `s` has one in `t`. -/
structure Listed (s t : State) : Prop where
  key : ∀ a, (tblGet s.regs a).isSome = true → (tblGet t.regs a).isSome = true

namespace Listed

variable {s t : State}

theorem of_regs (h : Listed s t) {u : State} (e : u.regs = t.regs) : Listed s u := ⟨fun a ha => by
  rw [e]
  exact h.key a ha⟩

theorem refl (s : State) : Listed s s := ⟨fun _ h => h⟩

theorem trans {u : State} (h : Listed s t) (k : Listed t u) : Listed s u := ⟨fun a ha => k.key a (h.key a ha)⟩

theorem setReg (h : Listed s t) (b : Nat) (v : Word32) : Listed s (t.setReg b v) := ⟨fun a ha => by
  by_cases e : a = b
  · subst e
    simp [State.setReg, tblGet_tblPut_same]
  · simpa [State.setReg, tblGet_tblPut_other _ _ e] using h.key a ha⟩

theorem put (h : Listed s t) (f : FieldRef) (v off : Nat) : Listed s (t.put f v off) := h.setReg _ _

theorem bump (h : Listed s t) (f : FieldRef) (n off : Nat) : Listed s (t.bump f n off) := h.put f _ off

theorem ite (c : Prop) [Decidable c] {a b : State} (h : Listed s a) (k : Listed s b) : Listed s (if c then a else b) := by
  split
  · exact h
  · exact k

theorem sendLink (h : Listed s t) (e : Emit) (n : Option Nat) : Listed s (t.sendLink e n) :=
  .ite _ (h.of_regs rfl) (h.of_regs rfl)

theorem msixSend (h : Listed s t) (q : Nat) : Listed s (t.msixSend q) :=
  .ite _ (h.of_regs rfl) ((h.of_regs rfl : Listed s (t.setVec q _)).sendLink _ _)

theorem devNotice (h : Listed s t) (src : Nat) : Listed s (t.devNotice src) := .ite _ ((h.put ..).msixSend _) h

theorem crierWake (h : Listed s t) (r : Nat) : Listed s (t.crierWake r) :=
  .ite _ h ((Listed.ite _ (h.of_regs rfl) h : Listed s (t.askWake r)).bump _ _ _)

theorem rescan (h : Listed s t) (k : Nat) : Listed s (t.rescan k) := by
  unfold State.rescan
  refine .ite _ h ?_
  have h1 : ∀ x : Src, Listed s (t.setSrc k x) := fun x => h.of_regs rfl
  dsimp only
  split
  · exact .ite _ ((Listed.ite _ ((h1 _).bump ..) (h1 _)).crierWake _) (.ite _ ((h1 _).bump ..) (h1 _))
  · exact .ite _ ((h1 _).bump ..) (h1 _)

/-- An event of a source writes registers, and takes none away. -/
theorem edge (h : Listed s t) (src : Nat) : Listed s (t.edge src) := by
  have hc : ∀ u : State, Listed s u → Listed s (u.countEvent src) := fun u hu => (hu.of_regs rfl : Listed s (u.setSrc _ _)).rescan _
  exact .ite _ h (hc _ (.ite _ ((h.devNotice src).bump ..) (h.devNotice src)))

end Listed

theorem listed_mem {m : Tbl Word32} {a : Nat} (h : (tblGet m a).isSome = true) : a ∈ m.map (·.1) := by
  induction m with
  | nil => cases h
  | cons kv r ih =>
    obtain ⟨k, w⟩ := kv
    simp only [tblGet] at h
    split at h
    · subst k
      exact List.mem_cons_self
    · exact List.mem_cons_of_mem _ (ih h)

end Sys2Proof.Machine

/-! PROOF. What a group's shadow becomes when it is taken (00 R11; 14 R433, R434). -/

namespace Sys2Proof.Machine

/-- The fields of commit category of a register are in effect as they were last written. -/
def Copied (s : State) (a : Nat) (d : RegDesc) : Prop :=
  ∀ f ∈ d.fields, f.upd = .commit → Says.fieldOf f (s.effReg a) = Says.fieldOf f (s.reg a)

/-- What the taking of groups keeps: memory, the registers that the device does not write, the listed registers, and the
shadow of a group already in effect. -/
structure Took (s u : State) : Prop where
  mem    : u.mem = s.mem
  reg    : ∀ a, ¬ SelfReg a → a ≠ Reg.BW_STS → u.reg a = s.reg a
  listed : Listed s u
  boot   : u.boot = s.boot
  ledger : u.ledger = s.ledger
  pins   : u.pins = s.pins
  copied : ∀ a d i, findReg a = some (d, i) → grouped a = true → Copied s a d → Copied u a d

namespace Took

variable {s t u : State}

theorem refl (s : State) : Took s s := ⟨rfl, fun _ _ _ => rfl, .refl s, rfl, rfl, rfl, fun _ _ _ _ _ h => h⟩

theorem trans (h : Took s t) (k : Took t u) : Took s u where
  mem := k.mem.trans h.mem
  reg := fun a h1 h2 => (k.reg a h1 h2).trans (h.reg a h1 h2)
  listed := h.listed.trans k.listed
  boot := k.boot.trans h.boot
  ledger := k.ledger.trans h.ledger
  pins := k.pins.trans h.pins
  copied := fun a d i hr hg hc => k.copied a d i hr hg (h.copied a d i hr hg hc)

/-- The registers of the groups keep their written values. -/
theorem reg_grouped (h : Took s t) {a : Nat} (ha : grouped a = true) : t.reg a = s.reg a := by
  refine h.reg a (fun hs => ?_) (fun e => ?_)
  · rw [hs.not_grouped] at ha
    cases ha
  · subst e
    revert ha
    decide +kernel

/-- A state that differs in nothing that a group's registers read. -/
theorem of_same {t' : State} (h : Took s t)
    (hs : (t'.mem, t'.regs, t'.eff, t'.boot, t'.ledger, t'.pins) = (t.mem, t.regs, t.eff, t.boot, t.ledger, t.pins)) :
    Took s t' := by
  simp only [Prod.mk.injEq] at hs
  obtain ⟨hm, hr, he, hb, hl, hp⟩ := hs
  have hreg : ∀ a, t'.reg a = t.reg a := fun a => by rw [State.reg, hr, State.reg]
  have heff : ∀ a, t'.effReg a = t.effReg a := fun a => by rw [State.effReg, he, State.effReg]
  refine ⟨hm.trans h.mem, fun a h1 h2 => (hreg a).trans (h.reg a h1 h2), h.listed.of_regs hr, hb.trans h.boot,
    hl.trans h.ledger, hp.trans h.pins, fun a d i hf hg hc f hm hu => ?_⟩
  rw [hreg, heff]
  exact h.copied a d i hf hg hc f hm hu

theorem modPrompt (h : Took s t) (f : Prompt → Prompt) : Took s (t.modPrompt f) := h.of_same rfl

theorem ite (c : Prop) [Decidable c] {a b : State} (h : Took s a) (k : Took s b) : Took s (if c then a else b) := by
  split
  · exact h
  · exact k

end Took

/-! ### The copy of a group -/

/-- A register takes its shadow where it belongs to group `g`. -/
def State.copyMember (s : State) (g a : Nat) : State :=
  match findReg a with
  | some (d, _) => if groupOf d == some g then s.copyFields d a .commit else s
  | none => s

theorem copyFields_eq (s : State) (d : RegDesc) (a : Nat) (u : Upd) : ∃ e, s.copyFields d a u = { s with eff := e } := by
  unfold State.copyFields
  dsimp only
  split
  · exact ⟨_, rfl⟩
  · exact ⟨_, rfl⟩

theorem copyMember_eq (s : State) (g a : Nat) : ∃ e, s.copyMember g a = { s with eff := e } := by
  unfold State.copyMember
  split
  · split
    · exact copyFields_eq ..
    · exact ⟨_, rfl⟩
  · exact ⟨_, rfl⟩

theorem copyMember_reg (s : State) (g a b : Nat) : (s.copyMember g a).reg b = s.reg b := by
  obtain ⟨e, h⟩ := copyMember_eq s g a
  rw [h]
  rfl

/-- Another register keeps its value in effect. -/
theorem copyMember_other (s : State) (g : Nat) {a b : Nat} (h : b ≠ a) : (s.copyMember g a).effReg b = s.effReg b := by
  unfold State.copyMember
  split
  · split
    · unfold State.copyFields
      dsimp only
      split
      · rfl
      · exact State.effReg_setEff_other _ _ h
    · rfl
  · rfl

/-- A register of the group takes its shadow. -/
theorem copyMember_copied {a : Nat} {d : RegDesc} {i g : Nat} (hr : findReg a = some (d, i)) (hg : groupOf d = some g)
    (s : State) : Copied (s.copyMember g a) a d := by
  intro f hf hu
  rw [copyMember_reg, State.copyMember, hr]
  simp only [hg, BEq.rfl, if_true]
  rw [Says.copyFields_field hr s .commit f hf, if_pos hu]

theorem copyMember_took (s : State) (g a : Nat) : Took s (s.copyMember g a) := by
  obtain ⟨e, h⟩ := copyMember_eq s g a
  refine ⟨by rw [h], fun b _ _ => copyMember_reg s g a b, (Listed.refl s).of_regs (by rw [h]), by rw [h], by rw [h], by rw [h],
    fun b d i hr hg hc => ?_⟩
  by_cases hb : b = a
  · subst hb
    by_cases hm : groupOf d = some g
    · exact copyMember_copied hr hm s
    · have e : s.copyMember g b = s := by simp [State.copyMember, hr, hm]
      rw [e]
      exact hc
  · intro f hf hu
    rw [copyMember_other s g hb, copyMember_reg]
    exact hc f hf hu

theorem copyMembers_took (g : Nat) (ks : List Nat) : ∀ s : State, Took s (ks.foldl (fun s a => s.copyMember g a) s) := by
  induction ks with
  | nil => exact Took.refl
  | cons a ks ih => exact fun s => (copyMember_took s g a).trans (ih _)

/-- Every register of the group that is named takes its shadow. -/
theorem copyMembers_copied {g a : Nat} {d : RegDesc} {i : Nat} (hr : findReg a = some (d, i)) (hg : groupOf d = some g)
    (ha : grouped a = true) (ks : List Nat) (hk : a ∈ ks) : ∀ s : State, Copied (ks.foldl (fun s a => s.copyMember g a) s) a d := by
  induction ks with
  | nil => cases hk
  | cons b ks ih =>
    intro s
    rw [List.foldl_cons]
    rcases List.mem_cons.mp hk with rfl | hk
    · exact (copyMembers_took g ks _).copied a d i hr ha (copyMember_copied hr hg s)
    · exact ih hk _

/-! ### The taking of a group -/

theorem fillPrompt_took (s : State) : Took s s.fillPrompt := .ite _ (.refl s) (((Took.refl s).modPrompt _).modPrompt _)

theorem refillWritten_took (s : State) : Took s s.refillWritten := by
  unfold State.refillWritten
  refine Took.modPrompt (Took.modPrompt ?_ _) _
  exact .ite _ ((Took.refl s).modPrompt _) (.refl s)

/-- The headroom's check writes BW_STS.HDRLOW and gives its event. -/
theorem hdrCheck_took (s : State) : Took s s.hdrCheck := by
  have h : Took s (s.modBellows (fun b => { b with low := (List.range 8).filter s.headroomLow })) := (Took.refl s).of_same rfl
  refine Took.ite _ (h.trans ?_) h
  generalize s.modBellows (fun b => { b with low := (List.range 8).filter s.headroomLow }) = t
  have k := (Calm.refl (t.put Fld.BW_STS_HDRLOW 1)).edge 4
  have hreg : ∀ a, ¬ SelfReg a → a ≠ Reg.BW_STS → ((t.put Fld.BW_STS_HDRLOW 1).edge 4).reg a = t.reg a := fun a h1 h2 => by
    rw [k.reg a h1, State.reg_put_other _ _ _ _ h2]
  refine ⟨k.mem, hreg, ((Listed.refl t).put ..).edge 4, k.boot, k.ledger, k.pins, fun a d i _ hg hc f hf hu => ?_⟩
  rw [k.eff a (grouped_ne_spare hg), hreg a (fun hs => by rw [hs.not_grouped] at hg; cases hg)
    (fun e => by subst e; revert hg; decide +kernel)]
  exact hc f hf hu

/-- The taking of a group: its buckets are filled, its registers take their shadows, then what the group's values govern is
looked at again. -/
theorem takeGroup_eq (s : State) (g : Nat) : s.takeGroup g =
    (let u := if g = 4 then s.fillPrompt else s
     let w := (u.regs.map (·.1)).foldl (fun s a => s.copyMember g a) u
     if g = 4 then w.refillWritten else if g = 5 then w.hdrCheck else w) := rfl

theorem takeGroup_after (w : State) (g : Nat) : Took w (if g = 4 then w.refillWritten else if g = 5 then w.hdrCheck else w) :=
  .ite _ (refillWritten_took w) (.ite _ (hdrCheck_took w) (.refl w))

theorem takeGroup_before (s : State) (g : Nat) : Took s (if g = 4 then s.fillPrompt else s) :=
  .ite _ (fillPrompt_took s) (.refl s)

theorem takeGroup_took (s : State) (g : Nat) : Took s (s.takeGroup g) := by
  rw [takeGroup_eq]
  exact ((takeGroup_before s g).trans (copyMembers_took g _ _)).trans (takeGroup_after _ g)

theorem takeGroup_copied {g a : Nat} {d : RegDesc} {i : Nat} (hr : findReg a = some (d, i)) (hg : groupOf d = some g)
    (ha : grouped a = true) {s : State} (hl : (tblGet s.regs a).isSome = true) : Copied (s.takeGroup g) a d := by
  rw [takeGroup_eq]
  exact (takeGroup_after _ g).copied a d i hr ha
    (copyMembers_copied hr hg ha _ (listed_mem ((takeGroup_before s g).listed.key a hl)) _)

theorem takeGroups_took (gs : List Nat) : ∀ s : State, Took s (foldN s gs State.takeGroup) := by
  unfold foldN
  induction gs with
  | nil => exact Took.refl
  | cons g gs ih => exact fun s => (takeGroup_took s g).trans (ih _)

/-- Every listed register of a group that is taken is in effect as it was last written. -/
theorem takeGroups_copied {g a : Nat} {d : RegDesc} {i : Nat} (hr : findReg a = some (d, i)) (hg : groupOf d = some g)
    (ha : grouped a = true) (gs : List Nat) (hm : g ∈ gs) : ∀ s : State, (tblGet s.regs a).isSome = true →
      Copied (foldN s gs State.takeGroup) a d := by
  induction gs with
  | nil => cases hm
  | cons x gs ih =>
    intro s hl
    have e : foldN s (x :: gs) State.takeGroup = foldN (s.takeGroup x) gs State.takeGroup := rfl
    rw [e]
    rcases List.mem_cons.mp hm with rfl | hm
    · exact (takeGroups_took gs _).copied a d i hr ha (takeGroup_copied hr hg ha hl)
    · exact ih hm _ ((takeGroup_took s x).listed.key a hl)

end Sys2Proof.Machine

/-! PROOF. Commits and the start of the outputs, by the word of LG_STS (14 R434 to R436). -/

namespace Sys2Proof.Machine

/-! ### The word of LG_STS -/

/-- A field set apart from the one read. -/
theorem bitsGet_bitsSet_apart (w : Word32) {lo n lo' m : Nat} (v : Nat) (hn : lo + n ≤ 32) (h : lo + n ≤ lo' ∨ lo' + m ≤ lo) :
    bitsGet (bitsSet w lo n v) lo' m = bitsGet w lo' m :=
  h.elim (bitsGet_bitsSet_above w v hn) (bitsGet_bitsSet_below w v hn)

theorem bitsGet_bit (w : Word32) (i : Nat) : bitsGet w i 1 = b2n (w.getLsbD i) := by
  refine Nat.eq_of_testBit_eq fun j => ?_
  rw [Says.testBit_bitsGet]
  cases j with
  | zero => cases w.getLsbD i <;> simp [b2n, Nat.testBit_zero]
  | succ j => cases w.getLsbD i <;> simp [b2n, Nat.testBit_succ]

theorem getLsbD_of_bitsGet {w : Word32} {i : Nat} (h : bitsGet w i 1 = 0) : w.getLsbD i = false := by
  rw [bitsGet_bit] at h
  cases hb : w.getLsbD i
  · rfl
  · rw [hb] at h
    cases h

/-- HCAUSE is set while OUT is 0, and no other field. -/
theorem hcause_apart (c : Nat) (w : Word32) {lo n : Nat} (h : 7 ≤ lo ∨ lo + n ≤ 4) : bitsGet (hcause c w) lo n = bitsGet w lo n := by
  unfold hcause
  split
  · rfl
  · exact bitsGet_bitsSet_apart w c (by decide) h

theorem hcause_same {c : Nat} {w : Word32} (hw : bitsGet w 3 1 = 0) (hc : c < 8) : bitsGet (hcause c w) 4 3 = c := by
  rw [hcause, getLsbD_of_bitsGet hw, if_neg (by decide), bitsGet_bitsSet _ _ (by decide)]
  exact Nat.mod_eq_of_lt hc

/-- The word after a commit that is done: STATE 3, and the outputs start unless they run or are held. -/
def committedWord (free : Bool) (w : Word32) : Word32 :=
  if (bitsSet w 0 3 3).getLsbD 3 then bitsSet w 0 3 3
  else if free then outOn (bitsSet w 0 3 3) else bitsSet (bitsSet w 0 3 3) 4 3 7

theorem outOn_get (w : Word32) :
    bitsGet (outOn w) 3 1 = 1 ∧ bitsGet (outOn w) 4 3 = 0 ∧ ∀ n, n ≤ 3 → bitsGet (outOn w) 0 n = bitsGet w 0 n := by
  refine ⟨?_, ?_, fun n hn => ?_⟩
  · rw [outOn, bitsGet_bitsSet_apart _ _ (by decide) (by decide)]
    exact bitsGet_bitsSet w 1 (by decide)
  · exact bitsGet_bitsSet _ 0 (by decide)
  · rw [outOn, bitsGet_bitsSet_apart _ _ (by decide) (by omega), bitsGet_bitsSet_apart _ _ (by decide) (by omega)]

theorem committedWord_state (free : Bool) (w : Word32) : bitsGet (committedWord free w) 0 3 = 3 := by
  have h3 : bitsGet (bitsSet w 0 3 3) 0 3 = 3 := bitsGet_bitsSet w 3 (by decide)
  obtain ⟨-, -, hout⟩ := outOn_get (bitsSet w 0 3 3)
  unfold committedWord
  split
  · exact h3
  · split
    · rw [hout 3 (by decide), h3]
    · rw [bitsGet_bitsSet_apart _ _ (by decide) (by decide), h3]

theorem committedWord_out {w : Word32} (free : Bool) (h : bitsGet w 3 1 = 0) :
    bitsGet (committedWord free w) 3 1 = b2n free ∧ bitsGet (committedWord free w) 4 3 = if free then 0 else 7 := by
  have hw : bitsGet (bitsSet w 0 3 3) 3 1 = 0 := by rw [bitsGet_bitsSet_apart _ _ (by decide) (by decide), h]
  obtain ⟨hout, hcause, -⟩ := outOn_get (bitsSet w 0 3 3)
  rw [committedWord, getLsbD_of_bitsGet hw]
  cases free
  · simp only [Bool.false_eq_true, if_false]
    exact ⟨(bitsGet_bitsSet_apart _ _ (by decide) (by decide)).trans hw, bitsGet_bitsSet _ _ (by decide)⟩
  · exact ⟨hout, hcause⟩

/-! ### LG_STS written by the device -/

/-- A change of LG_STS, with its event, is that and what the device does of itself. -/
theorem lgSts_calm (s : State) (f : Word32 → Word32) : Calm (s.setReg Reg.LG_STS (f (s.reg Reg.LG_STS))) (s.lgSts f) := by
  unfold State.lgSts
  dsimp only
  exact .ite _ (.refl _) (((Calm.refl _).edge 6).msixSend 0)

/-- The state `t` is `s` with the word of LG_STS changed by `f`, and with what the device does of itself. -/
structure Stated (s t : State) (f : Word32 → Word32) : Prop where
  mem  : t.mem = s.mem
  sts  : t.reg Reg.LG_STS = f (s.reg Reg.LG_STS)
  low  : ∀ a, a < 0x30000 → a ≠ Reg.LG_STS → t.reg a = s.reg a
  eff  : ∀ a, (∀ k, k < 2 → a ≠ Reg.PS_SPARE + 4 * k) → t.effReg a = s.effReg a
  boot : t.boot = s.boot

theorem Stated.of_settled {s t : State} (f : Word32 → Word32) (h : Settled (s.lgSts f) t) : Stated s t f := by
  have k := lgSts_calm s f
  have hreg : ∀ a, a < 0x30000 → t.reg a = (s.setReg Reg.LG_STS (f (s.reg Reg.LG_STS))).reg a := fun a ha => by
    obtain ⟨h1, h2⟩ := low_notSelf ha
    rw [h.reg a h1 h2, k.reg a h1]
  refine ⟨h.mem.trans k.mem, ?_, fun a ha hn => ?_, fun a ha => (h.eff a ha).trans (k.eff a ha), h.boot.trans k.boot⟩
  · rw [hreg _ (by decide), State.reg_setReg_same]
  · rw [hreg a ha, State.reg_setReg_other _ _ hn]

/-! ### The write of LG_COMMIT -/

/-- The checks of the groups read registers only. -/
theorem groupOk_setSelf (s : State) (b g : Nat) : (s.setReg b (s.reg b)).groupOk g = s.groupOk g := by
  have hget : ∀ f off, (s.setReg b (s.reg b)).get f off = s.get f off := fun f off => by
    rw [State.get, State.reg_setReg_self, State.get]
  have hcfg : ∀ f off, (s.setReg b (s.reg b)).cfg f off = s.cfg f off := fun f off => by
    rw [State.cfg, hget]
    rfl
  unfold State.groupOk
  split
  · simp only [State.credOk, hget]
  · simp only [State.shareOk, State.managedCells, hget, hcfg]
    rfl
  · simp only [State.envOk, hget]
  · simp only [State.winOk, State.flag, hget]
  · rfl

/-- All groups named pass their checks: they are taken. -/
theorem commitGroups_done {s : State} {gs : List Nat} (h : ∀ g ∈ gs, s.groupOk g = true) :
    s.commitGroups gs = (true, foldN s gs State.takeGroup) := by
  have hf : gs.find? (fun g => !s.groupOk g) = none := List.find?_eq_none.mpr (fun g hg => by simp [h g hg])
  rw [State.commitGroups, hf]

/-- The lowest group that fails is named, and none is taken. -/
theorem commitGroups_refused {s : State} {g : Nat} (hg : g < 8) (hbad : s.groupOk g = false)
    (hlow : ∀ h, h < g → s.groupOk h = true) : s.commitGroups (List.range 8) =
      (false, s.lgSts (fun w => hcause 6 (bitsSet (bitsSet w 12 1 1) 13 3 g))) := by
  have hf : (List.range 8).find? (fun g => !s.groupOk g) = some g := by
    rw [List.find?_range_eq_some]
    exact ⟨by simp [hbad], List.mem_range.mpr hg, fun j hj => by simp [hlow j hj]⟩
  rw [State.commitGroups, hf]

/-- The sequence number of the Ledger is shown, and the first commit ends the quiet. -/
def State.sequenced (s : State) : State :=
  if s.boot.committed then s.setReg Reg.LG_SEQ (BitVec.ofNat 32 s.ledger.seq)
  else ((s.setReg Reg.LG_SEQ (BitVec.ofNat 32 s.ledger.seq)).put Fld.GL_CTL_QUIET 0).modBoot
    (fun b => { b with committed := true })

/-- What the commit of all groups leaves: the block LG but for LG_SEQ, and the shadows taken. -/
theorem sequenced_spec (s : State) :
    s.sequenced.mem = s.mem ∧ s.sequenced.boot.committed = true ∧ s.sequenced.pins = s.pins ∧
      s.sequenced.reg Reg.LG_SEQ = BitVec.ofNat 32 s.ledger.seq ∧
      (∀ a, a / 0x10000 = 1 → a ≠ Reg.LG_SEQ → s.sequenced.reg a = s.reg a) ∧
      ∀ a, s.sequenced.effReg a = s.effReg a := by
  have hseq := State.reg_setReg_same s Reg.LG_SEQ (BitVec.ofNat 32 s.ledger.seq)
  unfold State.sequenced
  split
  · rename_i hb
    exact ⟨rfl, hb, rfl, hseq, fun a ha hn => State.reg_setReg_other _ _ hn, fun a => rfl⟩
  · refine ⟨rfl, rfl, rfl, (State.reg_put_other _ Fld.GL_CTL_QUIET _ _ (by decide)).trans hseq, fun a ha hn => ?_, fun a => rfl⟩
    exact (State.reg_put_other _ Fld.GL_CTL_QUIET 0 0 (by change a ≠ 0x100; omega)).trans (State.reg_setReg_other _ _ hn)

/-- The groups that a commit takes leave the block LG alone. -/
theorem Took.reg_lg {s u : State} (h : Took s u) {a : Nat} (ha : a / 0x10000 = 1) : u.reg a = s.reg a :=
  h.reg a (low_notSelf (by omega)).1 (by simp only [Reg.BW_STS]; omega)

/-- A commit of all groups that pass their checks. -/
theorem commit_done {s : State} {v : Word32} (hv : v.getLsbD 8 = false) (hst : s.get Fld.LG_STS_STATE = 2)
    (hok : ∀ g, g < 8 → s.groupOk g = true) :
    s.commit v = (foldN s (List.range 8) State.takeGroup).sequenced.lgSts (committedWord s.outputsFree) := by
  have k := takeGroups_took (List.range 8) s
  obtain ⟨-, -, hpins, -, hlow, -⟩ := sequenced_spec (foldN s (List.range 8) State.takeGroup)
  have hfree : (foldN s (List.range 8) State.takeGroup).sequenced.outputsFree = s.outputsFree := by
    simp only [State.outputsFree, hpins, k.pins, State.flag, State.get, hlow Reg.LG_CTL (by decide) (by decide),
      k.reg_lg (a := Reg.LG_CTL) (by decide)]
  have hrun : s.commit v = (foldN s (List.range 8) State.takeGroup).sequenced.lgSts
      (committedWord (foldN s (List.range 8) State.takeGroup).sequenced.outputsFree) := by
    rw [State.commit, hv, hst, commitGroups_done (fun g hg => hok g (List.mem_range.mp hg))]
    rfl
  rw [hrun, hfree]

end Sys2Proof.Machine

namespace Sys2Proof.Says

open Sys2Proof.Machine

/-- A write of LG_COMMIT stores nothing, and commits. -/
theorem performWrite_commit {s : State} {rq : Requester} {d : RegDesc} {k b : Nat} (h : Serves s rq Reg.LG_COMMIT true d k b)
    (v : Word32) : s.performWrite rq Reg.LG_COMMIT v =
      ((s.setReg Reg.LG_COMMIT (s.reg Reg.LG_COMMIT)).commit v).settleOn := by
  obtain rfl := reach_addr h.reach_eq (by decide)
  have hf := h.findReg
  have hr : Machine.findReg Reg.LG_COMMIT = some (⟨Reg.LG_COMMIT, [], [⟨0, 8, .wo, .live, 0⟩, ⟨8, 1, .wo, .live, 0⟩]⟩, 0) := by
    decide +kernel
  rw [hr] at hf
  obtain ⟨rfl, rfl⟩ := Prod.mk.inj (Option.some.inj hf)
  obtain ⟨hlo, hhi⟩ := not_pair_of_block hr (by decide) (by decide)
  have hd : s.writeDiscarded Reg.LG_COMMIT Reg.LG_COMMIT = none :=
    writeDiscarded_none (blockRetired_low (by decide)) (by decide) (by decide)
  rw [h.write_plain v (by decide), writeReg_plain hd hlo hhi (by decide) (by decide), storeReg_unwritable (by simp)]
  rfl

/-- Group `g` has been taken: its listed registers are in effect as they were last written. -/
def GroupTaken (s s' : State) (g : Nat) : Prop :=
  ∀ a e i, (tblGet s.regs a).isSome = true → Machine.findReg a = some (e, i) → groupOf e = some g → e.base ≠ Reg.PS_SPARE →
    ∀ f ∈ e.fields, f.upd = .commit → fieldOf f (s'.effReg a) = fieldOf f (s.reg a)

/-- The state in which a write of LG_COMMIT commits. -/
def atCommit (s : State) : State := s.setReg Reg.LG_COMMIT (s.reg Reg.LG_COMMIT)

theorem atCommit_get (s : State) (f : FieldRef) (off : Nat) : (atCommit s).get f off = s.get f off := by
  rw [State.get, atCommit, State.reg_setReg_self, State.get]

theorem atCommit_free (s : State) : (atCommit s).outputsFree = s.outputsFree := by
  rw [State.outputsFree, State.flag, atCommit_get]
  rfl

/-- The groups of a list that is taken have been taken, whatever follows that keeps the values in effect. -/
theorem groupTaken_of {s s' : State} {gs : List Nat} {g : Nat} (hg : g ∈ gs)
    (heff : ∀ a, (∀ k, k < 2 → a ≠ Reg.PS_SPARE + 4 * k) →
      s'.effReg a = (foldN (atCommit s) gs State.takeGroup).effReg a) : GroupTaken s s' g := by
  intro a e i hl hr hge hb f hf hu
  have ha := grouped_iff hr hge hb
  have hl' : (tblGet (atCommit s).regs a).isSome = true := ((Listed.refl s).setReg _ _).key a hl
  rw [heff a (grouped_ne_spare ha), takeGroups_copied hr hge ha gs hg _ hl' f hf hu, (takeGroups_took gs _).reg_grouped ha,
    atCommit, State.reg_setReg_self]

variable {s : State} {rq : Requester} {v : Word32} {d : RegDesc} {k b : Nat}

theorem groupWrite_clear (v : Word32) : (v &&& 0xFFFFFEFF#32).getLsbD 8 = false := by
  simp

theorem exec_commit (h : Serves s rq Reg.LG_COMMIT true d k b) :
    exec (.commit rq v) s = .next ((atCommit s).commit (v &&& 0xFFFFFEFF#32)).settleOn := by
  rw [exec_writeOf rfl, performWrite_commit h, atCommit]

theorem exec_directCommit (h : Serves s rq Reg.LG_COMMIT true d k b) :
    exec (.directCommit rq v) s = .next ((atCommit s).commit (v ||| 0x100#32)).settleOn := by
  rw [exec_writeOf rfl, performWrite_commit h, atCommit]

/-- LG_STS in the state in which a write commits. -/
theorem atCommit_sts (s : State) : (atCommit s).reg Reg.LG_STS = s.reg Reg.LG_STS := State.reg_setReg_self ..

theorem commit_accepted (h : Serves s rq Reg.LG_COMMIT true d k b) (hst : s.get Fld.LG_STS_STATE = 2)
    (hok : ∀ g, g < 8 → s.groupOk g = true) :
    ∃ s', exec (.commit rq v) s = .next s' ∧ s'.mem = s.mem ∧ s'.get Fld.LG_STS_STATE = 3 ∧
      s'.reg Reg.LG_SEQ = BitVec.ofNat 32 s.ledger.seq ∧ s'.boot.committed = true ∧ (∀ g, g < 8 → GroupTaken s s' g) ∧
      (s.get Fld.LG_STS_OUT = 0 → s'.get Fld.LG_STS_OUT = b2n s.outputsFree ∧
        s'.get Fld.LG_STS_HCAUSE = if s.outputsFree then 0 else 7) := by
  have hdone := commit_done (s := atCommit s) (groupWrite_clear v) (by rw [atCommit_get]; exact hst)
    (fun g hg => (groupOk_setSelf ..).trans (hok g hg))
  have kt := takeGroups_took (List.range 8) (atCommit s)
  obtain ⟨hmem, hcom, -, hseq, hlow, heff⟩ := sequenced_spec (foldN (atCommit s) (List.range 8) State.takeGroup)
  have ks := Stated.of_settled (committedWord (atCommit s).outputsFree)
    (Settled.settleOn ((foldN (atCommit s) (List.range 8) State.takeGroup).sequenced.lgSts _))
  rw [← hdone] at ks
  have hsts : ((atCommit s).commit (v &&& 0xFFFFFEFF#32)).settleOn.reg Reg.LG_STS =
      committedWord s.outputsFree (s.reg Reg.LG_STS) := by
    rw [ks.sts, hlow _ (by decide) (by decide), kt.reg_lg (by decide), atCommit_sts, atCommit_free]
  refine ⟨_, exec_commit h, ks.mem.trans (hmem.trans kt.mem), ?_, ?_, ?_, fun g hg => ?_, fun ho => ?_⟩
  · rw [State.get, hsts]
    exact committedWord_state ..
  · rw [ks.low _ (by decide) (by decide), hseq, kt.ledger]
    rfl
  · rw [ks.boot, hcom]
  · exact groupTaken_of (List.mem_range.mpr hg) (fun a ha => (ks.eff a ha).trans (heff a))
  · obtain ⟨h1, h2⟩ := committedWord_out s.outputsFree ho
    simp only [State.get, hsts]
    exact ⟨h1, h2⟩

theorem commit_groupFails (h : Serves s rq Reg.LG_COMMIT true d k b) {g : Nat} (hst : s.get Fld.LG_STS_STATE = 2) (hg : g < 8)
    (hbad : s.groupOk g = false) (hlow : ∀ h, h < g → s.groupOk h = true) :
    ∃ s', exec (.commit rq v) s = .next s' ∧ s'.mem = s.mem ∧ s'.get Fld.LG_STS_STATE = 2 ∧
      s'.get Fld.LG_STS_REFUSED = 1 ∧ s'.get Fld.LG_STS_REFGRP = g ∧
      ∀ a, a ≠ Reg.PS_SPARE → a ≠ Reg.PS_SPARE + 4 → s'.effReg a = s.effReg a := by
  have href := commitGroups_refused (s := atCommit s) hg ((groupOk_setSelf ..).trans hbad)
    (fun j hj => (groupOk_setSelf ..).trans (hlow j hj))
  have hdone : (atCommit s).commit (v &&& 0xFFFFFEFF#32) =
      (atCommit s).lgSts (fun w => hcause 6 (bitsSet (bitsSet w 12 1 1) 13 3 g)) := by
    rw [State.commit, groupWrite_clear, atCommit_get, hst, href]
    rfl
  have ks := Stated.of_settled (fun w => hcause 6 (bitsSet (bitsSet w 12 1 1) 13 3 g)) (Settled.settleOn ((atCommit s).lgSts _))
  rw [← hdone] at ks
  have hsts := ks.sts
  rw [atCommit_sts] at hsts
  refine ⟨_, exec_commit h, ks.mem, ?_, ?_, ?_, fun a h1 h2 => ks.eff a fun j hj => ?_⟩
  · rw [State.get, hsts, hcause_apart _ _ (by decide), bitsGet_bitsSet_apart _ _ (by decide) (by decide),
      bitsGet_bitsSet_apart _ _ (by decide) (by decide)]
    exact hst
  · rw [State.get, hsts, hcause_apart _ _ (by decide), bitsGet_bitsSet_apart _ _ (by decide) (by decide)]
    exact bitsGet_bitsSet _ 1 (by decide)
  · rw [State.get, hsts, hcause_apart _ _ (by decide)]
    exact (bitsGet_bitsSet _ g (by decide)).trans (Nat.mod_eq_of_lt hg)
  · obtain rfl | rfl : j = 0 ∨ j = 1 := by omega
    · exact h1
    · exact h2

/-- A commit in a state without an applied Ledger. -/
theorem commit_noLedger (h : Serves s rq Reg.LG_COMMIT true d k b) (hst : s.get Fld.LG_STS_STATE ≠ 2) :
    ∃ s', exec (.commit rq v) s = .next s' ∧ s'.mem = s.mem ∧ s'.get Fld.LG_STS_STATE = s.get Fld.LG_STS_STATE ∧
      s'.get Fld.LG_STS_REFUSED = 1 ∧ (s.get Fld.LG_STS_OUT = 0 → s'.get Fld.LG_STS_HCAUSE = 5) := by
  have hdone : (atCommit s).commit (v &&& 0xFFFFFEFF#32) = (atCommit s).lgSts (fun w => hcause 5 (bitsSet w 12 1 1)) := by
    rw [State.commit, groupWrite_clear, atCommit_get, if_neg (by decide), if_pos hst]
  have ks := Stated.of_settled (fun w => hcause 5 (bitsSet w 12 1 1)) (Settled.settleOn ((atCommit s).lgSts _))
  rw [← hdone] at ks
  have hsts := ks.sts
  rw [atCommit_sts] at hsts
  refine ⟨_, exec_commit h, ks.mem, ?_, ?_, fun ho => ?_⟩
  · rw [State.get, hsts, hcause_apart _ _ (by decide), bitsGet_bitsSet_apart _ _ (by decide) (by decide), State.get]
  · rw [State.get, hsts, hcause_apart _ _ (by decide)]
    exact bitsGet_bitsSet _ 1 (by decide)
  · rw [State.get, hsts]
    exact hcause_same ((bitsGet_bitsSet_apart _ _ (by decide) (by decide)).trans ho) (by decide)

theorem directWrite_set (v : Word32) : (v ||| 0x100#32).getLsbD 8 = true := by
  simp

/-- The groups that a direct commit names. -/
theorem mem_directGroups (v : Word32) (g : Nat) :
    g ∈ wordBits ((v ||| 0x100#32) &&& 0xFF#32) ↔ g < 8 ∧ v.getLsbD g = true := by
  have hmask : ∀ g, g < 32 → (0xFF#32).getLsbD g = decide (g < 8) ∧ (g < 8 → (0x100#32).getLsbD g = false) := by decide
  simp only [wordBits, List.mem_filter, List.mem_range, BitVec.getLsbD_and, BitVec.getLsbD_or]
  constructor
  · rintro ⟨hg, hb⟩
    obtain ⟨h1, h2⟩ := hmask g hg
    have h8 : g < 8 := by
      rw [h1] at hb
      simpa using (Bool.and_eq_true_iff.mp hb).2
    rw [h2 h8, Bool.or_false] at hb
    exact ⟨h8, (Bool.and_eq_true_iff.mp hb).1⟩
  · rintro ⟨h8, hv⟩
    obtain ⟨h1, -⟩ := hmask g (by omega)
    exact ⟨by omega, by simp [hv, h1, h8]⟩

theorem directCommit_accepted (h : Serves s rq Reg.LG_COMMIT true d k b) (hout : s.get Fld.LG_STS_OUT = 1)
    (hst : s.get Fld.LG_STS_STATE ≠ 1) (hok : ∀ g, g < 8 → v.getLsbD g = true → s.groupOk g = true) :
    ∃ s', exec (.directCommit rq v) s = .next s' ∧ s'.mem = s.mem ∧ s'.get Fld.LG_STS_STATE = s.get Fld.LG_STS_STATE ∧
      ∀ g, g < 8 → v.getLsbD g = true → GroupTaken s s' g := by
  have hgs := fun g => mem_directGroups v g
  have hpass : ∀ g ∈ wordBits ((v ||| 0x100#32) &&& 0xFF#32), (atCommit s).groupOk g = true := fun g hg => by
    obtain ⟨h8, hv⟩ := (hgs g).mp hg
    exact (groupOk_setSelf ..).trans (hok g h8 hv)
  have hdone : (atCommit s).commit (v ||| 0x100#32) =
      foldN (atCommit s) (wordBits ((v ||| 0x100#32) &&& 0xFF#32)) State.takeGroup := by
    have hrun : (atCommit s).flag Fld.LG_STS_OUT = true := by simp [State.flag, atCommit_get, hout]
    have hne : (s.get Fld.LG_STS_STATE != 1) = true := by simpa using hst
    rw [State.commit, directWrite_set, atCommit_get, hrun, hne, commitGroups_done hpass]
    rfl
  have kt := takeGroups_took (wordBits ((v ||| 0x100#32) &&& 0xFF#32)) (atCommit s)
  have ks := Settled.settleOn (foldN (atCommit s) (wordBits ((v ||| 0x100#32) &&& 0xFF#32)) State.takeGroup)
  rw [← hdone] at ks
  obtain ⟨hself, has⟩ := low_notSelf (a := Reg.LG_STS) (by decide)
  refine ⟨_, exec_directCommit h, ?_, ?_, fun g h8 hv => groupTaken_of ((hgs g).mpr ⟨h8, hv⟩) (fun a ha => ?_)⟩
  · rw [ks.mem, hdone, kt.mem]
    rfl
  · rw [State.get, ks.reg _ hself has, hdone, kt.reg_lg (by decide), atCommit_sts, State.get]
  · rw [ks.eff a ha, hdone]

theorem directCommit_refused (h : Serves s rq Reg.LG_COMMIT true d k b)
    (hno : s.get Fld.LG_STS_OUT = 0 ∨ s.get Fld.LG_STS_STATE = 1) :
    ∃ s', exec (.directCommit rq v) s = .next s' ∧ s'.mem = s.mem ∧ s'.get Fld.LG_STS_STATE = s.get Fld.LG_STS_STATE ∧
      s'.get Fld.LG_STS_REFUSED = 1 := by
  have hoff : ((atCommit s).flag Fld.LG_STS_OUT && s.get Fld.LG_STS_STATE != 1) = false := by
    rcases hno with ho | ho <;> simp [State.flag, atCommit_get, ho]
  have hdone : (atCommit s).commit (v ||| 0x100#32) = (atCommit s).lgSts (fun w => bitsSet w 12 1 1) := by
    rw [State.commit, directWrite_set, atCommit_get, hoff]
    rfl
  have ks := Stated.of_settled (fun w => bitsSet w 12 1 1) (Settled.settleOn ((atCommit s).lgSts _))
  rw [← hdone] at ks
  have hsts := ks.sts
  rw [atCommit_sts] at hsts
  refine ⟨_, exec_directCommit h, ks.mem, ?_, ?_⟩
  · rw [State.get, hsts, bitsGet_bitsSet_apart _ _ (by decide) (by decide), State.get]
  · rw [State.get, hsts]
    exact bitsGet_bitsSet _ 1 (by decide)

/-- Both holds are released after a commit: the outputs start. -/
theorem outputsStart_out (hc : s.boot.committed = true) (ho : s.get Fld.LG_STS_OUT = 0) (hn : s.pins.holdN = true)
    (hh : s.get Fld.LG_CTL_HOLD = 0) :
    ∃ s', exec .outputsStart s = .next s' ∧ s'.mem = s.mem ∧ s'.get Fld.LG_STS_OUT = 1 ∧ s'.get Fld.LG_STS_HCAUSE = 0 := by
  have hfree : s.outputsFree = true := by simp [State.outputsFree, hn, State.flag, hh]
  have hrun : exec .outputsStart s = .next (s.lgSts outOn).settle := by
    have e : exec .outputsStart s = execOutputsStart s := rfl
    simp [e, execOutputsStart, hc, hfree, State.flag, ho, device]
  have ks := Stated.of_settled outOn (Settled.settle (s.lgSts outOn))
  obtain ⟨h1, h2, -⟩ := outOn_get (s.reg Reg.LG_STS)
  refine ⟨_, hrun, ks.mem, ?_, ?_⟩
  · rw [State.get, ks.sts]
    exact h1
  · rw [State.get, ks.sts]
    exact h2

/-- Settles O59: a commit takes the groups that pass, and LG_STS tells what became of it. -/
theorem commits : Obligations.Commits := by
  intro s rq v d k b
  refine ⟨fun h => ⟨?_, ?_, ?_, ?_, ?_⟩, ?_⟩
  · exact fun hst hok => commit_accepted h hst hok
  · exact fun g hst hg hbad hlow => commit_groupFails h hst hg hbad hlow
  · exact fun hst => commit_noLedger h hst
  · exact fun hout hst hok => directCommit_accepted h hout hst hok
  · exact fun hno => directCommit_refused h hno
  · exact fun hc ho hn hh => outputsStart_out hc ho hn hh

end Sys2Proof.Says

/-! PROOF. The fields of a register after a write and after a read (00 R8 to R14). -/

namespace Sys2Proof.Machine

/-! ### A register that is written -/

/-- The register written takes its new word. -/
theorem storeReg_same (s : State) (d : RegDesc) (i : Nat) {a : Nat} (v : Word32) (h : a ≠ Reg.LG_STS) :
    (s.storeReg d i a v).reg a = d.fields.foldl (writeField (s.stoppedFor d.base i v) v) (s.reg a) := by
  unfold State.storeReg
  dsimp only
  split
  · rw [State.reg_put_other _ _ _ _ h, State.reg_setReg_same]
  · exact State.reg_setReg_same ..

theorem storeReg_other (s : State) (d : RegDesc) (i a : Nat) {b : Nat} (v : Word32) (h : b ≠ a) (hl : b ≠ Reg.LG_STS) :
    (s.storeReg d i a v).reg b = s.reg b := by
  unfold State.storeReg
  dsimp only
  split
  · rw [State.reg_put_other _ _ _ _ hl, State.reg_setReg_other _ _ h]
  · exact State.reg_setReg_other _ _ h

theorem storeReg_mem (s : State) (d : RegDesc) (i a : Nat) (v : Word32) : (s.storeReg d i a v).mem = s.mem := by
  unfold State.storeReg
  dsimp only
  split <;> rfl

/-- A discarded change of an S field is marked (00 R14). -/
theorem storeReg_ignored {s : State} {d : RegDesc} {i : Nat} {v : Word32} (a : Nat) (ho : s.stoppedFor d.base i v = false)
    (hc : changesStopped d v (s.reg a) = true) : (s.storeReg d i a v).get Fld.LG_STS_WR_IGNORED = 1 := by
  have e : s.storeReg d i a v =
      (s.setReg a (d.fields.foldl (writeField false v) (s.reg a))).put Fld.LG_STS_WR_IGNORED 1 := by
    simp only [State.storeReg, ho, hc, Bool.not_false, Bool.and_self, if_true]
  rw [e]
  exact State.get_put_same _ _ _ _ (by decide)

/-! ### The blocks BW, PO and ANX -/

/-- The registers of BW, PO and ANX store what is written. -/
theorem plainBlock_stores {a : Nat} (ha : a / 0x10000 ∈ [0x02, 0x0C, 0x0E]) :
    ∀ d ∈ pageRegs a, d.base ≠ Reg.TY_CTL ∧ actsOnly d.base = false ∧ d.base ≠ Reg.HQ_POST := by
  have hall : ∀ d ∈ regsBW ++ regsPO ++ regsANX, d.base ≠ Reg.TY_CTL ∧ actsOnly d.base = false ∧ d.base ≠ Reg.HQ_POST := by
    decide +kernel
  have hp : pageRegs a = regsBW ∨ pageRegs a = regsPO ∨ pageRegs a = regsANX := by
    simp only [List.mem_cons, List.not_mem_nil, or_false] at ha
    unfold pageRegs
    rcases ha with h | h | h <;> simp [h]
  intro d hd
  refine hall d ?_
  simp only [List.mem_append]
  rcases hp with e | e | e <;> rw [e] at hd
  · exact .inl (.inl hd)
  · exact .inl (.inr hd)
  · exact .inr hd

/-- A write of BW_WARN looks at the headroom; other writes of BW, PO and ANX make nothing happen. -/
theorem plainBlock_after {a : Nat} (ha : a / 0x10000 ∈ [0x02, 0x0C, 0x0E]) (s : State) (rq : Requester) (b i : Nat)
    (old v : Word32) : s.afterWrite rq b i a old v = s ∨ (b = Reg.BW_WARN ∧ s.afterWrite rq b i a old v = s.hdrCheck) := by
  simp only [List.mem_cons, List.not_mem_nil, or_false] at ha
  unfold State.afterWrite
  rcases ha with h | h | h
  · rw [h]
    by_cases hb : b = Reg.BW_WARN
    · exact .inr ⟨hb, by simp only [hb, if_true]⟩
    · exact .inl (by simp only [hb, if_false])
  · rw [h]
    exact .inl rfl
  · rw [h]
    exact .inl rfl

/-- Of the registers of BW, PO and ANX the device writes the three drop counters of itself. -/
theorem plainBlock_self {a : Nat} (ha : a / 0x10000 ∈ [0x02, 0x0C, 0x0E]) :
    a ≠ Reg.AS_STS ∧ (SelfReg a → a ∈ [Reg.PO_DROP_MBF, Reg.PO_DROP_DEST, Reg.PO_DROP_P]) := by
  simp only [List.mem_cons, List.not_mem_nil, or_false] at ha
  refine ⟨by simp only [Reg.AS_STS]; omega, fun h => ?_⟩
  cases h with
  | poDropMbf | poDropDest | poDropP => decide
  | psSts | psCond | psCondlog | psFallbk | atSts | crWake | crReroute | crMerge | llSts | llPmsts | llEvt =>
    exact absurd ha (by decide)
  | psSpare k hk | psSub k hk | atLoaded k hk | ptSts k hk | ptPfctx k hk | hqCqpos k hk | tyLvl k hk | tyLost k hk
  | crHnote k hk =>
    simp only [Reg.PS_SPARE, Reg.PS_SUB, Reg.AT_LOADED, Reg.PT_STS, Reg.PT_PFCTX, Reg.HQ_CQPOS, Reg.TY_LVL, Reg.TY_LOST,
      Reg.CR_HNOTE, ptOff] at ha
    omega

/-- A register of BW, PO or ANX, and none of the drop counters, is written by commands only. -/
theorem plainBlock_notSelf {a : Nat} {d : RegDesc} {i : Nat} (hr : findReg a = some (d, i))
    (ha : a / 0x10000 ∈ [0x02, 0x0C, 0x0E]) (hd : d.base ∉ [Reg.PO_DROP_MBF, Reg.PO_DROP_DEST, Reg.PO_DROP_P]) :
    ¬ SelfReg a ∧ a ≠ Reg.AS_STS := by
  obtain ⟨has, hself⟩ := plainBlock_self ha
  refine ⟨fun h => hd ?_, has⟩
  have hbase : ∀ b ∈ [Reg.PO_DROP_MBF, Reg.PO_DROP_DEST, Reg.PO_DROP_P], (findReg b).all (fun r => r.1.base == b) = true := by
    decide +kernel
  have hb := hbase a (hself h)
  rw [hr] at hb
  have hb : d.base = a := by simpa using hb
  rw [hb]
  exact hself h

end Sys2Proof.Machine

namespace Sys2Proof.Says

open Sys2Proof.Machine

variable {s : State} {rq : Requester} {a : IoAddr} {d : RegDesc} {k b : Nat}

/-- A write of a register of BW, PO or ANX: its fields are stored, then the device goes on, which leaves them and LG_STS alone. -/
theorem registerWrite_stored (v : Word32) (h : Serves s rq a.toNat true d k b) (hb : b / 0x10000 ∈ [0x02, 0x0C, 0x0E])
    (hw : s.writeDiscarded d.base b = none) (hd : d.base ∉ [Reg.PO_DROP_MBF, Reg.PO_DROP_DEST, Reg.PO_DROP_P]) :
    ∃ s', exec (.registerWrite rq a v) s = .next s' ∧ s'.mem = s.mem ∧ s'.reg b = (s.storeReg d k b v).reg b ∧
      s'.reg Reg.LG_STS = (s.storeReg d k b v).reg Reg.LG_STS := by
  have hr := h.findReg
  obtain ⟨ht, hact, hpost⟩ := plainBlock_stores hb d (findReg_some hr).1
  obtain ⟨hlo, hhi⟩ := not_pair_of_block hr (by simp only [List.mem_cons, List.not_mem_nil, or_false] at hb ⊢; omega)
    (by simp only [List.mem_cons, List.not_mem_nil, or_false] at hb; omega)
  obtain ⟨hself, has⟩ := plainBlock_notSelf hr hb hd
  have hlg := low_notSelf (a := Reg.LG_STS) (by decide)
  have hrun : exec (.registerWrite rq a v) s =
      .next ((s.storeReg d k b v).afterWrite rq d.base k b (s.reg b) v).settleOn := by
    rw [exec_writeOf rfl, h.write_plain v hpost, writeReg_plain hw hlo hhi ht hact]
  -- the device's part leaves both registers alone
  have hkeep : ∀ u : State, u.mem = (s.storeReg d k b v).mem → u.reg b = (s.storeReg d k b v).reg b →
      u.reg Reg.LG_STS = (s.storeReg d k b v).reg Reg.LG_STS → u.settleOn.mem = s.mem ∧
        u.settleOn.reg b = (s.storeReg d k b v).reg b ∧ u.settleOn.reg Reg.LG_STS = (s.storeReg d k b v).reg Reg.LG_STS := by
    intro u hm h1 h2
    have ks := Settled.settleOn u
    exact ⟨(ks.mem.trans hm).trans (storeReg_mem ..), (ks.reg b hself has).trans h1, (ks.reg _ hlg.1 hlg.2).trans h2⟩
  refine ⟨_, hrun, ?_⟩
  rcases plainBlock_after hb (s.storeReg d k b v) rq d.base k (s.reg b) v with e | ⟨hwarn, e⟩
  · rw [e]
    exact hkeep _ rfl rfl rfl
  · have hsts : b ≠ Reg.BW_STS := fun hb => by
      have hbase : (Machine.findReg Reg.BW_STS).all (fun r => r.1.base == Reg.BW_STS) = true := by decide +kernel
      rw [← hb, hr] at hbase
      have hbase : d.base = b := by simpa using hbase
      rw [hwarn, hb] at hbase
      exact absurd hbase (by decide)
    have kt := hdrCheck_took (s.storeReg d k b v)
    rw [e]
    exact hkeep _ kt.mem (kt.reg b hself hsts) (kt.reg _ hlg.1 (by decide))

/-- The change of an S field that a write asks for. -/
theorem changesStopped_of {v w : Word32} (h : ∃ f ∈ d.fields, f.acc = .rw ∧ f.upd = .stopped ∧ fieldOf f v ≠ fieldOf f w) :
    changesStopped d v w = true := by
  obtain ⟨f, hf, ha, hu, hne⟩ := h
  rw [changesStopped, List.any_eq_true]
  exact ⟨f, hf, by simpa [ha, hu, fieldOf] using hne⟩

theorem registerWrite_fields (v : Word32) (h : Serves s rq a.toNat true d k b) (hb : b / 0x10000 ∈ [0x02, 0x0C, 0x0E])
    (hw : s.writeDiscarded d.base b = none) (hd : d.base ∉ [Reg.PO_DROP_MBF, Reg.PO_DROP_DEST, Reg.PO_DROP_P]) :
    ∃ s', exec (.registerWrite rq a v) s = .next s' ∧ s'.mem = s.mem ∧
      (∀ f ∈ d.fields, fieldOf f (s'.reg b) = fieldAfter (s.stoppedFor d.base k v) v (s.reg b) f) ∧
      (s.stoppedFor d.base k v = false →
        (∃ f ∈ d.fields, f.acc = .rw ∧ f.upd = .stopped ∧ fieldOf f v ≠ fieldOf f (s.reg b)) →
        s'.get Fld.LG_STS_WR_IGNORED = 1) := by
  obtain ⟨s', hrun, hmem, hreg, hsts⟩ := registerWrite_stored v h hb hw hd
  have hne : b ≠ Reg.LG_STS := by
    simp only [List.mem_cons, List.not_mem_nil, or_false] at hb
    simp only [Reg.LG_STS]
    omega
  refine ⟨s', hrun, hmem, fun f hf => ?_, fun ho hc => ?_⟩
  · rw [hreg, storeReg_same s d k v hne]
    exact fieldOf_writeFields h.findReg _ v _ f hf
  · have hi := storeReg_ignored b ho (changesStopped_of hc)
    rw [State.get] at hi ⊢
    rw [← hi]
    exact congrArg (fun w => bitsGet w 7 1) hsts

/-! ### A register that is read -/

/-- A read of a register that is no half of a pair and hands out no items: what it finds, and its RC fields cleared. -/
theorem readReg_plain (s : State) (rq : Requester) (i : Nat) (hlo : pairLows.contains d.base = false)
    (hhi : isPairHi b = false) (h1 : d.base ≠ Reg.TY_POP) (h2 : d.base ≠ Reg.PT_TXTSID) :
    s.readReg rq d i b = (s.view rq d i b,
      if d.fields.any (fun f => f.acc == .rc) then s.setReg b (clearRead d (s.reg b)) else s) := by
  simp only [State.readReg, if_neg h1, if_neg h2, hlo, hhi, Bool.false_eq_true, if_false]

theorem rcRead_fields (h : Serves s rq a.toNat false d k b) (hlo : pairLows.contains d.base = false) (hhi : isPairHi b = false)
    (hd : d.base ∉ [Reg.TY_POP, Reg.PT_TXTSID, Reg.CO_SLACK]) :
    ∃ s', exec (.rcRead rq a) s = .next s' ∧ s'.mem = s.mem ∧
      s'.emitted = s.emitted ++ [.reply rq a.toNat (s.view rq d k b)] ∧ (∀ n, n ≠ b → s'.reg n = s.reg n) ∧
      ∀ f ∈ d.fields, fieldOf f (s'.reg b) = if f.acc = .rc then 0 else fieldOf f (s.reg b) := by
  simp only [List.mem_cons, List.not_mem_nil, or_false, not_or] at hd
  obtain ⟨h1, h2, h3⟩ := hd
  have hrun : exec (.rcRead rq a) s = .next ((if d.fields.any (fun f => f.acc == .rc) then
      s.setReg b (clearRead d (s.reg b)) else s).emit (.reply rq a.toNat (s.view rq d k b))) := by
    rw [exec_readOf rfl, h.read, readReg_plain s rq k hlo hhi h1 h2]
  refine ⟨_, hrun, ?_⟩
  by_cases hrc : d.fields.any (fun f => f.acc == .rc) = true
  · rw [if_pos hrc]
    refine ⟨rfl, rfl, fun n hn => State.reg_setReg_other _ _ hn, fun f hf => ?_⟩
    have e : ((s.setReg b (clearRead d (s.reg b))).emit (.reply rq a.toNat (s.view rq d k b))).reg b = clearRead d (s.reg b) :=
      State.reg_setReg_same ..
    rw [e]
    exact fieldOf_clearRead h.findReg h3 _ f hf
  · rw [if_neg hrc]
    refine ⟨rfl, rfl, fun n _ => rfl, fun f hf => ?_⟩
    have hne : f.acc ≠ .rc := fun e => hrc (List.any_eq_true.mpr ⟨f, hf, by simp [e]⟩)
    rw [if_neg hne]
    rfl

theorem registerFields : RegisterFields := fun _ _ _ _ _ _ =>
  ⟨fun _ _ _ hr => findReg_apart hr, fun v h hb hw hd => registerWrite_fields v h hb hw hd,
    fun h hlo hhi hd => rcRead_fields h hlo hhi hd⟩

end Sys2Proof.Says

/-! PROOF. The 64-bit pairs: a write held, a write done, a read of both halves (00 R7). -/

namespace Sys2Proof.Machine

/-! ### What an access to a register asks of the state -/

/-- The state `t` differs from `s` in what a read of a _LO leaves: the upper half kept, TB_NOWF, the capture read, and the
answer. -/
structure LoRead (s t : State) : Prop where
  rest : ∃ r n y e, t = { s with regs := r, snap := n, tally := y, emitted := e }
  reg  : ∀ a, a ≠ Reg.TB_NOWF → t.reg a = s.reg a

namespace LoRead

variable {s t : State}

theorem get (h : LoRead s t) (f : FieldRef) (off : Nat) (hf : f.reg + off ≠ Reg.TB_NOWF) : t.get f off = s.get f off := by
  rw [State.get, h.reg _ hf, State.get]

theorem cfg (h : LoRead s t) (f : FieldRef) (off : Nat) (hf : f.reg + off ≠ Reg.TB_NOWF) : t.cfg f off = s.cfg f off := by
  rw [State.cfg, h.get f off hf]
  obtain ⟨r, n, y, e, rfl⟩ := h.rest
  rfl

theorem pstate (h : LoRead s t) (r : Nat) : t.pstate r = s.pstate r :=
  h.get _ _ (by simp only [rgOff, Reg.TB_NOWF]; omega)

theorem blockAsleep (h : LoRead s t) (a : Nat) : t.blockAsleep a = s.blockAsleep a := by
  have hp : t.pstate = s.pstate := funext h.pstate
  unfold State.blockAsleep State.gated
  rw [hp]

theorem dieOn (h : LoRead s t) : t.dieOn = s.dieOn := by
  have hd : t.dstate = s.dstate := h.get Fld.LL_STS_DSTATE 0 (by decide)
  obtain ⟨r, n, y, e, rfl⟩ := h.rest
  simp only [State.dieOn, hd]

theorem canIssue (h : LoRead s t) (n : Nat) : t.canIssue n = s.canIssue n := by
  have ha : t.awake n = s.awake n := by
    rw [State.awake, h.pstate, h.dieOn, State.awake]
    obtain ⟨r, n, y, e, rfl⟩ := h.rest
    rfl
  have hr : t.coreRetired (n / 4) = s.coreRetired (n / 4) := by
    rw [State.coreRetired, h.reg _ (by simp only [Reg.AS_RETCORE, Reg.TB_NOWF]; omega), State.coreRetired]
  simp only [State.canIssue, ha, hr]
  obtain ⟨r, n, y, e, rfl⟩ := h.rest
  rfl

theorem routeLive (h : LoRead s t) (rq : Requester) : t.routeLive rq = s.routeLive rq := by
  cases rq with
  | core n =>
    rw [State.routeLive, h.canIssue, State.routeLive]
    obtain ⟨r, n, y, e, rfl⟩ := h.rest
    rfl
  | pf f => simp only [State.routeLive, h.dieOn, State.linkUsable, h.get Fld.GL_LINK_STS_STATE 0 (by decide)]
  | sideband =>
    obtain ⟨r, n, y, e, rfl⟩ := h.rest
    rfl
  | ledger => simp only [State.routeLive, h.dieOn]

theorem pageOpen (h : LoRead s t) (n a : Nat) : t.pageOpen n a = s.pageOpen n a := by
  rw [State.pageOpen, h.reg _ (by simp only [Reg.CO_IOPERM, Reg.TB_NOWF]; omega), State.pageOpen]
  obtain ⟨r, n, y, e, rfl⟩ := h.rest
  rfl

theorem targetFrozen (h : LoRead s t) (k : Nat) (m : Bool) : t.targetFrozen k m = s.targetFrozen k m := by
  simp only [State.targetFrozen, State.safeHold, State.flag, h.get Fld.TL_FFRZ_ESC 0 (by decide),
    h.get Fld.TL_FFRZ_FRZ 0 (by decide), h.get Fld.AS_STS_HOLD 0 (by decide)]
  obtain ⟨r, n, y, e, rfl⟩ := h.rest
  rfl

theorem credit (h : LoRead s t) (k c : Nat) : t.credit k c = s.credit k c := by
  unfold State.credit
  split <;> exact h.cfg _ _ (by change _ + 4 * k ≠ 0x40010; simp only; omega)

theorem entryFor (h : LoRead s t) (k c : Nat) (out : List ArbOut) : t.entryFor k c out = s.entryFor k c out := by
  have hc : t.credit = s.credit := funext fun k => funext (h.credit k)
  unfold State.entryFor State.creditPool
  rw [hc]

/-- A fabric arbiter grants as it did. -/
theorem nextGrant_fabric (h : LoRead s t) (k : BitVec 4) (ch : BitVec 2) (x : Arb) :
    t.nextGrant (.fabric k ch) x = s.nextGrant (.fabric k ch) x := by
  have hstop : t.arbStopped (.fabric k ch) = s.arbStopped (.fabric k ch) := by
    simp only [State.arbStopped, State.arbFrozen, h.targetFrozen]
  have hesc : t.escapeReady k.toNat = s.escapeReady k.toNat := by
    rw [State.escapeReady, h.targetFrozen, State.escapeReady]
    obtain ⟨r, n, y, e, rfl⟩ := h.rest
    rfl
  simp only [State.nextGrant, hstop, hesc, h.entryFor]

theorem passes_fabric (h : LoRead s t) (n : Nat) (k : BitVec 4) (ch : BitVec 2) :
    t.passes n (.fabric k ch) = s.passes n (.fabric k ch) := by
  have harb : t.arb = s.arb := by
    obtain ⟨r, n, y, e, rfl⟩ := h.rest
    rfl
  have harr : t.arrive = s.arrive := by
    obtain ⟨r, n, y, e, rfl⟩ := h.rest
    rfl
  simp only [State.passes, harb, harr, h.nextGrant_fabric]

end LoRead

end Sys2Proof.Machine

namespace Sys2Proof.Says

open Sys2Proof.Machine

/-- A read of a _LO leaves every access as it was. -/
theorem Serves.afterLoRead {s t : State} (k : LoRead s t) {rq : Requester} {a : Nat} {w : Bool} {d : RegDesc} {i b : Nat}
    (h : Serves s rq a w d i b) : Serves t rq a w d i b := by
  obtain ⟨hl, ho, hr, hb, ha, hc⟩ := h
  refine ⟨(k.routeLive rq).trans hl, ho, hr, (k.blockAsleep a).trans hb, ha, fun n hn => ?_⟩
  obtain ⟨hp, hg, hw⟩ := hc n hn
  have hthr : t.thr n.toNat = s.thr n.toNat := by
    obtain ⟨r, n, y, e, rfl⟩ := k.rest
    rfl
  have hpath : pathOpen t n [t.fabricFor n.toNat 11] = pathOpen s n [s.fabricFor n.toNat 11] := by
    have hf : t.fabricFor n.toNat 11 = s.fabricFor n.toNat 11 := by
      obtain ⟨r, n, y, e, rfl⟩ := k.rest
      rfl
    have hslot : t.slotFree n.toNat = s.slotFree n.toNat := by
      obtain ⟨r, n, y, e, rfl⟩ := k.rest
      rfl
    have hstop : t.stopsAt n.toNat [s.fabricFor n.toNat 11] = s.stopsAt n.toNat [s.fabricFor n.toNat 11] := by
      simp only [State.stopsAt, State.fabricFor, List.find?_cons, List.find?_nil, k.passes_fabric]
    rw [pathOpen, hf, hstop, hslot, pathOpen]
  exact ⟨(k.pageOpen ..).trans hp, hg.imp_right (fun g => hpath.trans g), fun e1 e2 => hthr ▸ hw e1 e2⟩

/-! ### The read of a pair -/

/-- A read of a _LO: what it finds, and the state with the upper half kept. -/
theorem readReg_lo {s : State} {rq : Requester} {d e : RegDesc} {i j a : Nat} (hlo : pairLows.contains d.base = true)
    (he : Machine.findReg (a + 4) = some (e, j)) : (s.readReg rq d i a).1 = s.view rq d i a ∧
      (s.readReg rq d i a).2.pairSnap a = s.view rq e j (a + 4) ∧ (s.readReg rq d i a).2.mem = s.mem ∧
      (s.readReg rq d i a).2.emitted = s.emitted ∧ LoRead s (s.readReg rq d i a).2 := by
  have h1 : d.base ≠ Reg.TY_POP := fun e => by rw [e] at hlo; exact absurd hlo (by decide)
  have h2 : d.base ≠ Reg.PT_TXTSID := fun e => by rw [e] at hlo; exact absurd hlo (by decide)
  have hsnap : ∀ (m : Tbl Word32) (v : Word32), (tblGet (tblPut m a v) a).getD 0 = v := fun m v => by
    rw [tblGet_tblPut_same, Option.getD_some]
  simp only [State.readReg, if_neg h1, if_neg h2, hlo, if_true, he]
  split
  · exact ⟨rfl, hsnap .., rfl, rfl, ⟨_, _, _, _, rfl⟩, fun n hn => State.reg_put_other _ _ _ _ hn⟩
  · split
    · exact ⟨rfl, hsnap .., rfl, rfl, ⟨_, _, _, _, rfl⟩, fun n hn => rfl⟩
    · exact ⟨rfl, hsnap .., rfl, rfl, ⟨_, _, _, _, rfl⟩, fun n hn => rfl⟩

/-- A read of a _HI finds the upper half that the read of its _LO kept. -/
theorem readReg_hi {s : State} {rq : Requester} {d e : RegDesc} {i j a : Nat} (hr : Machine.findReg a = some (d, i))
    (hlo : pairLows.contains d.base = true) (he : Machine.findReg (a + 4) = some (e, j)) :
    s.readReg rq e j (a + 4) = (s.pairSnap a, s) := by
  obtain ⟨hne, h1, h2⟩ := above_pairLow hr hlo he
  have hhi := isPairHi_above hr hlo
  simp only [State.readReg, if_neg h1, if_neg h2, hne, hhi, Bool.false_eq_true, if_false, if_true, Nat.add_sub_cancel]

theorem LoRead.emit {s t : State} (h : LoRead s t) (e : Emit) : LoRead s (t.emit e) := by
  obtain ⟨⟨r, n, y, m, rfl⟩, hreg⟩ := h
  exact ⟨⟨_, _, _, _, rfl⟩, hreg⟩

theorem pairRead {s : State} {rq : Requester} {a h : IoAddr} {d e : RegDesc} {i j : Nat} (ha : h.toNat = a.toNat + 4)
    (hlo : pairLows.contains d.base = true) (hd : Serves s rq a.toNat false d i a.toNat)
    (he : Serves s rq h.toNat false e j h.toNat) :
    ∃ s', exec (.pairLoRead rq a) s = .next s' ∧ s'.mem = s.mem ∧
      s'.emitted = s.emitted ++ [.reply rq a.toNat (s.view rq d i a.toNat)] ∧
      ∃ s'', exec (.rcRead rq h) s' = .next s'' ∧
        s''.emitted = s'.emitted ++ [.reply rq h.toNat (s.view rq e j h.toNat)] := by
  have hr := hd.findReg
  have hre := he.findReg
  rw [ha] at hre
  obtain ⟨hv, hsnap, hmem, hemit, hread⟩ := readReg_lo (s := s) (rq := rq) (i := i) hlo hre
  refine ⟨_, (exec_readOf rfl s).trans (congrArg _ hd.read), hmem, ?_, ?_⟩
  · rw [State.emit, hemit, hv]
  · have he' := he.afterLoRead
      (LoRead.emit hread (.reply rq a.toNat (s.readReg rq d i a.toNat).1))
    refine ⟨_, (exec_readOf rfl _).trans (congrArg _ he'.read), ?_⟩
    rw [ha, readReg_hi hr hlo hre, ← hsnap]
    rfl

/-! ### The write of a pair -/

theorem regsGL_stores : ∀ d ∈ regsGL, d.base ∉ [Reg.PS_BA, Reg.PS_BB, Reg.LL_PMCMD, Reg.LL_PMDATA] ∧
    d.base ≠ Reg.HQ_POST := by
  decide +kernel

/-- GL has no S field. -/
theorem regsGL_free {d : RegDesc} (hd : d ∈ regsGL) : ∀ f ∈ d.fields, f.upd ≠ .stopped := by
  have h : ∀ d ∈ regsGL, ∀ f ∈ d.fields, f.upd ≠ .stopped := by decide +kernel
  exact h d hd

/-- The pairs of the window descriptors lie in GL. -/
theorem pageRegs_noWindow {a : Nat} (ha : a / 0x10000 ≠ 0) :
    ∀ d ∈ pageRegs a, d.base ∉ [Reg.GL_WIN_SRC_LO, Reg.GL_WIN_DST_LO] := by
  unfold pageRegs
  split
  case h_1 => exact absurd ‹_› ha
  case h_16 =>
    split
    · decide +kernel
    · split
      · split
        · decide +kernel
        · split
          · decide +kernel
          · exact fun d h => nomatch h
      · exact fun d h => nomatch h
  all_goals decide +kernel

/-- Both halves of a window's pair lie in GL. -/
theorem windowPair_place {a : Nat} {d e : RegDesc} {i j : Nat} (hr : Machine.findReg a = some (d, i))
    (hd : d.base ∈ [Reg.GL_WIN_SRC_LO, Reg.GL_WIN_DST_LO]) (he : Machine.findReg (a + 4) = some (e, j)) :
    a / 0x10000 = 0 ∧ (a + 4) / 0x10000 = 0 ∧ d ∈ regsGL ∧ e ∈ regsGL := by
  have hlo : pairLows.contains d.base = true := by
    simp only [List.mem_cons, List.not_mem_nil, or_false] at hd
    rcases hd with h | h <;> rw [h] <;> decide
  have ha : a / 0x10000 = 0 := by
    by_contra hne
    exact pageRegs_noWindow hne d (findReg_some hr).1 hd
  have ha' : (a + 4) / 0x10000 = 0 := by
    have := pairLow_aligned hr hlo
    omega
  have hp : ∀ n, n / 0x10000 = 0 → pageRegs n = regsGL := fun n hn => by simp [pageRegs, hn]
  exact ⟨ha, ha', hp a ha ▸ (findReg_some hr).1, hp _ ha' ▸ (findReg_some he).1⟩

/-- Without an S field a write does not depend on the block's state. -/
theorem fieldAfter_free {f : RegField} (h : f.upd ≠ .stopped) (ok : Bool) (v w : Word32) :
    fieldAfter ok v w f = fieldAfter true v w f := by
  have hu : (f.upd == .stopped) = false := by simpa using h
  simp only [fieldAfter, hu, Bool.false_and]

variable {s : State} {rq : Requester} {a h : IoAddr} {d e : RegDesc} {i j : Nat} {lo hi : Word32}

/-- A write of a window's _HI is held. -/
theorem pairHi_held (ha : h.toNat = a.toNat + 4) (hlo : pairLows.contains d.base = true)
    (hd : Machine.findReg a.toNat = some (d, i)) (he : Serves s rq h.toNat true e j h.toNat)
    (hw : d.base ∈ [Reg.GL_WIN_SRC_LO, Reg.GL_WIN_DST_LO]) :
    exec (.pairHiWrite rq h hi) s = .next ({ s with hold := tblPut s.hold a.toNat hi } : State).settleOn := by
  have hre := he.findReg
  rw [ha] at hre
  obtain ⟨-, hp, -, hmem⟩ := windowPair_place hd hw hre
  obtain ⟨hne, hpost⟩ := regsGL_stores e hmem
  have hdisc : s.writeDiscarded e.base h.toNat = none :=
    writeDiscarded_none (blockRetired_low (by omega)) (by omega) hne
  have hnlo := (above_pairLow hd hlo hre).1
  have hhi : isPairHi h.toNat = true := ha ▸ isPairHi_above hd hlo
  have e4 : h.toNat - 4 = a.toNat := by omega
  rw [exec_writeOf rfl, he.write_plain hi hpost]
  simp only [State.writeReg, hdisc, hnlo, hhi, Bool.false_eq_true, if_false, if_true, e4]

/-- A write of a window's _LO stores the held upper half, then the lower half. -/
theorem pairLo_stored (hlo : pairLows.contains d.base = true) (hd : Serves s rq a.toNat true d i a.toNat)
    (he : Machine.findReg (a.toNat + 4) = some (e, j)) (hw : d.base ∈ [Reg.GL_WIN_SRC_LO, Reg.GL_WIN_DST_LO]) :
    exec (.pairLoWrite rq a lo) s =
      .next ((s.storeReg e j (a.toNat + 4) (s.pairHold a.toNat)).storeReg d i a.toNat lo).settleOn := by
  obtain ⟨hp, -, hmem, -⟩ := windowPair_place hd.findReg hw he
  obtain ⟨hne, hpost⟩ := regsGL_stores d hmem
  have hdisc : s.writeDiscarded d.base a.toNat = none :=
    writeDiscarded_none (blockRetired_low (by omega)) (by omega) hne
  have hbase : d.base ≠ Reg.TB_STEP_LO ∧ d.base ≠ Reg.TB_SET_LO ∧ d.base ≠ Reg.TY_CTL ∧ actsOnly d.base = false ∧
      d.base ∉ [Reg.GL_LINK_CTL, Reg.LG_BOOT, Reg.LG_APPLY, Reg.LG_COMMIT] := by
    simp only [List.mem_cons, List.not_mem_nil, or_false] at hw
    rcases hw with h | h <;> rw [h] <;> decide
  obtain ⟨h1, h2, h3, h4, h5⟩ := hbase
  simp only [List.mem_cons, List.not_mem_nil, or_false, not_or] at h5
  obtain ⟨h5, h6, h7, h8⟩ := h5
  have hafter : ∀ (u : State) (old : Word32), u.afterWrite rq d.base i a.toNat old lo = u := fun u old => by
    simp only [State.afterWrite, hp, State.afterLedger, h5, h6, h7, h8, if_false]
  rw [exec_writeOf rfl, hd.write_plain lo hpost]
  simp only [State.writeReg, hdisc, hlo, if_true, State.writePair, h1, h2, if_false, he, State.writePlain, h3, h4, hafter,
    Bool.false_eq_true]

/-- What the two writes leave in a register of GL. -/
theorem settleOn_low (s : State) {n : Nat} (hn : n / 0x10000 = 0) : s.settleOn.reg n = s.reg n := by
  obtain ⟨h1, h2⟩ := low_notSelf (a := n) (by omega)
  exact (Settled.settleOn s).reg n h1 h2

theorem pairWrite (ha : h.toNat = a.toNat + 4) (hlo : pairLows.contains d.base = true)
    (hd : Serves s rq a.toNat true d i a.toNat) (he : Serves s rq h.toNat true e j h.toNat)
    (hw : d.base ∈ [Reg.GL_WIN_SRC_LO, Reg.GL_WIN_DST_LO]) :
    ∃ s', exec (.pairHiWrite rq h hi) s = .next s' ∧ s'.reg a.toNat = s.reg a.toNat ∧ s'.reg h.toNat = s.reg h.toNat ∧
      (Serves s' rq a.toNat true d i a.toNat →
        ∃ s'', exec (.pairLoWrite rq a lo) s' = .next s'' ∧ s''.mem = s.mem ∧
          (∀ f ∈ d.fields, fieldOf f (s''.reg a.toNat) = fieldAfter true lo (s.reg a.toNat) f) ∧
          ∀ f ∈ e.fields, fieldOf f (s''.reg h.toNat) = fieldAfter true hi (s.reg h.toNat) f) := by
  have hre := he.findReg
  rw [ha] at hre ⊢
  obtain ⟨hpa, hph, hdm, hem⟩ := windowPair_place hd.findReg hw hre
  have hlg : a.toNat ≠ Reg.LG_STS ∧ a.toNat + 4 ≠ Reg.LG_STS := by
    simp only [Reg.LG_STS]
    omega
  have ks := Settled.settleOn ({ s with hold := tblPut s.hold a.toNat hi } : State)
  have hra := settleOn_low ({ s with hold := tblPut s.hold a.toNat hi } : State) hpa
  have hrh := settleOn_low ({ s with hold := tblPut s.hold a.toNat hi } : State) hph
  refine ⟨_, pairHi_held ha hlo hd.findReg he hw, hra, hrh, fun hs => ⟨_, pairLo_stored hlo hs hre hw, ?_, ?_, ?_⟩⟩
  · rw [(Settled.settleOn _).mem, storeReg_mem, storeReg_mem, ks.mem]
  · intro f hf
    rw [settleOn_low _ hpa, storeReg_same _ _ _ _ hlg.1, storeReg_other _ _ _ _ _ (by omega) hlg.1, hra,
      fieldOf_writeFields hd.findReg _ _ _ f hf, fieldAfter_free (regsGL_free hdm f hf)]
    rfl
  · intro f hf
    have hhold : ({ s with hold := tblPut s.hold a.toNat hi } : State).settleOn.pairHold a.toNat = hi := by
      rw [State.pairHold, ks.hold, tblGet_tblPut_same, Option.getD_some]
    rw [settleOn_low _ hph, storeReg_other _ _ _ _ _ (by omega) hlg.2, storeReg_same _ _ _ _ hlg.2, hrh, hhold,
      fieldOf_writeFields hre _ _ _ f hf, fieldAfter_free (regsGL_free hem f hf)]
    rfl

theorem registerPairs : RegisterPairs := fun _ _ _ _ _ _ _ _ _ _ ha hlo =>
  ⟨fun hd he => pairRead ha hlo hd he, fun hd he hw => pairWrite ha hlo hd he hw⟩

/-- Settles O31: a write goes field by field, a read clears what it reads, and the halves of a pair act together. -/
theorem registerAccess : Obligations.RegisterAccess := ⟨registerFields, registerPairs⟩

end Sys2Proof.Says

/-! PROOF. What stays of the Lamplighter while the rest of the device acts: an event of the Crier, headers delivered or
dropped, messages to the host, a queue that stops, the link that changes its state (09 R297; 10 R320, R336, R344; 12 R383). -/

namespace Sys2Proof.Machine

/-- The registers of the Lamplighter and its wake set. -/
abbrev LampReg (a : Nat) : Prop := (Reg.LL_STS ≤ a ∧ a < 0x71000) ∨ (Reg.CR_WAKE ≤ a ∧ a < Reg.CR_WAKE + 256)

/-- From `s` to `t` the Lamplighter stays: its registers, what it keeps beside them but for the wakes of regions asked for;
and memory and the Timebase stay. -/
structure LampKept (s t : State) : Prop where
  mem   : t.mem = s.mem
  tb    : t.tb = s.tb
  reg   : ∀ a, LampReg a → t.reg a = s.reg a
  power : ∃ w, t.power = { s.power with wakeReq := w }

/-- What a table finds once some of its keys are struck out. -/
theorem tblGet_filter {α : Type} (m : Tbl α) (p : Nat → Bool) (n : Nat) :
    tblGet (m.filter (fun kv => p kv.1)) n = if p n then tblGet m n else none := by
  induction m with
  | nil => simp [tblGet]
  | cons kv r ih =>
    obtain ⟨k, v⟩ := kv
    by_cases hk : k = n
    · subst hk
      cases hp : p k <;> simp [tblGet, hp, ih]
    · cases hp : p k <;> simp [tblGet, hp, hk, ih]

namespace LampKept

theorem refl (s : State) : LampKept s s := ⟨rfl, rfl, fun _ _ => rfl, _, rfl⟩

theorem trans {s t u : State} (h : LampKept s t) (k : LampKept t u) : LampKept s u where
  mem := k.mem.trans h.mem
  tb := k.tb.trans h.tb
  reg := fun a ha => (k.reg a ha).trans (h.reg a ha)
  power := by
    obtain ⟨_, e⟩ := h.power
    obtain ⟨w, e'⟩ := k.power
    exact ⟨w, by rw [e', e]⟩

variable {s t : State}

/-- A change of parts that have nothing to do with the Lamplighter. -/
theorem free (h : LampKept s t) {t' : State}
    (e : t' = { t' with mem := t.mem, tb := t.tb, regs := t.regs, power := t.power }) : LampKept s t' := by
  rw [e]
  exact ⟨h.mem, h.tb, h.reg, h.power⟩

theorem modPorter (h : LampKept s t) (f : Porter → Porter) : LampKept s (t.modPorter f) := h.free rfl

theorem setReg (h : LampKept s t) {a : Nat} (v : Word32) (ha : ¬ LampReg a) : LampKept s (t.setReg a v) :=
  ⟨h.mem, h.tb, fun b hb => (State.reg_setReg_other t v (by rintro rfl; exact ha hb)).trans (h.reg b hb), h.power⟩

theorem put (h : LampKept s t) (f : FieldRef) (v off : Nat) (ha : ¬ LampReg (f.reg + off)) : LampKept s (t.put f v off) :=
  h.setReg _ ha

theorem bump (h : LampKept s t) (f : FieldRef) (n off : Nat) (ha : ¬ LampReg (f.reg + off)) :
    LampKept s (t.bump f n off) := h.setReg _ ha

theorem ite (c : Prop) [Decidable c] {a b : State} (h : LampKept s a) (k : LampKept s b) :
    LampKept s (if c then a else b) := by
  split
  · exact h
  · exact k

theorem foldl {α : Type} {f : State → α → State} (hf : ∀ u x, LampKept s u → LampKept s (f u x)) (l : List α) :
    ∀ u, LampKept s u → LampKept s (l.foldl f u) := by
  induction l with
  | nil => exact fun _ h => h
  | cons x r ih => exact fun u h => ih _ (hf u x h)

theorem foldN (h : LampKept s t) {f : State → Nat → State} (l : List Nat)
    (hf : ∀ u x, x ∈ l → LampKept s u → LampKept s (f u x)) : LampKept s (Machine.foldN t l f) := by
  unfold Machine.foldN
  induction l generalizing t with
  | nil => exact h
  | cons x r ih =>
    exact ih (hf t x (List.mem_cons_self ..) h) (fun u y hy => hf u y (List.mem_cons_of_mem x hy))

theorem get (h : LampKept s t) (f : FieldRef) (off : Nat) (ha : LampReg (f.reg + off)) : t.get f off = s.get f off := by
  rw [State.get, h.reg _ ha, State.get]

theorem dstate (h : LampKept s t) : t.dstate = s.dstate := h.get Fld.LL_STS_DSTATE 0 (by decide)

theorem now (h : LampKept s t) : t.now = s.now := by rw [State.now, h.tb, State.now]

/-! ### The Crier -/

theorem sendLink (h : LampKept s t) (e : Emit) (n : Option Nat) : LampKept s (t.sendLink e n) :=
  .ite _ (h.free rfl) (h.free rfl)

theorem msixSend (h : LampKept s t) (q : Nat) : LampKept s (t.msixSend q) :=
  .ite _ (h.free rfl) (sendLink (h.free rfl) _ _)

theorem askWake (h : LampKept s t) (r : Nat) : LampKept s (t.askWake r) :=
  .ite _ (h.trans ⟨rfl, rfl, fun _ _ => rfl, _, rfl⟩) h

theorem devNotice (h : LampKept s t) (src : Nat) : LampKept s (t.devNotice src) :=
  .ite _ ((h.put Fld.CR_HNOTE_DEVEVT 1 0 (by decide)).msixSend 0) h

theorem crierWake (h : LampKept s t) (r : Nat) : LampKept s (t.crierWake r) :=
  .ite _ h ((h.askWake r).bump _ _ _ (by decide))

theorem rescan (h : LampKept s t) (k : Nat) : LampKept s (t.rescan k) := by
  have h2 : ∀ (x : Src) (c : Prop) [Decidable c],
      LampKept s (if c then (t.setSrc k x).bump Fld.CR_CNT_REROUTE_COUNT else t.setSrc k x) :=
    fun x c _ => .ite _ (bump (h.free rfl) _ _ _ (by decide)) (h.free rfl)
  unfold State.rescan
  refine .ite _ h ?_
  dsimp only
  split
  · exact .ite _ ((h2 ..).crierWake _) (h2 ..)
  · exact h2 ..

theorem countEvent (h : LampKept s t) (k : Nat) : LampKept s (t.countEvent k) := rescan (h.free rfl) k

theorem edge (h : LampKept s t) (src : Nat) : LampKept s (t.edge src) :=
  have hn := h.devNotice src
  .ite _ h ((LampKept.ite _ (hn.bump Fld.CR_CNT_MERGE_COUNT 1 0 (by decide)) hn).countEvent _)

theorem mergedIn (h : LampKept s t) (b : Nat) : LampKept s (t.mergedIn b) := .ite _ h (h.put _ _ _ (by decide))

theorem arrives (h : LampKept s t) (src : Nat) : LampKept s (t.arrives src).2 := by
  unfold State.arrives
  split
  · exact h
  · rename_i b ns _
    have hc := h.free (t' := t.modCrier (fun c => { c with crossed := tblPut c.crossed src t.now })) rfl
    have hf := hc.free (t' := (t.modCrier (fun c => { c with crossed := tblPut c.crossed src t.now })).free.2) rfl
    simp only [apply_ite Prod.snd]
    exact .ite _ (.ite _ (hf.mergedIn b) hf) hc

theorem edgeIn (h : LampKept s t) (src : Nat) : LampKept s (t.edgeIn src) :=
  .ite _ ((h.arrives src).edge src) (h.arrives src)

theorem level (h : LampKept s t) (k : Nat) (on : Bool) : LampKept s (t.level k on) :=
  have hn : ∀ x n, LampKept s ((t.setSrc k x).devNotice n) := fun _ _ => devNotice (h.free rfl) _
  .ite _ h (.ite _ (.ite _ (hn ..) ((hn ..).countEvent _)) (.ite _ (h.free rfl) (h.free rfl)))

theorem msgEvent (h : LampKept s t) (n : Nat) : LampKept s (t.msgEvent n) :=
  .ite _ (h.free rfl) (countEvent (h.free rfl) _)

theorem msgRefresh (h : LampKept s t) (n : Nat) : LampKept s (t.msgRefresh n) := .ite _ h (h.level ..)

/-! ### The Tally ring and the Prompt conditions -/

theorem not_lampReg_ring {a p : Nat} (ha : a = Reg.TY_LVL ∨ a = Reg.TY_LOST) (hp : p < 4) : ¬ LampReg (a + 4 * p) := by
  simp only [LampReg, Reg.TY_LVL, Reg.TY_LOST, Reg.LL_STS, Reg.CR_WAKE] at *
  omega

theorem ringLost (h : LampKept s t) (p n : Nat) (hp : p < 4) : LampKept s (t.ringLost p n) :=
  .ite _ h ((h.bump _ _ _ (not_lampReg_ring (.inr rfl) hp)).edge _)

theorem ringDiscard (h : LampKept s t) (p : Nat) (hp : p < 4) : LampKept s (t.ringDiscard p) :=
  ringLost (.ite _ (h.free rfl) (h.free rfl)) p _ hp

theorem ringItems (h : LampKept s t) (p : Nat) (hp : p < 4) (its : List (List Word32)) : LampKept s (t.ringItems p its) := by
  have hf : ∀ (l : List (List Word32)) (acc : State × List (List Word32)), LampKept s acc.1 →
      LampKept s (l.foldl (fun acc it => acc.1.ringItem p acc.2 it) acc).1 := by
    intro l
    induction l with
    | nil => exact fun _ h => h
    | cons x r ih => exact fun acc h => ih _ (.ite _ (h.ringDiscard p hp) h)
  have hr := hf its (t, []) h
  exact (put (hr.free rfl) _ _ _ (not_lampReg_ring (.inl rfl) hp)).level _ _

theorem record (h : LampKept s t) (ty n : Nat) (body : List Byte) : LampKept s (t.record ty n body) :=
  have hp : (t.route ty).2 < 4 := Nat.mod_lt _ (by decide)
  .ite _ h (.ite _ (h.ringLost _ _ hp) (h.ringItems _ hp _))

theorem setCond (h : LampKept s t) (n : Nat) (on : Bool) : LampKept s (t.setCond n on) := by
  have hp : ∀ v, LampKept s (t.put Fld.PS_COND_COND v) := fun v => h.put _ _ _ (by decide)
  have hl : ∀ v w, LampKept s (((t.put Fld.PS_COND_COND v).put Fld.PS_CONDLOG_COND w).edge 2) :=
    fun v w => ((hp v).put _ _ _ (by decide)).edge 2
  unfold State.setCond
  dsimp only
  split
  · exact h
  · split
    · exact (hl ..).record ..
    · exact (hp _).record ..

theorem condEvent (h : LampKept s t) (n : Nat) : LampKept s (t.condEvent n) :=
  .ite _ (setCond (h.free rfl) _ _) (h.free rfl)

/-! ### Headers and frames -/

theorem not_lampReg_port {a p : Nat} (ha : a = Reg.PT_STS ∨ a = Reg.PT_PFCTX) (hp : p < 8) : ¬ LampReg (a + ptOff p) := by
  simp only [LampReg, ptOff, Reg.PT_STS, Reg.PT_PFCTX, Reg.LL_STS, Reg.CR_WAKE] at *
  omega

theorem sendPfc (h : LampKept s t) (p q : Nat) (hp : p < 8) : LampKept s (t.sendPfc p q) :=
  have hl : LampKept s (if t.flag Fld.PT_STS_LPI (ptOff p) then t.put Fld.PT_STS_LPI 0 (ptOff p) else t) :=
    .ite _ (h.put _ _ _ (not_lampReg_port (.inl rfl) hp)) h
  free (hl.bump Fld.PT_PFCTX_COUNT 1 (ptOff p) (not_lampReg_port (.inr rfl) hp)) rfl

theorem pfcPort (h : LampKept s t) (p : Nat) (hp : p < 8) : LampKept s (t.pfcPort p) :=
  have hx : ∀ x v, LampKept s ((t.setPort p x).put Fld.PT_STS_XOFF v (ptOff p)) :=
    fun x v => put (t := t.setPort p x) (h.free rfl) Fld.PT_STS_XOFF v (ptOff p) (not_lampReg_port (.inl rfl) hp)
  .ite _ (.ite _ (hx ..) (.ite _ ((hx ..).sendPfc _ _ hp) h)) (.ite _ ((hx ..).sendPfc _ _ hp) h)

theorem pfcUpdate (h : LampKept s t) : LampKept s t.pfcUpdate :=
  h.foldN _ (fun _ _ hp h => h.pfcPort _ (List.mem_range.mp hp))

theorem histAdd (h : LampKept s t) (k ns : Nat) : LampKept s (t.histAdd k ns) := .ite _ (h.free rfl) h

theorem purgeCells (h : LampKept s t) : LampKept s t.purgeCells := by
  refine .ite _ h (pfcUpdate (foldl (fun u x hu => ?_) _ _ (h.free rfl)))
  split
  · exact hu.histAdd ..
  · exact hu

theorem dropHeader (h : LampKept s t) (x : Header) (f : FieldRef) (hf : ¬ LampReg (f.reg + 0)) :
    LampKept s (t.dropHeader x f) := purgeCells (free (h.bump f 1 0 hf) rfl)

theorem toThread (h : LampKept s t) (n : Nat) (x : Header) : LampKept s (t.toThread n x) := by
  have h1 : LampKept s (if t.gated (regionOfThread n) then t.askWake (regionOfThread n) else t) := .ite _ (h.askWake _) h
  exact .ite _ (h1.dropHeader _ _ (by decide)) (.ite _ (h1.free rfl) (msgEvent (h1.free rfl) n))

/-- The registers of the host queues lie above the Lamplighter's. -/
theorem not_lampReg_high {a : Nat} (ha : 0x100000 ≤ a) (off : Nat) : ¬ LampReg (a + off) := by
  simp only [LampReg, Reg.LL_STS, Reg.CR_WAKE]
  omega

theorem cqAllot (h : LampKept s t) (q k : Nat) : LampKept s (t.cqAllot q k).2 :=
  have hp := h.put Fld.HQ_CQPOS_TAIL ((t.get Fld.HQ_CQPOS_TAIL (32 * q) + k) % t.cqSize q) (32 * q)
    (not_lampReg_high (by decide) _)
  .ite _ (hp.free rfl) hp

theorem deliver (fuel : Nat) : ∀ {t : State} (_ : LampKept s t) (code : Nat) (x : Header),
    LampKept s (State.deliver fuel t code x) := by
  induction fuel with
  | zero => exact fun h _ x => h.dropHeader _ _ (by decide)
  | succ n ih =>
    intro t h code x
    unfold State.deliver
    split
    · exact h.dropHeader _ _ (by decide)
    · exact .ite _ (h.toThread ..) (ih h _ _)
    · split
      · exact h.toThread ..
      · exact h.dropHeader _ _ (by decide)
    · exact .ite _ ((h.dropHeader _ _ (by decide)).condEvent _) (h.free rfl)
    · exact .ite _ (.ite _ (free (h.cqAllot ..) rfl) ((h.dropHeader _ _ (by decide)).condEvent _))
        (.ite _ (h.free rfl) (ih h _ _))

/-! ### Host queues and the link -/

theorem sendWrite (h : LampKept s t) (f a : Nat) (bs : List (BitVec 8)) : LampKept s (t.sendWrite f a bs) :=
  foldl (fun _ _ h => h.sendLink _ _) _ _ h

theorem msixEvent (h : LampKept s t) (q : Nat) : LampKept s (t.msixEvent q) :=
  .ite _ (h.msixSend q) (.ite _ (msixSend (h.free rfl) q) (h.free rfl))

theorem complete (h : LampKept s t) (q : Nat) (slot : Nat × Bool) (c : Completion) (data : List Byte) :
    LampKept s (t.complete q slot c data) := by
  -- the data slots, then the CONT entries, then the first entry
  refine msixEvent (.ite _ (put (sendWrite (foldl (fun _ _ h => h.sendWrite ..) _ _ ?_) ..) _ _ _
    (not_lampReg_high (by decide) _)) (sendWrite (foldl (fun _ _ h => h.sendWrite ..) _ _ ?_) ..)) q
  all_goals exact foldl (fun _ _ h => .ite _ h (h.sendWrite ..)) _ _ h

theorem clearQueueRegs (h : LampKept s t) (q : Nat) : LampKept s (t.clearQueueRegs q) := by
  refine ⟨h.mem, h.tb, fun a ha => ?_, h.power⟩
  have hlow : ¬ Reg.HQ_BASE + hqOff q ≤ a := by
    simp only [LampReg, Reg.LL_STS, Reg.CR_WAKE, Reg.HQ_BASE] at *
    omega
  have hfind := tblGet_filter t.regs
    (fun k => !(decide (Reg.HQ_BASE + hqOff q ≤ k) && decide (k < Reg.HQ_BASE + hqOff q + 32))) a
  rw [if_pos (by simp [hlow])] at hfind
  exact (congrArg (fun r => Option.getD r (resetAt a)) hfind).trans (h.reg a ha)

theorem stopDone (h : LampKept s t) (q : Nat) : LampKept s (t.stopDone q) := by
  have hr := put (t := t.modLink (fun l => { l with
    stopping := l.stopping.filter (· != q), flr := l.flr.filter (· != q) })) (h.free rfl) Fld.HQ_STS_RUN 0 (hqOff q)
    (not_lampReg_high (by decide) _)
  exact .ite _ (put (.ite _ (hr.clearQueueRegs q) hr) _ _ _ (by decide)) h

theorem flushQueue (h : LampKept s t) (q : Nat) : LampKept s (t.flushQueue q) :=
  .ite _ h (stopDone (foldl (fun _ _ h => h.complete ..) _ _ (h.free rfl)) q)

theorem flushStaged (h : LampKept s t) : LampKept s t.flushStaged := .ite _ h (foldl (fun _ _ h => h.flushQueue _) _ _ h)

theorem returnFrame (h : LampKept s t) (x : RxWait) : LampKept s (t.returnFrame x) :=
  .ite _ ((h.dropHeader _ _ (by decide)).condEvent _) (deliver _ h _ _)

theorem stopQueue (h : LampKept s t) (q : Nat) (flr : Bool) : LampKept s (t.stopQueue q flr) :=
  .ite _ (stopDone (flushStaged (foldl (fun _ _ h => h.returnFrame _) _ _ (h.free rfl))) q) (.ite _ (h.clearQueueRegs q) h)

theorem dropQueuedPrompt (h : LampKept s t) : LampKept s t.dropQueuedPrompt :=
  foldl (fun _ _ h => foldl (fun _ _ h => (h.dropHeader _ _ (by decide)).condEvent _) _ _ (h.free rfl)) _ _ h

theorem sendHeldMsix (h : LampKept s t) : LampKept s t.sendHeldMsix :=
  foldl (fun _ q h => .ite _ (h.msixSend q) h) _ _ h

/-- The link's change of state. -/
theorem linkTo (h : LampKept s t) (st : Nat) : LampKept s (t.linkTo st) := by
  have hput := h.put Fld.GL_LINK_STS_STATE st 0 (by decide)
  have hheld := free (edgeIn (t := (t.put Fld.GL_LINK_STS_STATE st).modLink (fun l => { l with since := t.now }))
    (hput.free rfl) 26) (t' := State.endHeld _ (st == 2)) rfl
  have hdrop : ∀ (c : Prop) [Decidable c] (u : State), LampKept s u → LampKept s (if c then u.dropQueuedPrompt else u) :=
    fun _ _ _ hu => .ite _ hu.dropQueuedPrompt hu
  exact .ite _ h (.ite _ (hdrop _ _ hheld).sendHeldMsix.flushStaged (hdrop _ _ hheld))

/-- The Bulk and Idle frames that remain are discarded, once they are counted. -/
theorem discardRest (t : State) : LampKept
    ((t.bump Fld.LL_DKDROP_BULK (t.porter.held.filter (fun h => h.cls == 2)).length).bump Fld.LL_DKDROP_IDLE
      (t.porter.held.filter (fun h => h.cls == 3)).length) t.discardRest :=
  foldl (fun _ _ h => msgRefresh (h.free rfl) _) _ _
    (foldl (fun _ _ h => h.free rfl) _ _ (foldN ((refl _).modPorter _) _ (fun _ _ _ h => h.free rfl)))

end LampKept

end Sys2Proof.Machine

/-! PROOF. What the Lamplighter's own operations do: its events, the rail sequences of the PMBus, the end of Banked, the closing
of the die and the entry to Dark (12 R384, R385, R393 to R397, R402, R410). -/

namespace Sys2Proof.Machine

/-! ### Fields -/

/-- A field reads as it did where another register or other bits of its own are set. -/
theorem State.get_put_apart (s : State) (f g : FieldRef) (v off off' : Nat) (hf : f.lo + f.width ≤ 32)
    (h : g.reg + off' ≠ f.reg + off ∨ f.lo + f.width ≤ g.lo ∨ g.lo + g.width ≤ f.lo) :
    (s.put f v off).get g off' = s.get g off' := by
  by_cases hr : g.reg + off' = f.reg + off
  · rw [State.get, State.get, hr, State.put, State.reg_setReg_same]
    exact bitsGet_bitsSet_apart _ _ hf (h.resolve_left (absurd hr))
  · exact State.get_put_other _ _ _ _ _ _ hr

/-- A counter that has room for its sum reads its largest value at most. -/
theorem State.get_bump_same (s : State) (f : FieldRef) (n off : Nat) (h : f.lo + f.width ≤ 32) :
    (s.bump f n off).get f off = min (s.get f off + n) (2 ^ f.width - 1) := by
  have hp := Nat.two_pow_pos f.width
  rw [State.bump, State.get_put_same _ _ _ _ h]
  exact Nat.mod_eq_of_lt (by omega)

theorem LampKept.railsDone {s t : State} (h : LampKept s t) : t.railsDone = s.railsDone := by
  obtain ⟨_, e⟩ := h.power
  rw [State.railsDone, e, State.railsDone]

/-! ### Lamplighter events (R402) -/

/-- Beside LL_EVT an event of the Lamplighter changes nothing of it. -/
theorem lampEvent_kept (s : State) (c : Nat) :
    LampKept ((s.put Fld.LL_EVT_CODE c).bump Fld.LL_EVT_COUNT) (s.lampEvent c) := by
  have h := LampKept.refl ((s.put Fld.LL_EVT_CODE c).bump Fld.LL_EVT_COUNT)
  have he : ∀ (b : Prop) [Decidable b], LampKept _ (if b then State.edge _ 23 else _) := fun _ _ => .ite _ (h.edge 23) h
  exact .ite _ ((he _).free rfl) (he _)

theorem lampEvent_reg (s : State) (c : Nat) {a : Nat} (ha : LampReg a) (hn : a ≠ Reg.LL_EVT) :
    (s.lampEvent c).reg a = s.reg a := by
  rw [(lampEvent_kept s c).reg a ha, State.bump, State.reg_put_other _ _ _ _ hn, State.reg_put_other _ _ _ _ hn]

theorem lampEvent_get (s : State) (c : Nat) (f : FieldRef) (ha : LampReg (f.reg + 0)) (hn : f.reg + 0 ≠ Reg.LL_EVT) :
    (s.lampEvent c).get f = s.get f := by
  rw [State.get, lampEvent_reg s c ha hn, State.get]

theorem lampEvent_code (s : State) {c : Nat} (hc : c < 256) : (s.lampEvent c).get Fld.LL_EVT_CODE = c := by
  rw [(lampEvent_kept s c).get _ _ (by decide), State.bump, State.get_put_apart _ _ _ _ _ _ (by decide) (by decide),
    State.get_put_same _ _ _ _ (by decide)]
  exact Nat.mod_eq_of_lt hc

theorem lampEvent_mem (s : State) (c : Nat) : (s.lampEvent c).mem = s.mem := (lampEvent_kept s c).mem
theorem lampEvent_tb (s : State) (c : Nat) : (s.lampEvent c).tb = s.tb := (lampEvent_kept s c).tb
theorem lampEvent_power (s : State) (c : Nat) : ∃ w, (s.lampEvent c).power = { s.power with wakeReq := w } :=
  (lampEvent_kept s c).power

/-- While the die is neither Lit nor Banked the Crier sees no event of the Lamplighter. -/
theorem lampEvent_threads {s : State} (h3 : s.dstate ≠ 3) (h4 : s.dstate ≠ 4) (c : Nat) :
    (s.lampEvent c).threads = s.threads := by
  have hd : ((s.put Fld.LL_EVT_CODE c).bump Fld.LL_EVT_COUNT).get Fld.LL_STS_DSTATE = s.dstate := by
    rw [State.bump, State.get_put_apart _ _ _ _ _ _ (by decide) (by decide),
      State.get_put_apart _ _ _ _ _ _ (by decide) (by decide), State.dstate]
  unfold State.lampEvent
  simp only [hd, beq_eq_false_iff_ne.mpr h3, beq_eq_false_iff_ne.mpr h4, Bool.or_self, Bool.false_eq_true, if_false]
  split <;> rfl

/-! ### Rail sequences (R410) -/

/-- From `s` to `t` only the PMBus goes on: LL_PMSTS and the transactions. -/
structure BusKept (s t : State) : Prop where
  mem   : t.mem = s.mem
  tb    : t.tb = s.tb
  reg   : ∀ a, a ≠ Reg.LL_PMSTS → t.reg a = s.reg a
  power : ∃ r h c n, t.power = { s.power with rails := r, hostTxn := h, pmCur := c, tries := n }

theorem BusKept.refl (s : State) : BusKept s s := ⟨rfl, rfl, fun _ _ => rfl, _, _, _, _, rfl⟩

theorem BusKept.get {s t : State} (h : BusKept s t) (f : FieldRef) (hf : f.reg + 0 ≠ Reg.LL_PMSTS) : t.get f = s.get f := by
  rw [State.get, h.reg _ hf, State.get]

/-- What starts a transaction goes on to LL_PMSTS.BUSY. -/
theorem pmNext_bus (s : State) : BusKept s s.pmNext := by
  have hb : ∀ u : State, u.mem = s.mem → u.tb = s.tb → u.regs = s.regs →
      (∃ r h c n, u.power = { s.power with rails := r, hostTxn := h, pmCur := c, tries := n }) → BusKept s u.pmBusy :=
    fun u hm ht hr hp => ⟨hm, ht, fun a ha => by
      rw [State.pmBusy, State.reg_put_other _ _ _ _ ha, State.reg, hr, State.reg], hp⟩
  have he : ∀ (u : State) (x : PmTxn), ∃ e, u.pmEmit x = { u with emitted := e } := fun u x => by
    unfold State.pmEmit
    split
    · exact ⟨_, rfl⟩
    · exact ⟨_, rfl⟩
  unfold State.pmNext
  split
  · exact hb _ rfl rfl rfl ⟨_, _, _, _, rfl⟩
  · split
    · obtain ⟨_, e⟩ := he _ _
      rw [e]
      exact hb _ rfl rfl rfl ⟨_, _, _, _, rfl⟩
    · obtain ⟨_, e⟩ := he _ _
      rw [e]
      exact hb _ rfl rfl rfl ⟨_, _, _, _, rfl⟩
    · exact hb _ rfl rfl rfl ⟨_, _, _, _, rfl⟩

theorem railSeq_bus (s : State) (xs : List PmTxn) : BusKept s (s.railSeq xs) := by
  unfold State.railSeq
  split
  · obtain ⟨hm, ht, hr, r, h, c, n, hp⟩ := pmNext_bus (s.modPower (fun p => { p with rails := p.rails ++ xs }))
    exact ⟨hm, ht, hr, r, h, c, n, by rw [hp, State.modPower]⟩
  · exact .refl s

/-- A die that is not the PMBus's master starts no sequence. -/
theorem railSeq_slave {s : State} (h : s.get Fld.LL_STRAP_PMMST = 0) (xs : List PmTxn) : s.railSeq xs = s := by
  simp [State.railSeq, State.flag, h]

/-! ### The end of Dark entry (R384, R394) -/

/-- A Lit device becomes Banked where every region is Gated. -/
theorem evalBanked_lit {s : State} (h : s.dstate = 3) :
    s.evalBanked.mem = s.mem ∧ s.evalBanked.dstate = (if s.allGated = true then 4 else 3) ∧
      s.evalBanked.power.dkStep = s.power.dkStep ∧ s.evalBanked.get Fld.LL_STS_DKREF = s.get Fld.LL_STS_DKREF ∧
      s.evalBanked.get Fld.LL_EVT_CODE = s.get Fld.LL_EVT_CODE := by
  by_cases hg : s.allGated = true
  · let a := (s.put Fld.LL_STS_DSTATE 4).modPower (fun x => { x with bankedAt := some s.now })
    have hrun : s.evalBanked = a.railVolts true := by simp [State.evalBanked, h, hg, a]
    have hb : BusKept a (a.railVolts true) := railSeq_bus a _
    obtain ⟨_, _, _, _, hpower⟩ := hb.power
    rw [hrun, if_pos hg, hpower, hb.get _ (by decide), hb.get _ (by decide), State.dstate, hb.get _ (by decide)]
    exact ⟨hb.mem, State.get_put_same s Fld.LL_STS_DSTATE 4 0 (by decide), rfl,
      State.get_put_apart s Fld.LL_STS_DSTATE Fld.LL_STS_DKREF 4 0 0 (by decide) (by decide),
      State.get_put_apart s Fld.LL_STS_DSTATE Fld.LL_EVT_CODE 4 0 0 (by decide) (by decide)⟩
  · have hrun : s.evalBanked = s := by simp [State.evalBanked, h, hg]
    rw [hrun, if_neg hg]
    exact ⟨rfl, h, rfl, rfl, rfl⟩

/-- The regions' power states lie outside the Lamplighter's block, and no event of it changes them. -/
theorem lampEvent_allGated (s : State) (c : Nat) : (s.lampEvent c).allGated = s.allGated := by
  have hreg : ∀ r, (s.lampEvent c).pstate r = s.pstate r := fun r => by
    rw [State.pstate, State.get, ((Calm.refl s).lampEvent c).reg _ ?_, State.pstate, State.get]
    intro h
    have hp := h.place
    simp only [rgOff, List.mem_cons, List.not_mem_nil, or_false] at hp
    omega
  simp only [State.allGated, hreg]

/-- An entry that is given up ends Lit, or Banked where every region is Gated, with its cause. -/
theorem abandonDark_spec (s : State) {c : Nat} (hc : c < 8) :
    (s.abandonDark c).mem = s.mem ∧ (s.abandonDark c).dstate = (if s.allGated = true then 4 else 3) ∧
      (s.abandonDark c).power.dkStep = 0 ∧ (s.abandonDark c).get Fld.LL_STS_DKREF = c ∧
      (s.abandonDark c).get Fld.LL_EVT_CODE = 4 := by
  let a := ((s.put Fld.LL_STS_DKREF c).put Fld.LL_STS_DSTATE 3).modPower (fun x => { x with dkStep := 0, bankedAt := none })
  have hlit : a.get Fld.LL_STS_DSTATE = 3 := State.get_put_same (s.put Fld.LL_STS_DKREF c) Fld.LL_STS_DSTATE 3 0 (by decide)
  have hcause : a.get Fld.LL_STS_DKREF = c :=
    (State.get_put_apart (s.put Fld.LL_STS_DKREF c) Fld.LL_STS_DSTATE Fld.LL_STS_DKREF 3 0 0 (by decide) (by decide)).trans
      ((State.get_put_same s Fld.LL_STS_DKREF c 0 (by decide)).trans (Nat.mod_eq_of_lt hc))
  have hgated : a.allGated = s.allGated := by
    have hreg : ∀ r, a.pstate r = s.pstate r := fun r => by
      have hr : Fld.RG_PSTS_STATE.reg + rgOff r ≠ Reg.LL_STS + 0 := by simp only [rgOff, Reg.LL_STS]; omega
      exact (State.get_put_other _ Fld.LL_STS_DSTATE Fld.RG_PSTS_STATE 3 0 (rgOff r) hr).trans
        (State.get_put_other s Fld.LL_STS_DKREF Fld.RG_PSTS_STATE c 0 (rgOff r) hr)
    simp only [State.allGated, hreg]
  obtain ⟨_, hpower⟩ := lampEvent_power a 4
  obtain ⟨hmem, hdst, hstep, hdkref, hcode⟩ := evalBanked_lit (s := a.lampEvent 4)
    ((lampEvent_get a 4 _ (by decide) (by decide)).trans hlit)
  have hrun : s.abandonDark c = (a.lampEvent 4).evalBanked := rfl
  rw [hrun, hmem, hdst, hstep, hdkref, hcode, lampEvent_mem, lampEvent_allGated, hgated, hpower,
    lampEvent_get a 4 _ (by decide) (by decide), hcause, lampEvent_code a (by decide)]
  exact ⟨rfl, rfl, rfl, rfl, rfl⟩

/-! ### The closing of the die (R393 steps 5 to 7) -/

/-- On the way to Dark from `s` to `t` stay: memory, the Timebase's value and what it saved, the Lamplighter's registers but
for LL_STS, LL_EVT and LL_PMSTS, and what it keeps beside them but for the step of the entry and the PMBus. -/
structure DarkKept (s t : State) : Prop where
  mem   : t.mem = s.mem
  tb    : ∃ e, t.tb = { s.tb with onEdge := e }
  reg   : ∀ a, LampReg a → a ∉ [Reg.LL_STS, Reg.LL_EVT, Reg.LL_PMSTS] → t.reg a = s.reg a
  power : ∃ w k n r h c i, t.power =
    { s.power with wakeReq := w, dkStep := k, dkAt := n, rails := r, hostTxn := h, pmCur := c, tries := i }

namespace DarkKept

variable {s t u : State}

theorem trans (h : DarkKept s t) (k : DarkKept t u) : DarkKept s u where
  mem := k.mem.trans h.mem
  tb := by
    obtain ⟨_, e⟩ := h.tb
    obtain ⟨x, e'⟩ := k.tb
    exact ⟨x, by rw [e', e]⟩
  reg := fun a ha hn => (k.reg a ha hn).trans (h.reg a ha hn)
  power := by
    obtain ⟨_, _, _, _, _, _, _, e⟩ := h.power
    obtain ⟨x1, x2, x3, x4, x5, x6, x7, e'⟩ := k.power
    exact ⟨x1, x2, x3, x4, x5, x6, x7, by rw [e', e]⟩

theorem of_lamp (h : LampKept s t) : DarkKept s t where
  mem := h.mem
  tb := ⟨_, h.tb⟩
  reg := fun a ha _ => h.reg a ha
  power := by
    obtain ⟨_, e⟩ := h.power
    exact ⟨_, _, _, _, _, _, _, e⟩

theorem of_bus (h : BusKept s t) : DarkKept s t where
  mem := h.mem
  tb := ⟨_, h.tb⟩
  reg := fun a _ hn => h.reg a (by rintro rfl; simp at hn)
  power := by
    obtain ⟨_, _, _, _, e⟩ := h.power
    exact ⟨_, _, _, _, _, _, _, e⟩

theorem lampEvent (s : State) (c : Nat) : DarkKept s (s.lampEvent c) where
  mem := lampEvent_mem s c
  tb := ⟨_, lampEvent_tb s c⟩
  reg := fun a ha hn => lampEvent_reg s c ha (by rintro rfl; simp at hn)
  power := by
    obtain ⟨_, e⟩ := lampEvent_power s c
    exact ⟨_, _, _, _, _, _, _, e⟩

theorem get (h : DarkKept s t) (f : FieldRef) (ha : LampReg (f.reg + 0))
    (hn : f.reg + 0 ∉ [Reg.LL_STS, Reg.LL_EVT, Reg.LL_PMSTS]) : t.get f = s.get f := by
  rw [State.get, h.reg _ ha hn, State.get]

theorem coast (h : DarkKept s t) : t.tb.coast = s.tb.coast := by
  obtain ⟨_, e⟩ := h.tb
  rw [e]

theorem dkWake (h : DarkKept s t) : t.power.dkWake = s.power.dkWake := by
  obtain ⟨_, _, _, _, _, _, _, e⟩ := h.power
  rw [e]

theorem faults (h : DarkKept s t) : t.power.faults = s.power.faults := by
  obtain ⟨_, _, _, _, _, _, _, e⟩ := h.power
  rw [e]

theorem supplyOk (h : DarkKept s t) : t.power.supplyOk = s.power.supplyOk := by
  obtain ⟨_, _, _, _, _, _, _, e⟩ := h.power
  rw [e]

end DarkKept

/-- What the save of the Timebase asks for: at the next crystal edge, or nothing where saved values stand. -/
def State.saveEdge (s : State) : EdgeWork := if s.tb.coast.isSome = true then .nothing else .save

theorem tbSave_spec (s : State) : s.tbSave.mem = s.mem ∧ s.tbSave.power = s.power ∧
    s.tbSave.tb = { s.tb with onEdge := s.saveEdge } ∧ ∀ a, a ≠ Reg.TB_STS → s.tbSave.reg a = s.reg a := by
  unfold State.tbSave State.saveEdge
  split
  · exact ⟨rfl, rfl, rfl, fun a ha => State.reg_put_other _ _ _ _ ha⟩
  · exact ⟨rfl, rfl, rfl, fun _ _ => rfl⟩

/-- The state in which the rails are switched off. -/
def State.closing (s : State) : State :=
  ((s.tbSave).put Fld.LL_STS_DSTATE 5).modPower (fun x => { x with dkStep := 3, dkAt := s.tbSave.now })

theorem closing_power (s : State) : s.closing.power = { s.power with dkStep := 3, dkAt := s.tbSave.now } := by
  obtain ⟨-, hpower, -, -⟩ := tbSave_spec s
  rw [State.closing, State.modPower]
  simp only [State.put_power, hpower]

theorem closeDie_bus (s : State) : BusKept s.closing s.closeDie := railSeq_bus _ _

theorem closeDie_kept (s : State) : DarkKept s s.closeDie := by
  obtain ⟨hmem, -, htb, hreg⟩ := tbSave_spec s
  refine DarkKept.trans (t := s.closing) ⟨hmem, ⟨_, htb⟩, fun a ha hn => ?_, ?_⟩ (.of_bus (closeDie_bus s))
  · refine (State.reg_put_other s.tbSave Fld.LL_STS_DSTATE 5 0 (by rintro rfl; simp at hn)).trans (hreg a ?_)
    rintro rfl
    exact absurd ha (by decide)
  · exact ⟨_, _, _, _, _, _, _, closing_power s⟩

/-- The closing has begun, and waits for the crystal edge where nothing is saved yet. -/
theorem closeDie_spec (s : State) :
    s.closeDie.dstate = 5 ∧ s.closeDie.power.dkStep = 3 ∧ s.closeDie.tb.onEdge = s.saveEdge := by
  have hb := closeDie_bus s
  obtain ⟨_, _, _, _, hpower⟩ := hb.power
  obtain ⟨-, -, htb, -⟩ := tbSave_spec s
  refine ⟨(hb.get _ (by decide)).trans (State.get_put_same _ Fld.LL_STS_DSTATE 5 0 (by decide)), by rw [hpower]; rfl, ?_⟩
  rw [hb.tb]
  exact congrArg Timebase.onEdge htb

/-- With no rail to switch off the sequences stand as they were. -/
theorem closeDie_railsDone {s : State} (h : s.get Fld.LL_STRAP_PMMST = 0) : s.closeDie.railsDone = s.railsDone := by
  obtain ⟨-, -, -, hreg⟩ := tbSave_spec s
  have hs : s.closing.get Fld.LL_STRAP_PMMST = 0 :=
    (State.get_put_apart s.tbSave Fld.LL_STS_DSTATE Fld.LL_STRAP_PMMST 5 0 0 (by decide) (by decide)).trans
      (by rw [State.get, hreg _ (by decide)]; exact h)
  have hrun : s.closeDie = s.closing := railSeq_slave hs _
  rw [hrun, State.railsDone, closing_power, State.railsDone]

/-! ### Reset values (R395, R396) -/

/-- The state of the regions is all that the retired ones change. -/
theorem applyRetired_eq (s : State) : ∃ r, s.applyRetired = { s with regs := r } := by
  unfold State.applyRetired foldN
  generalize List.range 8 = l
  induction l generalizing s with
  | nil => exact ⟨_, rfl⟩
  | cons r l ih =>
    obtain ⟨x, e⟩ := ih (if s.regionRetired r then s.put Fld.RG_PSTS_STATE 6 (rgOff r) else s)
    refine ⟨x, ?_⟩
    rw [List.foldl_cons, e]
    split <;> rfl

theorem applyRetired_kept (s : State) : LampKept s s.applyRetired :=
  (LampKept.refl s).foldN _ (fun _ r _ h => .ite _ (h.put _ _ _ (LampKept.not_lampReg_high (by decide) _)) h)

/-- A fresh die has empty memories and no thread in its table; the Lamplighter's registers that it keeps read as they did. -/
theorem fresh_spec (s : State) (keep : Nat → Bool) (tb : Timebase) (p : Power) (a : Assay) :
    (s.fresh keep tb p a).mem = [] ∧ (s.fresh keep tb p a).threads = [] ∧ (s.fresh keep tb p a).tb = tb ∧
      (s.fresh keep tb p a).power = p ∧
      ∀ b, LampReg b → keep b = true → b ≠ Reg.LL_PMSTS → (s.fresh keep tb p a).reg b = s.reg b := by
  unfold State.fresh
  dsimp only
  generalize hz : State.applyStraps _ = z
  obtain ⟨r, e⟩ := applyRetired_eq z
  have hk := (applyRetired_kept z).reg
  refine ⟨by rw [e, ← hz]; rfl, by rw [e, ← hz]; rfl, by rw [e, ← hz]; rfl, by rw [e, ← hz]; rfl,
    fun b hb hkeep hn => ?_⟩
  have hid : b ≠ Fld.AT_ID_PATCHREV.reg + 0 := by rintro rfl; exact absurd hb (by decide)
  have hpo : b ≠ Fld.PO_DEVNUM_DIE.reg + 0 := by rintro rfl; exact absurd hb (by decide)
  rw [hk b hb, ← hz, State.applyStraps, State.reg_put_other _ _ _ _ hn, State.reg_put_other _ _ _ _ hpo,
    State.reg_put_other _ _ _ _ hn, State.reg_put_other _ _ _ _ hn, State.reg_put_other _ _ _ _ hid]
  have hfind := tblGet_filter s.regs (fun k => keep k || isFused k) b
  rw [if_pos (by simp [hkeep])] at hfind
  exact congrArg (fun r => Option.getD r (resetAt b)) hfind

end Sys2Proof.Machine

/-! PROOF. The entry to Dark, and the ways that lead to it (12 R385, R393 to R397). -/

namespace Sys2Proof.Machine

/-! ### Everything but the Lamplighter switched off (R393 steps 8 and 9, R396) -/

/-- The Timebase that Dark keeps (11 R382). -/
def State.darkTb (s : State) : Timebase := {
  now := s.tb.now, frac := s.tb.frac, elapsed := s.tb.elapsed, xtal := s.tb.xtal, xtalAcc := s.tb.xtalAcc,
  disciplined := s.tb.disciplined, coast := s.tb.coast }

/-- The die switched off, before the entry to Dark is noted. -/
def State.switchedOff (s : State) : State :=
  (((((((s.fresh isKept s.darkTb { s.keptPower with upStep := 0 } s.keptAssay).put Fld.LL_STS_DSTATE 1).put
    Fld.LL_STS_LDOLP 1).put Fld.LL_STS_VIOSW 0).put Fld.LL_STS_DKREF 0).put Fld.TB_STS_UNSET (s.get Fld.TB_STS_UNSET)).put
    Fld.GL_LINK_STS_STATE 5)

/-- With no wake latched meanwhile the device stays in Dark. -/
theorem enterDark_eq {s : State} (h : s.power.dkWake = []) : s.enterDark = s.switchedOff.lampEvent 3 := by
  unfold State.enterDark
  rw [h]
  rfl

theorem isKept_lamp {a : Nat} (ha : LampReg a) (hn : a ∉ [Reg.LL_PMCMD, Reg.LL_PMDATA]) : isKept a = true := by
  simp only [List.mem_cons, List.not_mem_nil, or_false, not_or] at hn
  obtain ⟨hc, hd⟩ := hn
  rcases ha with ⟨h1, h2⟩ | ⟨h1, h2⟩
  · simp [isKept, h1, h2, hc, hd]
  · simp [isKept, h1, h2]

theorem switchedOff_reg (s : State) {a : Nat} (ha : LampReg a)
    (hn : a ∉ [Reg.LL_STS, Reg.LL_PMSTS, Reg.LL_PMCMD, Reg.LL_PMDATA]) : s.switchedOff.reg a = s.reg a := by
  simp only [List.mem_cons, List.not_mem_nil, or_false, not_or] at hn
  obtain ⟨hs, hp, hc, hd⟩ := hn
  have htb : a ≠ Fld.TB_STS_UNSET.reg + 0 := by rintro rfl; exact absurd ha (by decide)
  have hgl : a ≠ Fld.GL_LINK_STS_STATE.reg + 0 := by rintro rfl; exact absurd ha (by decide)
  obtain ⟨-, -, -, -, hfresh⟩ := fresh_spec s isKept s.darkTb { s.keptPower with upStep := 0 } s.keptAssay
  rw [State.switchedOff, State.reg_put_other _ _ _ _ hgl, State.reg_put_other _ _ _ _ htb, State.reg_put_other _ _ _ _ hs,
    State.reg_put_other _ _ _ _ hs, State.reg_put_other _ _ _ _ hs, State.reg_put_other _ _ _ _ hs]
  exact hfresh a ha (isKept_lamp ha (by simp [hc, hd])) hp

theorem switchedOff_sts (s : State) : s.switchedOff.dstate = 1 ∧ s.switchedOff.get Fld.LL_STS_LDOLP = 1 ∧
    s.switchedOff.get Fld.LL_STS_VIOSW = 0 := by
  unfold State.dstate State.switchedOff
  generalize State.fresh s isKept _ _ _ = u
  refine ⟨?_, ?_, ?_⟩ <;>
  · simp (disch := decide) only [State.get_put_apart]
    exact State.get_put_same _ _ _ _ (by decide)

theorem switchedOff_rest (s : State) : s.switchedOff.mem = [] ∧ s.switchedOff.threads = [] ∧ s.switchedOff.tb = s.darkTb ∧
    s.switchedOff.power = { s.keptPower with upStep := 0 } := by
  obtain ⟨hmem, hthr, htb, hpower, -⟩ := fresh_spec s isKept s.darkTb { s.keptPower with upStep := 0 } s.keptAssay
  unfold State.switchedOff
  generalize State.fresh s isKept _ _ _ = u at *
  simp only [State.put_mem, State.put_threads, State.put_tb, State.put_power]
  exact ⟨hmem, hthr, htb, hpower⟩

end Sys2Proof.Machine

namespace Sys2Proof.Says

open Sys2Proof.Machine

/-- The registers that Dark keeps read in Dark as before. -/
theorem enterDark_reg {s : State} (h : s.power.dkWake = []) {a : Nat} (ha : LampReg a)
    (hn : a ∉ [Reg.LL_STS, Reg.LL_EVT, Reg.LL_PMSTS, Reg.LL_PMCMD, Reg.LL_PMDATA]) : s.enterDark.reg a = s.reg a := by
  simp only [List.mem_cons, List.not_mem_nil, or_false, not_or] at hn
  obtain ⟨hs, he, hp, hc, hd⟩ := hn
  rw [enterDark_eq h, lampEvent_reg _ _ ha he, switchedOff_reg s ha (by simp [hs, hp, hc, hd])]

/-- What the Lamplighter keeps beside its registers. -/
theorem enterDark_power {s : State} (h : s.power.dkWake = []) :
    s.enterDark.power.dynAddr = s.power.dynAddr ∧ s.enterDark.power.faults = s.power.faults ∧
      s.enterDark.power.supplyOk = s.power.supplyOk := by
  obtain ⟨-, -, -, hpower⟩ := switchedOff_rest s
  obtain ⟨_, e⟩ := lampEvent_power s.switchedOff 3
  rw [enterDark_eq h, e, hpower]
  exact ⟨rfl, rfl, rfl⟩

/-- The device is in Dark once everything but the Lamplighter is switched off. -/
theorem enterDark_inDark {s : State} (h : s.power.dkWake = []) : InDark s s.enterDark := by
  obtain ⟨hdst, hldo, hvio⟩ := switchedOff_sts s
  obtain ⟨hmem, hthr, htb, -⟩ := switchedOff_rest s
  obtain ⟨hdyn, -, -⟩ := enterDark_power h
  have hreg := fun a => enterDark_reg (a := a) h
  have hget := fun f => lampEvent_get s.switchedOff 3 f
  rw [enterDark_eq h] at hdyn hreg ⊢
  refine ⟨(hget _ (by decide) (by decide)).trans hdst, (hget _ (by decide) (by decide)).trans hldo,
    (hget _ (by decide) (by decide)).trans hvio, fun p => ?_, ?_, hdyn, ?_, fun k hk => hreg _ ?_ ?_,
    fun a h1 h2 => hreg a ?_ ?_⟩
  · rw [State.byte, lampEvent_mem, hmem]
    rfl
  · rw [lampEvent_threads (by omega) (by omega), hthr]
  · rw [lampEvent_tb, htb]
    rfl
  all_goals
    simp only [LampReg, List.mem_cons, List.not_mem_nil, or_false, Reg.CR_WAKE, Reg.LL_STS, Reg.LL_EVT, Reg.LL_PMSTS,
      Reg.LL_PMCMD, Reg.LL_PMDATA] at *
    omega

/-- The same seen from a state that reached this one by steps toward Dark. -/
theorem inDark_of_kept {s t : State} (k : DarkKept s t) (h : s.power.dkWake = []) : InDark s t.enterDark := by
  obtain ⟨hdst, hldo, hvio, hbyte, hthr, hdyn, hnow, hwake, hlamp⟩ := enterDark_inDark (k.dkWake.trans h)
  obtain ⟨_, etb⟩ := k.tb
  obtain ⟨_, _, _, _, _, _, _, epower⟩ := k.power
  refine ⟨hdst, hldo, hvio, hbyte, hthr, hdyn.trans (by rw [epower]), hnow.trans (by rw [etb]),
    fun j hj => (hwake j hj).trans (k.reg _ ?_ ?_), fun a h1 h2 => (hlamp a h1 h2).trans (k.reg a ?_ ?_)⟩
  all_goals
    simp only [LampReg, List.mem_cons, List.not_mem_nil, or_false, Reg.CR_WAKE, Reg.LL_STS, Reg.LL_EVT, Reg.LL_PMSTS,
      Reg.LL_PMDATA] at *
    omega

/-! ### The closing and what ends it -/

/-- No rail has to be switched off, and no sequence is under way. -/
def RailsStill (s : State) : Prop := s.get Fld.LL_STRAP_PMMST = 0 ∧ s.railsDone = true

/-- The Timebase has its value saved: the crystal edge of the closing has come, or saved values stand. -/
def TbSaved (s : State) : Prop := if s.power.dkStep = 3 then s.tb.onEdge ≠ .save else s.tb.coast.isSome = true

/-- The closing goes on from `s`, and waits for the crystal edge. -/
def Closing (s s' : State) : Prop :=
  s'.mem = s.mem ∧ s'.dstate = 5 ∧ s'.power.dkStep = 3 ∧ s'.tb.onEdge = .save

theorem closed_iff (s : State) : s.closed = true ↔ s.railsDone = true ∧ s.tb.onEdge ≠ .save := by
  simp [State.closed]

theorem closeDie_closed {s : State} (hs : RailsStill s) (hc : s.tb.coast.isSome = true) : s.closeDie.closed = true := by
  obtain ⟨hm, hr⟩ := hs
  obtain ⟨-, -, hedge⟩ := closeDie_spec s
  rw [closed_iff, closeDie_railsDone hm, hedge, State.saveEdge, if_pos hc]
  exact ⟨hr, by decide⟩

theorem closeDie_waits {s : State} (hc : s.tb.coast = none) : s.closeDie.tb.onEdge = .save ∧ s.closeDie.closed = false := by
  obtain ⟨-, -, hedge⟩ := closeDie_spec s
  rw [State.saveEdge, hc, if_neg (by decide)] at hedge
  exact ⟨hedge, by simp [State.closed, hedge]⟩

theorem closeDie_closing {s t : State} (k : DarkKept s t) (hc : s.tb.coast = none) : Closing s t.closeDie := by
  obtain ⟨hdst, hstep, -⟩ := closeDie_spec t
  obtain ⟨hedge, -⟩ := closeDie_waits (k.coast.trans hc)
  exact ⟨(closeDie_kept t).mem.trans k.mem, hdst, hstep, hedge⟩

theorem RailsStill.of_lamp {s t : State} (k : LampKept s t) (h : RailsStill s) : RailsStill t := by
  obtain ⟨hm, hr⟩ := h
  exact ⟨(k.get _ _ (by decide)).trans hm, k.railsDone.trans hr⟩

/-! ### DARK_ENTERED -/

/-- L2 is reached, and with the Timebase saved the device enters Dark; given again, it goes on once the edge has come. -/
theorem darkEntered_inDark {s : State} (hstep : s.power.dkStep = 2 ∨ s.power.dkStep = 3) (hw : s.power.dkWake = [])
    (hs : RailsStill s) (ht : TbSaved s) : ∃ s', exec .darkEntered s = .next s' ∧ InDark s s' := by
  rcases hstep with h | h
  · have kl := (LampKept.refl s).linkTo 5
    have kd : DarkKept s (s.linkTo 5).closeDie := (DarkKept.of_lamp kl).trans (closeDie_kept _)
    have hc : (s.linkTo 5).tb.coast.isSome = true := by
      rw [kl.tb]
      simpa [TbSaved, h] using ht
    obtain ⟨-, hstep', -⟩ := closeDie_spec (s.linkTo 5)
    refine ⟨_, ?_, inDark_of_kept kd hw⟩
    show execDarkEntered s = _
    simp only [execDarkEntered, h, if_true, hstep', closeDie_closed (hs.of_lamp kl) hc, and_self]
  · obtain ⟨-, hr⟩ := hs
    have hclosed : s.closed = true := (closed_iff s).mpr ⟨hr, by simpa [TbSaved, h] using ht⟩
    refine ⟨_, ?_, enterDark_inDark hw⟩
    show execDarkEntered s = _
    simp [execDarkEntered, h, hclosed]

theorem darkEntered_closing {s : State} (h : s.power.dkStep = 2) (hc : s.tb.coast = none) :
    ∃ s', exec .darkEntered s = .next s' ∧ Closing s s' := by
  have kl := (LampKept.refl s).linkTo 5
  obtain ⟨-, hclosed⟩ := closeDie_waits (s := s.linkTo 5) (by rw [kl.tb]; exact hc)
  refine ⟨_, ?_, closeDie_closing (.of_lamp kl) hc⟩
  show execDarkEntered s = _
  simp [execDarkEntered, h, hclosed]

/-! ### Shutdowns (R397) -/

/-- The cause of a shutdown is latched, and FAULT_N driven low. -/
def causeLatched (s : State) (latch : FieldRef) : State :=
  (s.put latch 1).modPower (fun x => { x with faults := setIns x.faults 1 })

/-- The event of a shutdown, and the end of Banked. -/
def shutdownNoted (s : State) (latch : FieldRef) : State :=
  if ((causeLatched s latch).lampEvent 8).dstate = 4 then ((causeLatched s latch).lampEvent 8).railVolts false
  else (causeLatched s latch).lampEvent 8

/-- The die as a shutdown closes it, or as Dark entry has closed it. -/
def shutdownClosed (s : State) (latch : FieldRef) : State :=
  if (shutdownNoted s latch).power.dkStep = 3 then shutdownNoted s latch else (shutdownNoted s latch).closeDie

theorem shutdown_eq (s : State) (latch : FieldRef) : s.shutdown latch =
    if (shutdownClosed s latch).closed = true then (shutdownClosed s latch).enterDark else shutdownClosed s latch := rfl

/-- A bit of LL_RST_CAUSE. -/
def CauseBit (f : FieldRef) : Prop := f.reg = Reg.LL_RST_CAUSE ∧ f.width = 1 ∧ f.lo + f.width ≤ 32

theorem shutdownNoted_kept (s : State) (latch : FieldRef) : DarkKept (causeLatched s latch) (shutdownNoted s latch) := by
  have h := DarkKept.lampEvent (causeLatched s latch) 8
  unfold shutdownNoted
  split
  · exact h.trans (.of_bus (railSeq_bus _ _))
  · exact h

theorem shutdownClosed_kept (s : State) (latch : FieldRef) : DarkKept (causeLatched s latch) (shutdownClosed s latch) := by
  have h := shutdownNoted_kept s latch
  unfold shutdownClosed
  split
  · exact h
  · exact h.trans (closeDie_kept _)

/-- Neither the event nor the rails' voltages change the step of a Dark entry. -/
theorem shutdownNoted_dkStep (s : State) (latch : FieldRef) : (shutdownNoted s latch).power.dkStep = s.power.dkStep := by
  obtain ⟨_, e⟩ := lampEvent_power (causeLatched s latch) 8
  have h : ((causeLatched s latch).lampEvent 8).power.dkStep = s.power.dkStep := by
    rw [e]
    rfl
  unfold shutdownNoted
  split
  · obtain ⟨_, _, _, _, e'⟩ := (railSeq_bus ((causeLatched s latch).lampEvent 8) _).power
    rw [State.railVolts, e']
    exact h
  · exact h

/-- With no rail to switch, the event is all that a shutdown notes. -/
theorem shutdownNoted_slave {s : State} {latch : FieldRef} (hl : CauseBit latch) (h : s.get Fld.LL_STRAP_PMMST = 0) :
    shutdownNoted s latch = (causeLatched s latch).lampEvent 8 := by
  obtain ⟨hr, -, hb⟩ := hl
  have hm : ((causeLatched s latch).lampEvent 8).get Fld.LL_STRAP_PMMST = 0 :=
    (lampEvent_get _ 8 _ (by decide) (by decide)).trans
      ((State.get_put_other s latch Fld.LL_STRAP_PMMST 1 0 0 (by rw [hr]; decide)).trans h)
  unfold shutdownNoted
  rw [State.railVolts, railSeq_slave hm, ite_self]

theorem shutdownNoted_still {s : State} {latch : FieldRef} (hl : CauseBit latch) (h : RailsStill s) :
    RailsStill (shutdownNoted s latch) := by
  obtain ⟨hm, hr⟩ := h
  obtain ⟨hreg, -, -⟩ := id hl
  obtain ⟨_, e⟩ := lampEvent_power (causeLatched s latch) 8
  rw [shutdownNoted_slave hl hm]
  refine ⟨(lampEvent_get _ 8 _ (by decide) (by decide)).trans
    ((State.get_put_other s latch Fld.LL_STRAP_PMMST 1 0 0 (by rw [hreg]; decide)).trans hm), ?_⟩
  rw [State.railsDone, e]
  exact hr

theorem setIns_ne_nil (l : List Nat) (n : Nat) : setIns l n ≠ [] := by
  cases l with
  | nil => simp [setIns]
  | cons k r =>
    unfold setIns
    split
    · simp
    · split <;> simp

/-- From `s` a shutdown has latched its cause and drives FAULT_N low. -/
def CauseShown (s t : State) (latch : FieldRef) : Prop :=
  t.get latch = 1 ∧ t.faultLow = true ∧ t.power.supplyOk = s.power.supplyOk

theorem causeShown_of {s t : State} {latch : FieldRef} (hl : CauseBit latch)
    (hreg : t.reg Reg.LL_RST_CAUSE = (s.put latch 1).reg Reg.LL_RST_CAUSE)
    (hfault : t.power.faults = setIns s.power.faults 1) (hok : t.power.supplyOk = s.power.supplyOk) : CauseShown s t latch := by
  obtain ⟨hr, hw, hb⟩ := hl
  have hget : t.get latch = (s.put latch 1).get latch := by rw [State.get, State.get, hr, hreg]
  refine ⟨?_, by simp [State.faultLow, hfault, setIns_ne_nil], hok⟩
  rw [hget, State.get_put_same _ _ _ _ hb, hw]
  rfl

/-- What the entry to Dark keeps is the same without the cause. -/
theorem InDark.of_cause {s t : State} {latch : FieldRef} (hl : CauseBit latch) (h : InDark (causeLatched s latch) t) :
    InDark s t := by
  obtain ⟨hr, -, -⟩ := hl
  obtain ⟨hdst, hldo, hvio, hbyte, hthr, hdyn, hnow, hwake, hlamp⟩ := h
  have hput : ∀ a, a ≠ Reg.LL_RST_CAUSE → (causeLatched s latch).reg a = s.reg a := fun a ha =>
    State.reg_put_other s latch 1 0 (by rw [hr]; exact ha)
  refine ⟨hdst, hldo, hvio, hbyte, hthr, hdyn, hnow, fun k hk => (hwake k hk).trans (hput _ ?_),
    fun a h1 h2 => (hlamp a h1 h2).trans (hput a ?_)⟩
  all_goals
    simp only [Reg.CR_WAKE, Reg.LL_RST_CAUSE, Reg.LL_PMDATA] at *
    omega

/-- The supplies can be switched off at once where the Timebase is saved and no rail is to be switched off. -/
theorem shutdownClosed_closed {s : State} {latch : FieldRef} (hl : CauseBit latch) (hs : RailsStill s) (ht : TbSaved s) :
    (shutdownClosed s latch).closed = true := by
  have hstep := shutdownNoted_dkStep s latch
  have hstill := shutdownNoted_still hl hs
  unfold shutdownClosed
  by_cases h3 : s.power.dkStep = 3
  · obtain ⟨hm, -⟩ := hs
    obtain ⟨-, hr⟩ := hstill
    rw [if_pos (hstep.trans h3), closed_iff]
    refine ⟨hr, ?_⟩
    have hedge : s.tb.onEdge ≠ .save := by simpa [TbSaved, h3] using ht
    rw [shutdownNoted_slave hl hm, lampEvent_tb]
    exact hedge
  · rw [if_neg (by rw [hstep]; exact h3)]
    have hcoast : s.tb.coast.isSome = true := by simpa [TbSaved, h3] using ht
    refine closeDie_closed hstill ?_
    rw [(shutdownNoted_kept s latch).coast]
    exact hcoast

/-- Once the Timebase is saved and no rail is to be switched off, a shutdown ends in Dark at once. -/
theorem shutdown_inDark {s : State} {latch : FieldRef} (hl : CauseBit latch) (hw : s.power.dkWake = []) (hs : RailsStill s)
    (ht : TbSaved s) : InDark s (s.shutdown latch) ∧ CauseShown s (s.shutdown latch) latch := by
  have kd := shutdownClosed_kept s latch
  have hwake : (shutdownClosed s latch).power.dkWake = [] := kd.dkWake.trans hw
  have hclosed := shutdownClosed_closed hl hs ht
  obtain ⟨-, hfault, hok⟩ := enterDark_power hwake
  rw [shutdown_eq, if_pos hclosed]
  exact ⟨(inDark_of_kept kd hw).of_cause hl, causeShown_of hl
    ((enterDark_reg hwake (by decide) (by decide)).trans (kd.reg _ (by decide) (by decide)))
    (hfault.trans kd.faults) (hok.trans kd.supplyOk)⟩

/-- With nothing saved yet a shutdown closes the die and waits for the crystal edge. -/
theorem shutdown_closing {s : State} {latch : FieldRef} (hl : CauseBit latch) (h3 : s.power.dkStep ≠ 3)
    (hc : s.tb.coast = none) : Closing s (s.shutdown latch) ∧ CauseShown s (s.shutdown latch) latch := by
  have kd := shutdownClosed_kept s latch
  have kn := shutdownNoted_kept s latch
  have hrun : shutdownClosed s latch = (shutdownNoted s latch).closeDie :=
    if_neg (by rw [shutdownNoted_dkStep]; exact h3)
  obtain ⟨-, hopen⟩ := closeDie_waits (s := shutdownNoted s latch) (kn.coast.trans hc)
  have hclosing : Closing (causeLatched s latch) (shutdownNoted s latch).closeDie := closeDie_closing kn hc
  rw [hrun] at kd
  rw [shutdown_eq, hrun, if_neg (by rw [hopen]; decide)]
  exact ⟨hclosing, causeShown_of hl (kd.reg _ (by decide) (by decide)) kd.faults kd.supplyOk⟩

/-- THERMAL_SHUTDOWN acts while the die is on and a sensor has read above its limit for 100 µs. -/
theorem exec_thermalShutdown {s : State} (hon : s.dieOn = true) (hhot : ∃ kv ∈ s.power.hotAt, kv.2 + 100000 ≤ s.now) :
    exec .thermalShutdown s = .next (s.shutdown Fld.LL_RST_CAUSE_THERM) := by
  have hany : s.power.hotAt.any (fun kv => decide (kv.2 + 100000 ≤ s.now)) = true := by
    obtain ⟨kv, hmem, hle⟩ := hhot
    exact List.any_eq_true.mpr ⟨kv, hmem, decide_eq_true hle⟩
  have hd : 3 ≤ s.dstate := by
    simp only [State.dieOn, Bool.and_eq_true, decide_eq_true_eq] at hon
    obtain ⟨-, hd⟩ := hon
    exact hd
  exact if_pos ⟨hd, hon, hany⟩

/-- VIN_CORE_LOSS while the die is supplied is a shutdown. -/
theorem exec_vinCoreLoss {s : State} (hr : s.power.resetLow = []) (hd : 3 ≤ s.dstate) :
    exec .vinCoreLoss s =
      .next ((s.modPower (fun x => { x with supplyOk := false })).shutdown Fld.LL_RST_CAUSE_VCORE) := by
  show execVinCoreLoss s = _
  have hd' : 3 ≤ (s.modPower (fun x => { x with supplyOk := false })).dstate := hd
  simp only [execVinCoreLoss, State.modPower, hr]
  exact if_pos hd'

/-! ### The start of Dark entry (R385, R393 step 1) -/

/-- Dark entry has begun at `u`: it drains. -/
def DarkBegun (s u : State) : Prop := u.mem = s.mem ∧ u.dstate = 5 ∧ u.power.dkStep = 1 ∧ u.power.dkAt = s.now

/-- A Lit or Banked device that nothing holds begins to drain. -/
theorem darkRequest_begun {s : State} (hd : s.dstate = 3 ∨ s.dstate = 4) (hh : s.holding = false) :
    DarkBegun s s.darkRequest := by
  let r := if s.dstate = 4 then s.railVolts false else s
  have hr : BusKept s r := by
    dsimp only [r]
    split
    · exact railSeq_bus s _
    · exact .refl s
  have hrun : s.darkRequest =
      (r.put Fld.LL_STS_DSTATE 5).modPower (fun x => { x with dkStep := 1, dkAt := r.now, dkWake := [] }) := by
    rw [State.darkRequest, if_neg (by omega), hh, if_neg (by decide)]
  rw [hrun]
  exact ⟨hr.mem, State.get_put_same r Fld.LL_STS_DSTATE 5 0 (by decide), rfl, congrArg Timebase.elapsed hr.tb⟩

/-- Safe Hold refuses it: the device stays as it is, with the cause. -/
theorem darkRequest_refused {s : State} (hd : s.dstate = 3 ∨ s.dstate = 4) (hh : s.holding = true) :
    s.darkRequest.mem = s.mem ∧ s.darkRequest.dstate = s.dstate ∧ s.darkRequest.get Fld.LL_STS_DKREF = 1 ∧
      s.darkRequest.get Fld.LL_EVT_CODE = 4 := by
  have hrun : s.darkRequest = (s.put Fld.LL_STS_DKREF 1).lampEvent 4 := by
    rw [State.darkRequest, if_neg (by omega), hh, if_pos rfl]
  rw [hrun, State.dstate, lampEvent_mem, lampEvent_get _ _ _ (by decide) (by decide),
    lampEvent_get _ _ _ (by decide) (by decide), lampEvent_code _ (by decide),
    State.get_put_apart _ _ _ _ _ _ (by decide) (by decide), State.get_put_same _ _ _ _ (by decide)]
  exact ⟨rfl, rfl, rfl, rfl⟩

/-- DEVICE_IDLE_TIMER after LL_DIDLE ms in Banked. -/
theorem deviceIdleTimer_begun {s : State} {t : Nat} (ht : s.power.bankedAt = some t) (hd : s.dstate = 4)
    (hh : s.holding = false) (hm : s.get Fld.LL_DIDLE_MS ≠ 0) (hn : t + 1000000 * s.get Fld.LL_DIDLE_MS ≤ s.now) :
    ∃ u, Acts .deviceIdleTimer s u ∧ DarkBegun s u := by
  refine ⟨s.darkRequest, ?_, darkRequest_begun (.inr hd) hh⟩
  show execDeviceIdleTimer s = _
  simp only [execDeviceIdleTimer, ht, device]
  exact if_pos ⟨hm, hd, hn⟩

/-- The state in which a write of LL_CMD acts: it stores nothing. -/
def atLampCmd (s : State) : State := s.setReg Reg.LL_CMD (s.reg Reg.LL_CMD)

theorem atLampCmd_get (s : State) (f : FieldRef) (off : Nat) : (atLampCmd s).get f off = s.get f off := by
  rw [State.get, atLampCmd, State.reg_setReg_self, State.get]

theorem atLampCmd_dstate (s : State) : (atLampCmd s).dstate = s.dstate := atLampCmd_get ..

theorem atLampCmd_holding (s : State) : (atLampCmd s).holding = s.holding := by
  simp only [State.holding, State.safeHold, State.flag, atLampCmd_get]
  rfl

/-- A write of LL_CMD stores nothing, and acts. -/
theorem performWrite_lampCmd {s : State} {rq : Requester} {d : RegDesc} {k b : Nat} (h : Serves s rq Reg.LL_CMD true d k b)
    (v : Word32) : s.performWrite rq Reg.LL_CMD v = ((atLampCmd s).afterLamp Reg.LL_CMD v).settleOn := by
  obtain rfl := reach_addr h.reach_eq (by decide)
  have hf := h.findReg
  have hr : Machine.findReg Reg.LL_CMD =
      some (⟨Reg.LL_CMD, [], [⟨0, 1, .wo, .live, 0⟩, ⟨1, 1, .wo, .live, 0⟩, ⟨2, 1, .wo, .live, 0⟩]⟩, 0) := by
    decide +kernel
  rw [hr] at hf
  obtain ⟨rfl, rfl⟩ := Prod.mk.inj (Option.some.inj hf)
  have hlo : pairLows.contains Reg.LL_CMD = false := by decide
  have hhi : isPairHi Reg.LL_CMD = false := by decide +kernel
  have hd : s.writeDiscarded Reg.LL_CMD Reg.LL_CMD = none :=
    writeDiscarded_none (blockRetired_low (by decide)) (by decide) (by decide)
  rw [h.write_plain v (by decide), writeReg_plain hd hlo hhi (by decide) (by decide), storeReg_unwritable (by simp)]
  rfl

/-- Outside Dark, WAKE and RETRY beside DARK do nothing. -/
theorem afterLamp_dark {s : State} {v : Word32} (hv : v.getLsbD 0 = true) (h : s.darkRequest.dstate ≠ 1) :
    s.afterLamp Reg.LL_CMD v = s.darkRequest := by
  have hwake : s.darkRequest.wakeCmd = s.darkRequest := if_neg h
  have hretry : s.darkRequest.retryCmd = s.darkRequest := if_neg (fun ⟨e, _⟩ => h e)
  simp only [State.afterLamp, hv, if_true, hwake, ite_self, hretry]

/-- LL_CMD.DARK is the request for Dark. -/
theorem exec_dark {s : State} {rq : Requester} {v : Word32} {d : RegDesc} {k b : Nat} (h : Serves s rq Reg.LL_CMD true d k b)
    (hd : (atLampCmd s).darkRequest.dstate ≠ 1) : exec (.dark rq v) s = .next (atLampCmd s).darkRequest.settleOn := by
  rw [exec_writeOf rfl, performWrite_lampCmd h, afterLamp_dark (by simp) hd]

theorem dark_begun {s : State} {rq : Requester} {v : Word32} {d : RegDesc} {k b : Nat} (h : Serves s rq Reg.LL_CMD true d k b)
    (hd : s.dstate = 3 ∨ s.dstate = 4) (hh : s.holding = false) :
    ∃ u : State, exec (.dark rq v) s = .next u.settleOn ∧ DarkBegun s u := by
  have hb := darkRequest_begun (s := atLampCmd s) (by rwa [atLampCmd_dstate]) ((atLampCmd_holding s).trans hh)
  obtain ⟨-, hdst, -⟩ := id hb
  exact ⟨_, exec_dark h (by omega), hb⟩

theorem dark_refused {s : State} {rq : Requester} {v : Word32} {d : RegDesc} {k b : Nat}
    (h : Serves s rq Reg.LL_CMD true d k b) (hd : s.dstate = 3 ∨ s.dstate = 4) (hh : s.holding = true) :
    ∃ u : State, exec (.dark rq v) s = .next u.settleOn ∧ u.mem = s.mem ∧ u.dstate = s.dstate ∧
      u.get Fld.LL_STS_DKREF = 1 ∧ u.get Fld.LL_EVT_CODE = 4 := by
  obtain ⟨hmem, hdst, hcause, hcode⟩ := darkRequest_refused (s := atLampCmd s) (by rwa [atLampCmd_dstate])
    ((atLampCmd_holding s).trans hh)
  rw [atLampCmd_dstate] at hdst
  exact ⟨_, exec_dark h (by omega), hmem, hdst, hcause, hcode⟩

/-! ### The drain and its end (R393 steps 2 to 4) -/

/-- Dark entry is given up at `u` for `cause`. -/
def GivenUp (s u : State) (cause : Nat) : Prop :=
  u.mem = s.mem ∧ u.dstate = (if s.allGated = true then 4 else 3) ∧ u.power.dkStep = 0 ∧
    u.get Fld.LL_STS_DKREF = cause ∧ u.get Fld.LL_EVT_CODE = 4

/-- The Bulk and Idle frames that remain are discarded, and the queues stop. -/
def drained (s : State) : State := (s.discardRest.hqs.map (·.1)).foldl (fun s q => s.stopQueue q false) s.discardRest

/-- Of the Lamplighter that changes only the counts of the frames dropped. -/
theorem drained_spec (s : State) : (drained s).now = s.now ∧
    (drained s).get Fld.LL_DKDROP_BULK =
      min (s.get Fld.LL_DKDROP_BULK + (s.porter.held.filter (fun h => h.cls == 2)).length) 65535 ∧
    (drained s).get Fld.LL_DKDROP_IDLE =
      min (s.get Fld.LL_DKDROP_IDLE + (s.porter.held.filter (fun h => h.cls == 3)).length) 65535 := by
  have hr := LampKept.foldl (fun _ q h => h.stopQueue q false) (s.discardRest.hqs.map (·.1)) _ (LampKept.discardRest s)
  rw [drained, hr.now, hr.get _ _ (by decide), hr.get _ _ (by decide)]
  refine ⟨rfl, ?_, ?_⟩
  · rw [State.bump, State.get_put_apart _ _ _ _ _ _ (by decide) (by decide), State.get_bump_same _ _ _ _ (by decide)]
    rfl
  · rw [State.get_bump_same _ _ _ _ (by decide), State.bump, State.get_put_apart _ _ _ _ _ _ (by decide) (by decide)]
    rfl

/-- With the messages complete the rest is counted and discarded, the queues stop, and L2 is waited for. -/
theorem drain_goesOn {s : State} (h : s.power.dkStep = 1) (hm : s.messagesDone = true) :
    ∃ u, Acts .drain s u ∧ u.power.dkStep = 2 ∧ u.power.dkAt = s.now ∧
      u.get Fld.LL_DKDROP_BULK = min (s.get Fld.LL_DKDROP_BULK + (s.porter.held.filter (fun h => h.cls == 2)).length) 65535 ∧
      u.get Fld.LL_DKDROP_IDLE = min (s.get Fld.LL_DKDROP_IDLE + (s.porter.held.filter (fun h => h.cls == 3)).length) 65535 := by
  have hspec := drained_spec s
  have hrun : exec .drain s =
      .next ((drained s).modPower (fun x => { x with dkStep := 2, dkAt := (drained s).now })).settle := by
    show execDrain s = _
    rw [execDrain, if_neg (by omega), if_pos hm]
    rfl
  generalize drained s = r at hspec hrun
  exact ⟨_, hrun, rfl, hspec⟩

theorem drain_givesUp {s : State} (h : s.power.dkStep = 1) (hm : s.messagesDone = false)
    (ht : s.power.dkAt + 1000000 * max 1 (s.get Fld.LL_DRAIN_MS) ≤ s.now) : ∃ u, Acts .drain s u ∧ GivenUp s u 2 := by
  refine ⟨s.abandonDark 2, ?_, abandonDark_spec s (by decide)⟩
  show execDrain s = _
  rw [execDrain, if_neg (by omega), hm, if_neg (by decide), if_pos ht, device]

theorem l2Timeout_givesUp {s : State} (h : s.power.dkStep = 2) (ht : s.power.dkAt + 1000000 ≤ s.now) :
    ∃ u, Acts .l2Timeout s u ∧ GivenUp s u 3 :=
  ⟨s.abandonDark 3, if_pos ⟨h, ht⟩, abandonDark_spec s (by decide)⟩

/-! ### The statement -/

theorem thermalShutdown_ends {s : State} (hon : s.dieOn = true) (hhot : ∃ kv ∈ s.power.hotAt, kv.2 + 100000 ≤ s.now) :
    (s.power.dkWake = [] → RailsStill s → TbSaved s → ∃ s', exec .thermalShutdown s = .next s' ∧ InDark s s' ∧
      s'.get Fld.LL_RST_CAUSE_THERM = 1 ∧ s'.faultLow = true) ∧
    (s.tb.coast = none → ∃ s', exec .thermalShutdown s = .next s' ∧ Closing s s' ∧
      s'.get Fld.LL_RST_CAUSE_THERM = 1 ∧ s'.faultLow = true) := by
  have hl : CauseBit Fld.LL_RST_CAUSE_THERM := ⟨rfl, rfl, by decide⟩
  have hrun := exec_thermalShutdown hon hhot
  constructor
  · intro hw hs ht
    obtain ⟨hdark, hcause, hfault, -⟩ := shutdown_inDark hl hw hs ht
    exact ⟨_, hrun, hdark, hcause, hfault⟩
  · intro hc
    have h3 : s.power.dkStep ≠ 3 := by
      rintro h
      simp [State.dieOn, h] at hon
    obtain ⟨hclosing, hcause, hfault, -⟩ := shutdown_closing hl h3 hc
    exact ⟨_, hrun, hclosing, hcause, hfault⟩

theorem vinCoreLoss_ends {s : State} (hr : s.power.resetLow = []) (hd : 3 ≤ s.dstate) :
    (s.power.dkWake = [] → RailsStill s → TbSaved s → ∃ s', exec .vinCoreLoss s = .next s' ∧ InDark s s' ∧
      s'.get Fld.LL_RST_CAUSE_VCORE = 1 ∧ s'.faultLow = true ∧ s'.power.supplyOk = false) ∧
    (s.power.dkStep ≠ 3 → s.tb.coast = none → ∃ s', exec .vinCoreLoss s = .next s' ∧ Closing s s' ∧
      s'.get Fld.LL_RST_CAUSE_VCORE = 1 ∧ s'.faultLow = true ∧ s'.power.supplyOk = false) := by
  have hl : CauseBit Fld.LL_RST_CAUSE_VCORE := ⟨rfl, rfl, by decide⟩
  have hrun := exec_vinCoreLoss hr hd
  constructor
  · intro hw hs ht
    obtain ⟨hdark, hshown⟩ := shutdown_inDark (s := s.modPower (fun x => { x with supplyOk := false })) hl hw hs ht
    exact ⟨_, hrun, hdark, hshown⟩
  · intro h3 hc
    obtain ⟨hclosing, hshown⟩ := shutdown_closing (s := s.modPower (fun x => { x with supplyOk := false })) hl h3 hc
    exact ⟨_, hrun, hclosing, hshown⟩

/-- Settles O51: the start of Dark entry, its drain, its abandonment and the three ways into the closing and Dark. -/
theorem darkEntries : Obligations.DarkEntries := by
  intro s
  exact ⟨fun _ _ _ _ _ h hd => ⟨dark_begun h hd, dark_refused h hd⟩,
    fun _ => deviceIdleTimer_begun,
    fun h => ⟨drain_goesOn h, drain_givesUp h⟩,
    l2Timeout_givesUp, darkEntered_inDark, darkEntered_closing, thermalShutdown_ends, vinCoreLoss_ends⟩

end Sys2Proof.Says

/-! PROOF. The queue; and the end of a word, Elastic or Metered, that changes its thread's registers alone. -/

namespace Sys2Proof.Machine

/-- The value listed last under a key stands. -/
theorem tblPut_tblPut {α : Type} (m : Tbl α) (n : Nat) (v w : α) : tblPut (tblPut m n v) n w = tblPut m n w := by
  induction m with
  | nil => simp [tblPut]
  | cons e r ih =>
    obtain ⟨k, x⟩ := e
    simp only [tblPut]
    split
    · simp [tblPut]
    · split
      · simp [tblPut]
      · simp only [tblPut, ih, if_neg ‹¬ n < k›, if_neg ‹¬ k = n›]

theorem State.setThr_setThr (s : State) (t : Nat) (x y : Thread) : (s.setThr t x).setThr t y = s.setThr t y := by
  rw [State.setThr, State.setThr, State.setThr, tblPut_tblPut]

theorem State.setG_thr_same (s : State) (t : Nat) (r : RegNo) (v : Word) : (s.setG t r v).thr t = (s.thr t).set r v :=
  State.thr_modThr_same ..

theorem State.setG_thr_other (s : State) {t u : Nat} (r : RegNo) (v : Word) (h : u ≠ t) : (s.setG t r v).thr u = s.thr u :=
  State.thr_modThr_other _ _ h

theorem Thread.set_st (th : Thread) (r : RegNo) (v : Word) : (th.set r v).st = th.st := by
  unfold Thread.set
  split <;> rfl

theorem Thread.set_held (th : Thread) (r : RegNo) (v : Word) : (th.set r v).held = th.held := by
  unfold Thread.set
  split <;> rfl

theorem Thread.set_vbase (th : Thread) (r : RegNo) (v : Word) : (th.set r v).vbase = th.vbase := by
  unfold Thread.set
  split <;> rfl

theorem Thread.set_wtmo (th : Thread) (r : RegNo) (v : Word) : (th.set r v).wtmo = th.wtmo := by
  unfold Thread.set
  split <;> rfl

/-- The end of a word counts beats in its core and changes nothing else. -/
theorem State.endWord_eq (s : State) (t n : Nat) : ∃ c, s.endWord t n = { s with cores := c } := by
  have h1 : ∃ c, s.addBeats t n = { s with cores := c } := by
    unfold State.addBeats
    split
    · exact ⟨_, rfl⟩
    · exact ⟨s.cores, rfl⟩
  obtain ⟨c, e⟩ := h1
  unfold State.endWord
  rw [e]
  dsimp only
  split
  · exact ⟨_, rfl⟩
  · exact ⟨c, rfl⟩

end Sys2Proof.Machine

namespace Sys2Proof.Says

open Sys2Proof.Machine

/-- Settles O1, by the definition of a step. -/
theorem stepRunsFrontCommand : Obligations.StepRunsFrontCommand := by
  intro s c rest h
  rw [step, h]

/-- A word's end overwrites its thread. -/
theorem worded_setThr (s : State) (t : Tid) (x th : Thread) : worded (s.setThr t.toNat x) t th = worded s t th := by
  rw [worded, State.setThr_setThr, worded]

theorem worded_setG (s : State) (t : Tid) (r : RegNo) (v : Word) (th : Thread) : worded (s.setG t.toNat r v) t th = worded s t th :=
  worded_setThr ..

/-- A word of an Elastic thread that writes one register and goes on. -/
theorem runWord_setG {s : State} {t : Tid} {rd : RegNo} {v : Word} {body : M Next} (i : Instr) (h : Ready s t) (he : Elastic s t)
    (hb : body s = .ok .seq (s.setG t.toNat rd v)) :
    runWord t i false body s = worded s t (after ((s.thr t.toNat).set rd v) ((s.thr t.toNat).pc + 4)) := by
  have hth := s.setG_thr_same t.toNat rd v
  rw [runWord_seq i h hb (by rw [hth, Thread.set_mode]; exact he) (by rw [hth, Thread.set_mip]; exact h.mip), hth, Thread.set_pc,
    worded_setG]

/-- A word that completes and leaves what a word computes with alone, but for registers of its thread: in either mode its end
leaves them so. -/
theorem runWord_quiet {s u : State} {t : Tid} {body : M Next} {th : Thread} (i : Instr) (h : Ready s t)
    (hb : body s = .ok .seq u) (hq : Quiet s u t) (hu : u.thr t.toNat = th) (hst : th.st = (s.thr t.toNat).st)
    (hheld : th.held = (s.thr t.toNat).held) (hvb : th.vbase = (s.thr t.toNat).vbase) (hw : th.wtmo = (s.thr t.toNat).wtmo) :
    Quiet s (runWord t i false body s) t ∧ Holds s (runWord t i false body s) t th (th.pc + 4) := by
  obtain ⟨hmem, hc, hu', hres, htb, hpend, hoth⟩ := hq
  rw [runWord_ok t i body s u .seq (h.issues i) hb]
  generalize (if (s.thr t.toNat).resume.isSome && !(s.thr t.toNat).mip then 0
    else beatsOf (s.thr t.toNat) (t.toNat / 4) i) = n
  obtain ⟨c, e⟩ := u.endWord_eq t.toNat n
  have hmip : ((u.endWord t.toNat n).thr t.toNat).mip = false := by
    rw [e]
    show (u.thr t.toNat).mip = false
    rw [hu, Thread.mip, hst]
    exact h.mip
  rw [State.finish_seq _ _ hmip]
  obtain ⟨a, ea⟩ := ((u.endWord t.toNat n).modThr t.toNat (fun th =>
    { th with pc := th.pc + 4, hostGot := [], resume := none, waiting := none, halfDone := false })).leaveArbs_eq t.toNat
  have k := (Steady.refl (((u.endWord t.toNat n).modThr t.toNat (fun th =>
    { th with pc := th.pc + 4, hostGot := [], resume := none, waiting := none, halfDone := false })).leaveArbs t.toNat)).accordScan
      t.toNat
  generalize hfin : State.accordScan _ _ = r at k ⊢
  have hthr : ∀ x, ∃ m c ts rs, r.thr x = { (if x = t.toNat then after th (th.pc + 4) else u.thr x) with
      mailbox := m, cur := c, tstate := ts, resume := rs } := by
    intro x
    obtain ⟨m, c, ts, rs, ex⟩ := k.thr x
    refine ⟨m, c, ts, rs, ex.trans ?_⟩
    rw [State.leaveArbs_thr]
    by_cases hx : x = t.toNat
    · subst hx
      rw [State.thr_modThr_same, if_pos rfl, e, ← hu]
      rfl
    · rw [State.thr_modThr_other _ _ hx, if_neg hx, e]
      rfl
  refine ⟨⟨?_, ?_, ?_, ?_, ?_, ?_, fun x hx => ?_⟩, ?_⟩
  · rw [k.mem, ea, ← hmem, e]; rfl
  · rw [k.eccC, ea, ← hc, e]; rfl
  · rw [k.eccU, ea, ← hu', e]; rfl
  · rw [k.resvs, ea, ← hres, e]; rfl
  · rw [k.tb, ea, ← htb, e]; rfl
  · rw [k.pending, ea, ← hpend, e]; rfl
  · obtain ⟨_, _, _, _, ex⟩ := hthr x
    rw [ex, if_neg hx]
    exact hoth x hx
  · obtain ⟨_, _, _, _, ex⟩ := hthr t.toNat
    rw [if_pos rfl] at ex
    rw [Holds, ex]
    exact ⟨rfl, rfl, hst, hheld, hvb, hw⟩

theorem Quiet.refl (s : State) (t : Tid) : Quiet s s t := ⟨rfl, rfl, rfl, rfl, rfl, rfl, fun _ _ => ⟨rfl, rfl, rfl, rfl, rfl⟩⟩

theorem Quiet.setG (s : State) (t : Tid) (r : RegNo) (v : Word) : Quiet s (s.setG t.toNat r v) t :=
  ⟨rfl, rfl, rfl, rfl, rfl, rfl, fun u hu => by rw [State.setG_thr_other _ _ _ hu]; exact ⟨rfl, rfl, rfl, rfl, rfl⟩⟩

end Sys2Proof.Says

/-! PROOF. Integer words (03 R72 to R74): each result of the model is the arithmetic that the rules give. -/

namespace Sys2Proof.Machine

/-! ### Shifts and rotations -/

theorem shiftLeft_eq_ofNat {w : Nat} (a : BitVec w) (n : Nat) : a <<< n = BitVec.ofNat w (a.toNat * 2 ^ n) := by
  apply BitVec.eq_of_toNat_eq
  rw [BitVec.toNat_shiftLeft, BitVec.toNat_ofNat, Nat.shiftLeft_eq]

theorem ushiftRight_eq_ofNat {w : Nat} (a : BitVec w) (n : Nat) : a >>> n = BitVec.ofNat w (a.toNat / 2 ^ n) := by
  apply BitVec.eq_of_toNat_eq
  rw [BitVec.toNat_ushiftRight, BitVec.toNat_ofNat, Nat.shiftRight_eq_div_pow, Nat.mod_eq_of_lt]
  exact Nat.lt_of_le_of_lt (Nat.div_le_self _ _) a.isLt

theorem sshiftRight_eq_ofInt {w : Nat} (a : BitVec w) (n : Nat) : a.sshiftRight n = BitVec.ofInt w (a.toInt / 2 ^ n) := by
  rw [BitVec.sshiftRight, Int.shiftRight_eq_div_pow]
  norm_cast

theorem rotateRight_eq_ofNat (a : Word) {n : Nat} (h : n < 64) :
    a.rotateRight n = BitVec.ofNat 64 (a.toNat / 2 ^ n + a.toNat * 2 ^ (64 - n)) := by
  have hand : a >>> n &&& a <<< (64 - n) = 0#64 := by
    ext i hi
    simp only [BitVec.getElem_and, BitVec.getElem_ushiftRight, BitVec.getElem_shiftLeft, BitVec.getElem_zero]
    by_cases h1 : i < 64 - n
    · simp [h1]
    · rw [BitVec.getLsbD_of_ge _ _ (by omega), Bool.false_and]
  rw [BitVec.rotateRight_def, Nat.mod_eq_of_lt h, BitVec.ofNat_add, ← ushiftRight_eq_ofNat, ← shiftLeft_eq_ofNat,
    BitVec.add_eq_or_of_and_eq_zero _ _ hand]

/-! ### Sums, comparisons, divisions -/

theorem ofInt_sub {w : Nat} (x y : Int) : BitVec.ofInt w (x - y) = BitVec.ofInt w x - BitVec.ofInt w y := by
  rw [Int.sub_eq_add_neg, BitVec.ofInt_add, BitVec.ofInt_neg, BitVec.sub_eq_add_neg]

/-- The low 32 bits of a signed doubleword. -/
theorem ofInt_toInt_low (a : Word) : BitVec.ofInt 32 a.toInt = a.setWidth 32 := by
  apply BitVec.eq_of_toInt_eq
  rw [BitVec.toInt_ofInt, BitVec.toInt_setWidth, BitVec.toInt_eq_toNat_bmod]
  exact Int.bmod_bmod_of_dvd (by decide)

/-- The low 32 bits of an integer's low 64 bits. -/
theorem setWidth_ofInt (v : Int) : (BitVec.ofInt 64 v).setWidth 32 = BitVec.ofInt 32 v := by
  rw [← ofInt_toInt_low]
  apply BitVec.eq_of_toInt_eq
  rw [BitVec.toInt_ofInt, BitVec.toInt_ofInt, BitVec.toInt_ofInt]
  exact Int.bmod_bmod_of_dvd (by decide)

theorem ofInt_imm {w n : Nat} (imm : BitVec n) : BitVec.ofInt w imm.toInt = imm.signExtend w := rfl

theorem minS_eq (a b : Word) : minS a b = BitVec.ofInt 64 (min a.toInt b.toInt) := by
  unfold minS
  rw [BitVec.slt]
  by_cases h : a.toInt < b.toInt
  · simp [h, min_eq_left h.le]
  · simp [h, min_eq_right (not_lt.mp h)]

theorem maxS_eq (a b : Word) : maxS a b = BitVec.ofInt 64 (max a.toInt b.toInt) := by
  unfold maxS
  rw [BitVec.slt]
  by_cases h : a.toInt < b.toInt
  · simp [h, max_eq_right h.le]
  · simp [h, max_eq_left (not_lt.mp h)]

theorem minU_eq (a b : Word) : minU a b = BitVec.ofNat 64 (min a.toNat b.toNat) := by
  unfold minU
  rw [BitVec.ult]
  by_cases h : a.toNat < b.toNat
  · simp [h, min_eq_left h.le]
  · simp [h, min_eq_right (not_lt.mp h)]

theorem maxU_eq (a b : Word) : maxU a b = BitVec.ofNat 64 (max a.toNat b.toNat) := by
  unfold maxU
  rw [BitVec.ult]
  by_cases h : a.toNat < b.toNat
  · simp [h, max_eq_right h.le]
  · simp [h, max_eq_left (not_lt.mp h)]

/-! ### Bits and bytes -/

theorem clzNat_eq (a : Word) : clzNat a = Says.leadingZeros a := by
  unfold clzNat Says.leadingZeros
  split
  · rename_i h
    subst h
    rfl
  · rename_i h
    have h0 : a.toNat ≠ 0 := fun e => h (BitVec.eq_of_toNat_eq e)
    have hl : a.toNat.log2 < 64 := (Nat.log2_lt h0).mpr a.isLt
    have hf : (List.range 64).find? (fun i => a.getLsbD (63 - i)) = some (63 - a.toNat.log2) := by
      rw [List.find?_range_eq_some]
      refine ⟨?_, List.mem_range.mpr (by omega), fun j hj => ?_⟩
      · rw [show 63 - (63 - a.toNat.log2) = a.toNat.log2 by omega, BitVec.getLsbD, Nat.testBit_log2 h0]
      · rw [BitVec.getLsbD, Nat.testBit_lt_two_pow]
        · rfl
        · exact lt_of_lt_of_le Nat.lt_log2_self (Nat.pow_le_pow_right (by decide) (by omega))
    rw [hf]
    rfl

theorem popNat_eq (a : Word) : popNat a = Says.setBits a := by
  unfold popNat Says.setBits
  rw [← List.countP_eq_length_filter]
  induction List.range 64 with
  | nil => rfl
  | cons x r ih => rw [List.countP_cons, ih, List.map_cons, List.sum_cons, add_comm]

theorem toNat_append_byte {m : Nat} (x : BitVec m) (y : Byte) : (x ++ y).toNat = y.toNat + 256 * x.toNat := by
  rw [BitVec.toNat_append, Nat.shiftLeft_eq, Nat.mul_comm, ← Nat.two_pow_add_eq_or_of_lt y.isLt, Nat.add_comm]

theorem ofNat_div_eq_extract (a : Word) (k : Nat) : BitVec.ofNat 8 (a.toNat / 2 ^ k) = a.extractLsb' k 8 := by
  rw [BitVec.extractLsb', Nat.shiftRight_eq_div_pow]

theorem bswapW_eq (a : Word) : bswapW a = Says.reversed a := by
  have h : leNat (beBytes 8 a.toNat) = (Says.reversed a).toNat := by
    simp only [beBytes, leBytes, Nat.div_div_eq_div_mul, List.reverse_cons, List.reverse_nil, List.nil_append, List.cons_append,
      Nat.reduceMul, leNat, Says.reversed, toNat_append_byte, ← ofNat_div_eq_extract, Nat.reducePow, Nat.mul_zero, Nat.add_zero,
      Nat.div_one]
  rw [bswapW, h, BitVec.ofNat_toNat, BitVec.setWidth_eq]

/-! ### Words of 32 bits -/

theorem low32_eq (v : Int) : Says.low32 v = sextW (BitVec.ofInt 32 v) := rfl

theorem sextW_add (a b : Word) : sextW (a.setWidth 32 + b.setWidth 32) = Says.low32 (a.toInt + b.toInt) := by
  rw [low32_eq, BitVec.ofInt_add, ofInt_toInt_low, ofInt_toInt_low]

theorem sextW_sub (a b : Word) : sextW (a.setWidth 32 - b.setWidth 32) = Says.low32 (a.toInt - b.toInt) := by
  rw [low32_eq, ofInt_sub, ofInt_toInt_low, ofInt_toInt_low]

theorem sextW_mul (a b : Word) : sextW (a.setWidth 32 * b.setWidth 32) = Says.low32 (a.toInt * b.toInt) := by
  rw [low32_eq, BitVec.ofInt_mul, ofInt_toInt_low, ofInt_toInt_low]

/-- The shift count of a 32-bit shift: the low 5 bits of rb. -/
theorem toNat_low_mod (b : Word) : (b.setWidth 32).toNat % 32 = b.toNat % 32 := by
  rw [BitVec.toNat_setWidth, Nat.mod_mod_of_dvd _ (by decide)]

theorem sextW_shl (a : Word) (n : Nat) : sextW (a.setWidth 32 <<< n) = Says.low32 (a.toInt * 2 ^ n) := by
  have h2 : BitVec.ofInt 32 (2 ^ n) = BitVec.ofNat 32 (2 ^ n) := by exact_mod_cast BitVec.ofInt_natCast 32 (2 ^ n)
  rw [low32_eq, BitVec.ofInt_mul, ofInt_toInt_low, h2, shiftLeft_eq_ofNat, BitVec.ofNat_mul, BitVec.ofNat_toNat,
    BitVec.setWidth_eq]

theorem sextW_shr (a : Word) (n : Nat) : sextW (a.setWidth 32 >>> n) = Says.low32 ((a.toNat % 2 ^ 32 / 2 ^ n : Nat) : Int) := by
  rw [low32_eq, BitVec.ofInt_natCast, ushiftRight_eq_ofNat, BitVec.toNat_setWidth]

theorem sextW_sar (a : Word) (n : Nat) : sextW ((a.setWidth 32).sshiftRight n) = Says.low32 ((a.setWidth 32).toInt / 2 ^ n) := by
  rw [low32_eq, sshiftRight_eq_ofInt]

/-! ### Immediates -/

theorem toInt_simm (imm : BitVec 14) : (simm imm).toInt = imm.toInt := BitVec.toInt_signExtend_of_le (by decide)

theorem zimm_eq (imm : BitVec 14) : zimm imm = BitVec.ofNat 64 imm.toNat := (BitVec.ofNat_toNat ..).symm

theorem add_simm (a : Word) (imm : BitVec 14) : a + simm imm = BitVec.ofInt 64 (a.toInt + imm.toInt) := by
  rw [BitVec.ofInt_add, BitVec.ofInt_toInt, ofInt_imm, simm]

theorem mul_simm (a : Word) (imm : BitVec 14) : a * simm imm = BitVec.ofInt 64 (a.toInt * imm.toInt) := by
  rw [BitVec.ofInt_mul, BitVec.ofInt_toInt, ofInt_imm, simm]

theorem sextW_addi (a : Word) (imm : BitVec 14) : sextW ((a + simm imm).setWidth 32) = Says.low32 (a.toInt + imm.toInt) := by
  rw [low32_eq, add_simm, setWidth_ofInt]

/-- ORH: a 16-bit immediate in one of the word's four halfwords. -/
theorem setWidth_shiftLeft_half (imm : BitVec 16) (n : Nat) : imm.setWidth 64 <<< n = BitVec.ofNat 64 (imm.toNat * 2 ^ n) := by
  rw [shiftLeft_eq_ofNat, BitVec.toNat_setWidth_of_le (by decide)]

/-- ADDPC: words from the PC. -/
theorem pc_add_words (pc : Word32) (imm : BitVec 19) :
    pc.setWidth 64 + imm.signExtend 64 * 4 = BitVec.ofInt 64 (pc.toNat + imm.toInt * 4) := by
  rw [BitVec.ofInt_add, BitVec.ofInt_mul, BitVec.ofInt_natCast, ofInt_imm, BitVec.ofNat_toNat]
  rfl

end Sys2Proof.Machine

namespace Sys2Proof.Says

open Sys2Proof.Machine

/-- The body of an integer word that completes with `v` in rd. -/
def Writes (s : State) (i : Instr) (t : Tid) (rd : RegNo) (v : Word) : Prop :=
  ∃ f : Thread → Word, exec i s = .next (runWord t i false (setRd t rd f) s) ∧ f (s.thr t.toNat) = v

/-- An integer word but NOP writes its result to rd. -/
theorem exec_writes {s : State} {i : Instr} {t : Tid} {rd : RegNo} {v : Word}
    (h : intResult (fun t => s.thr t.toNat) i = some (t, rd, v)) (hn : i ≠ .nop t) : Writes s i t rd v := by
  unfold intResult at h
  split at h <;> cases h
  case h_53 => exact absurd rfl hn
  all_goals refine ⟨_, rfl, ?_⟩
  case h_3 | h_4 | h_5 | h_6 | h_34 | h_35 | h_50 => rfl
  case h_39 | h_40 | h_41 => rw [zimm_eq]
  case h_1 | h_17 => simp [BitVec.ofNat_add, BitVec.ofNat_mul]
  case h_2 => simp [ofInt_sub]
  case h_7 | h_42 => exact shiftLeft_eq_ofNat _ _
  case h_8 | h_43 => exact ushiftRight_eq_ofNat _ _
  case h_9 | h_44 => exact sshiftRight_eq_ofInt _ _
  case h_10 => exact rotateRight_eq_ofNat _ (Nat.mod_lt _ (by decide))
  case h_45 n => exact rotateRight_eq_ofNat _ n.isLt
  case h_11 | h_12 | h_18 | h_19 | h_20 | h_21 | h_22 | h_23 | h_31 | h_47 => rfl
  case h_46 imm => exact congrArg (fun x => boolWord (decide (_ < x))) (toInt_simm imm)
  case h_13 => exact minS_eq _ _
  case h_14 => exact maxS_eq _ _
  case h_15 => exact minU_eq _ _
  case h_16 => exact maxU_eq _ _
  case h_24 => exact sextW_add _ _
  case h_25 => exact sextW_sub _ _
  case h_26 => exact (congrArg (fun n => sextW (_ <<< n)) (toNat_low_mod _)).trans (sextW_shl _ _)
  case h_27 => exact (congrArg (fun n => sextW (_ >>> n)) (toNat_low_mod _)).trans (sextW_shr _ _)
  case h_28 => exact (congrArg (fun n => sextW (BitVec.sshiftRight _ n)) (toNat_low_mod _)).trans (sextW_sar _ _)
  case h_29 => exact sextW_mul _ _
  case h_30 => exact congrArg _ (clzNat_eq _)
  case h_32 => exact congrArg _ (popNat_eq _)
  case h_33 => exact bswapW_eq _
  case h_36 | h_37 => exact BitVec.eq_of_toNat_eq (by simp)
  case h_38 => exact add_simm _ _
  case h_48 => exact mul_simm _ _
  case h_49 => exact sextW_addi _ _
  case h_51 => exact congrArg (_ ||| ·) (setWidth_shiftLeft_half _ _)
  case h_52 => exact pc_add_words _ _

/-- The result of NOP is a 0 for g0. -/
theorem intResult_nop {thr : Tid → Thread} {t u : Tid} {rd : RegNo} {v : Word} (h : intResult thr (.nop u) = some (t, rd, v)) :
    u = t ∧ rd = 0 ∧ v = 0 := by
  cases h
  exact ⟨rfl, rfl, rfl⟩

theorem integerWordsElastic : IntegerWordsElastic := by
  intro s i t rd v h hr he
  by_cases hn : i = .nop t
  · subst hn
    obtain ⟨-, rfl, rfl⟩ := intResult_nop h
    exact congrArg Host.Outcome.next (runWord_seq_same _ hr he rfl rfl)
  · obtain ⟨f, hx, rfl⟩ := exec_writes h hn
    exact hx.trans (congrArg Host.Outcome.next (runWord_setG i hr he rfl))

theorem integerWordsBothModes : IntegerWordsBothModes := by
  intro s i t rd v h hr
  by_cases hn : i = .nop t
  · subst hn
    obtain ⟨-, rfl, rfl⟩ := intResult_nop h
    exact ⟨_, rfl, runWord_quiet _ hr rfl (Quiet.refl s t) rfl rfl rfl rfl rfl⟩
  · obtain ⟨f, hx, rfl⟩ := exec_writes h hn
    have hq := runWord_quiet (body := setRd t rd f) i hr rfl (Quiet.setG s t rd (f (s.thr t.toNat))) (s.setG_thr_same ..) (Thread.set_st ..)
      (Thread.set_held ..) (Thread.set_vbase ..) (Thread.set_wtmo ..)
    rw [Thread.set_pc] at hq
    exact ⟨_, hx, hq⟩

/-- Settles O8: each word's body writes its result, and the end of a word changes nothing that a word computes with. -/
theorem integerWords : Obligations.IntegerWords := ⟨integerWordsElastic, integerWordsBothModes⟩

end Sys2Proof.Says

/-! PROOF. Waiting and fences (03 R85 to R87, 05 R167). -/

namespace Sys2Proof.Machine

/-- A thread in WAIT since `now`. -/
def Thread.waitFrom (th : Thread) (now : Nat) (timed : Bool) : Thread :=
  { th with spin := none, tstate := .wait, waitAt := some (now, timed) }

/-- A waiting word that no interrupt stops: its thread waits, and the device looks at what it can offer. -/
theorem waitBody_waits {s : State} {t : Tid} (timed : Bool)
    (h : (s.modThr t.toNat (fun th => { th with spin := none })).bestOffer t.toNat = none) :
    ∃ c u, waitBody t timed s = .ok .seq u ∧
      Calm { s.setThr t.toNat ((s.thr t.toNat).waitFrom s.now timed) with cores := c } u := by
  obtain ⟨c, e⟩ := Says.lbDrop_eq (s.setThr t.toNat ((s.thr t.toNat).waitFrom s.now timed)) t.toNat
  have hw : (s.modThr t.toNat (fun th => { th with spin := none })).modThr t.toNat (fun th =>
      { th with tstate := .wait, waitAt := some (s.now, timed) }) = s.setThr t.toNat ((s.thr t.toNat).waitFrom s.now timed) := by
    rw [State.modThr, State.thr_modThr_same, State.modThr, State.setThr_setThr]
    rfl
  refine ⟨c, _, ?_, (Calm.refl _).crierScan⟩
  rw [← e, ← hw]
  simp only [waitBody, h, Option.isSome_none, Bool.false_eq_true, if_false]
  rfl

theorem State.lbClear_eq (s : State) (c : Nat) : ∃ k, s.lbClear c = { s with cores := k } := by
  unfold State.lbClear
  split
  · exact ⟨_, rfl⟩
  · exact ⟨s.cores, rfl⟩

theorem State.lbClear_lb (s : State) (c : Nat) : ((s.lbClear c).core c).lb = none := by
  unfold State.lbClear
  split
  · exact congrArg Core.lb (State.core_setCore_same ..)
  · assumption

@[simp] theorem State.cacheOf_setCaches_same (s : State) (c : Nat) (x : Caches) : (s.setCaches c x).cacheOf c = x := by
  rw [State.cacheOf, State.setCaches, tblGet_tblPut_same]
  rfl

/-- The core's instruction cache holds no line. -/
def State.dropLines (s : State) (c : Nat) : State :=
  if (s.cacheOf c).ilines.isEmpty then s else s.setCaches c { s.cacheOf c with ilines := [] }

/-- The thread's fetch queue holds no word. -/
def State.dropFetched (s : State) (t : Nat) : State :=
  if (s.thr t).fetchQ.isEmpty then s else s.modThr t (fun th => { th with fetchQ := [] })

theorem State.dropLines_eq (s : State) (c : Nat) : ∃ k, s.dropLines c = { s with caches := k } := by
  unfold State.dropLines
  split
  · exact ⟨s.caches, rfl⟩
  · exact ⟨_, rfl⟩

theorem State.dropLines_ilines (s : State) (c : Nat) : ((s.dropLines c).cacheOf c).ilines = [] := by
  unfold State.dropLines
  split
  · exact List.isEmpty_iff.mp ‹_›
  · rw [State.cacheOf_setCaches_same]

theorem State.dropFetched_eq (s : State) (t : Nat) : ∃ th, s.dropFetched t = { s with threads := th } := by
  unfold State.dropFetched
  split
  · exact ⟨s.threads, rfl⟩
  · exact ⟨_, rfl⟩

theorem State.dropFetched_thr (s : State) (t : Nat) : (s.dropFetched t).thr t = { s.thr t with fetchQ := [] } := by
  unfold State.dropFetched
  split
  · rw [← List.isEmpty_iff.mp ‹_›]
  · exact State.thr_modThr_same ..

theorem ifenceBody_eq (t : Tid) (s : State) :
    ifenceBody t s = .ok .seq (((s.dropLines (t.toNat / 4)).dropFetched t.toNat).lbClear (t.toNat / 4)) := rfl

end Sys2Proof.Machine

namespace Sys2Proof.Says

open Sys2Proof.Machine

theorem Quiet.calm {s u v : State} {t : Tid} (h : Quiet s u t) (k : Calm u v) : Quiet s v t := by
  obtain ⟨hmem, hc, hu, hres, htb, hpend, hoth⟩ := h
  refine ⟨k.mem.trans hmem, k.eccC.trans hc, k.eccU.trans hu, k.resvs.trans hres, k.tb.trans htb, k.pending.trans hpend,
    fun x hx => ?_⟩
  obtain ⟨m, e⟩ := k.thr x
  rw [e]
  exact hoth x hx

theorem Quiet.worded {s u : State} {t : Tid} (h : Quiet s u t) (th : Thread) : Quiet s (worded u t th) t := by
  obtain ⟨hmem, hc, hu, hres, htb, hpend, hoth⟩ := h
  obtain ⟨a, e⟩ := worded_eq u t th
  refine ⟨by rw [e]; exact hmem, by rw [e]; exact hc, by rw [e]; exact hu, by rw [e]; exact hres, by rw [e]; exact htb,
    by rw [e]; exact hpend, fun x hx => ?_⟩
  rw [worded_thr_other _ _ _ hx]
  exact hoth x hx

theorem waitsWithoutInterrupt : WaitsWithoutInterrupt := by
  intro s t hr he hno timed i hi
  have hx : exec i s = .next (runWord t i true (waitBody t timed) s) := by
    obtain ⟨rfl, rfl⟩ | ⟨rfl, rfl⟩ := hi <;> rfl
  obtain ⟨c, u, hb, k⟩ := waitBody_waits timed hno
  have hq : Quiet s { s.setThr t.toNat ((s.thr t.toNat).waitFrom s.now timed) with cores := c } t :=
    ⟨rfl, rfl, rfl, rfl, rfl, rfl, fun x hx => by
      rw [show State.thr { s.setThr t.toNat ((s.thr t.toNat).waitFrom s.now timed) with cores := c } x = s.thr x from
        State.thr_setThr_other _ _ hx]
      exact ⟨rfl, rfl, rfl, rfl, rfl⟩⟩
  obtain ⟨m, hu⟩ := k.thr t.toNat
  have hth : u.thr t.toNat = { (s.thr t.toNat).waitFrom s.now timed with mailbox := m } := by
    rw [hu, show State.thr { s.setThr t.toNat ((s.thr t.toNat).waitFrom s.now timed) with cores := c } t.toNat = _ from
      State.thr_setThr_same ..]
  have hmode : (u.thr t.toNat).mode = false := by rw [hth]; exact he
  have hmip : (u.thr t.toNat).mip = false := by rw [hth]; exact hr.mip
  have hw : runWord t i true (waitBody t timed) s = worded u t (after (u.thr t.toNat) ((u.thr t.toNat).pc + 4)) := by
    rw [runWord_forbidden_elastic t i _ s u .seq (hr.issues i) he hb hmode, State.finish_seq _ _ hmip]
    rfl
  rw [hw] at hx
  refine ⟨_, hx, (hq.calm k).worded _, ?_, ?_⟩
  · rw [Holds, worded_thr, hth]
    exact ⟨rfl, rfl, rfl, rfl, rfl, rfl⟩
  · rw [worded_thr, hth]
    exact ⟨rfl, rfl, rfl⟩

/-- FENCE with every SEND read. -/
theorem fence_completes {s : State} {t : Tid} (hr : Ready s t) (he : Elastic s t) (h : s.sendsPending t.toNat = false) :
    exec (.fence t) s = .next (worded s t (after (s.thr t.toNat) ((s.thr t.toNat).pc + 4))) := by
  have hb : fenceBody t s = .ok .seq s := by simp [fenceBody, h]
  exact congrArg Host.Outcome.next (runWord_seq_same _ hr he hb rfl)

/-- A word that stalls leaves the machine as it is. -/
theorem runWord_stall {s : State} {t : Tid} {body : M Next} (i : Instr) (hr : Ready s t)
    (hb : body s = .error (.wait .turn) s) : runWord t i false body s = s :=
  runWord_wait t i body s s .turn (hr.issues i) hb

theorem fence_waits {s : State} {t : Tid} (hr : Ready s t) (h : s.sendsPending t.toNat = true) :
    exec (.fence t) s = .next s := by
  have hb : fenceBody t s = .error (.wait .turn) s := by rw [fenceBody, if_pos h]; rfl
  exact congrArg Host.Outcome.next (runWord_stall _ hr hb)

theorem ifence_clears {s : State} {t : Tid} (hr : Ready s t) (he : Elastic s t) :
    ∃ s', exec (.ifence t) s = .next s' ∧ s'.mem = s.mem ∧ s'.regs = s.regs ∧ (s'.core (t.toNat / 4)).lb = none ∧
      (s'.cacheOf (t.toNat / 4)).ilines = [] ∧
      s'.thr t.toNat = after { s.thr t.toNat with fetchQ := [] } ((s.thr t.toNat).pc + 4) := by
  obtain ⟨k, ek⟩ := s.dropLines_eq (t.toNat / 4)
  obtain ⟨ths, eth⟩ := (s.dropLines (t.toNat / 4)).dropFetched_eq t.toNat
  obtain ⟨c, ec⟩ := ((s.dropLines (t.toNat / 4)).dropFetched t.toNat).lbClear_eq (t.toNat / 4)
  have hlb := ((s.dropLines (t.toNat / 4)).dropFetched t.toNat).lbClear_lb (t.toNat / 4)
  have hil := s.dropLines_ilines (t.toNat / 4)
  have hthr := (s.dropLines (t.toNat / 4)).dropFetched_thr t.toNat
  have hb := ifenceBody_eq t s
  generalize ((s.dropLines (t.toNat / 4)).dropFetched t.toNat).lbClear (t.toNat / 4) = u at *
  have hu : u.thr t.toNat = { s.thr t.toNat with fetchQ := [] } := by
    rw [ec]
    refine hthr.trans ?_
    rw [ek]
    rfl
  have hw := runWord_seq (.ifence t) hr hb (by rw [hu]; exact he) (by rw [hu]; exact hr.mip)
  obtain ⟨a, ea⟩ := worded_eq u t (after (u.thr t.toNat) ((u.thr t.toNat).pc + 4))
  refine ⟨_, congrArg Host.Outcome.next hw, ?_, ?_, ?_, ?_, ?_⟩
  · rw [worded_mem, ec, eth, ek]
  · rw [worded_regs, ec, eth, ek]
  · rw [ea]; exact hlb
  · rw [ea, ec, eth]; exact hil
  · rw [worded_thr, hu]

theorem fencesOrder : FencesOrder := fun _ _ hr he => ⟨fence_completes hr he, fence_waits hr, ifence_clears hr he⟩

/-- Settles O18: the waiting words change their thread's state and what the device does of itself; FENCE runs through or stalls. -/
theorem waitsAndFences : Obligations.WaitsAndFences := ⟨waitsWithoutInterrupt, fencesOrder⟩

end Sys2Proof.Says

/-! PROOF. Accesses of an Elastic thread to bytes of its own data SRAM; returning from a handler (03 R89, 04 R133). -/

namespace Sys2Proof.Machine

/-- No protected word of the memories holds an error mark. -/
def State.Sound (s : State) : Prop := s.eccC = [] ∧ s.eccU = []

theorem State.Sound.store {s : State} (h : s.Sound) (who : Option Nat) (a : Nat) (bs : List Byte) : (s.store who a bs).Sound :=
  s.store_ecc who a bs h.1 h.2

theorem dsram_region {a n : Nat} (h : a + n ≤ 0x8000) (hn : 0 < n) : ∀ i, i < n → dRegion (a + i) = dRegion a := fun i hi => by
  rw [dRegion_dsram (by omega), dRegion_dsram (by omega)]

/-- Without an error mark bytes are read where they lie. -/
theorem readAt_die {s : State} {t : Nat} (a n p : Nat) (hm : (s.thr t).mode = false) (h : s.Sound) :
    readAt t a n (.die p) s = .ok (s.bytes p n) s := by
  simp [readAt, State.badRead, State.correct, State.corrIn, h.1, h.2, hm]

/-- The own data SRAM is not cached. -/
theorem loadAt_dsram {s : State} {t a : Nat} (n p : Nat) (ha : a < 0x8000) (hm : (s.thr t).mode = false) (h : s.Sound) :
    loadAt t a n (.die p) s = .ok (s.bytes p n) s := by
  have hc : s.dCached t a = false := by
    simp [State.dCached, clusterOf, dRegion_dsram ha]
  simp only [loadAt, hc, Bool.false_eq_true, if_false, readAt_die a n p hm h]

theorem loadBytes_dsram {s : State} {t a n : Nat} (ha : a + n ≤ 0x8000) (hn : 0 < n) (hm : (s.thr t).mode = false) (h : s.Sound) :
    loadBytes t a n s = .ok (s.bytes (dsramBase (t / 4) + a) n) s := by
  have hr : dRegion a = .dsram := dRegion_dsram (by omega)
  unfold loadBytes
  rw [firstHalf_whole (dsram_region ha hn), if_pos rfl]
  simp only [bind, EStateM.bind, Says.place_dsram n false false s hr, loadAt_dsram n _ (show a < 0x8000 by omega) hm h]

theorem loadNat_dsram {s : State} {t a n : Nat} (ha : a + n ≤ 0x8000) (hn : 0 < n) (hm : (s.thr t).mode = false) (h : s.Sound) :
    loadNat t a n s = .ok (leNat (s.bytes (dsramBase (t / 4) + a) n)) s := by
  simp only [loadNat, bind, EStateM.bind, loadBytes_dsram ha hn hm h]
  rfl

theorem writeHalf_dsram {s : State} {t a : Nat} {bs : List Byte} (ha : a < 0x8000) (hm : (s.thr t).mode = false) (h : s.Sound) :
    writeHalf t a bs s = .ok () (s.store (some t) (dsramBase (t / 4) + a) bs) := by
  simp only [writeHalf, bind, EStateM.bind, Says.place_dsram bs.length true false s (dRegion_dsram ha),
    writeAt_die hm h.1 h.2]

theorem storeSplit_dsram {s : State} {t a : Nat} {bs : List Byte} (own : Bool) (ha : a + bs.length ≤ 0x8000) (hn : 0 < bs.length)
    (hm : (s.thr t).mode = false) (h : s.Sound) :
    storeSplit t a bs own s = .ok () (s.store (some t) (dsramBase (t / 4) + a) bs) := by
  have hw : storeSplit t a bs own = writeHalf t a bs := by
    unfold storeSplit
    rw [firstHalf_whole (dsram_region ha hn)]
    exact if_pos rfl
  rw [hw, writeHalf_dsram (show a < 0x8000 by omega) hm h]

/-! ### A transfer of control -/

/-- The candidates whose loop a transfer leaves are forgotten. -/
def State.lbForget (s : State) (t : Nat) (tgt : Word32) : State :=
  if (s.thr t).lbCand.isEmpty then s
  else s.modThr t (fun th => { th with lbCand := th.lbCand.filter (fun c => inLoop c.2 c.1 tgt) })

/-- The owner that leaves the loop gives up the buffer. -/
def State.lbLeave (s : State) (t : Nat) (tgt : Word32) : State :=
  match (s.core (t / 4)).lb with
  | some l => if l.owner == t % 4 && !inLoop l.first l.last tgt then s.lbDrop t else s
  | none => s

theorem State.lbTransfer_steps (s : State) (t : Nat) (tgt : Word32) : s.lbTransfer t tgt = (s.lbForget t tgt).lbLeave t tgt := rfl

theorem State.lbForget_eq (s : State) (t : Nat) (tgt : Word32) :
    (∃ ths, s.lbForget t tgt = { s with threads := ths }) ∧ ∃ l, (s.lbForget t tgt).thr t = { s.thr t with lbCand := l } := by
  unfold State.lbForget
  split
  · exact ⟨⟨s.threads, rfl⟩, (s.thr t).lbCand, rfl⟩
  · exact ⟨⟨_, rfl⟩, _, State.thr_modThr_same ..⟩

theorem State.lbLeave_eq (s : State) (t : Nat) (tgt : Word32) : ∃ c, s.lbLeave t tgt = { s with cores := c } := by
  unfold State.lbLeave
  split
  · split
    · exact Says.lbDrop_eq s t
    · exact ⟨s.cores, rfl⟩
  · exact ⟨s.cores, rfl⟩

/-- A transfer of control touches the loop buffer and the thread's candidates alone. -/
theorem State.lbTransfer_eq (s : State) (t : Nat) (tgt : Word32) :
    (∃ ths c, s.lbTransfer t tgt = { s with threads := ths, cores := c }) ∧
    ∃ l, (s.lbTransfer t tgt).thr t = { s.thr t with lbCand := l } := by
  obtain ⟨⟨ths, e⟩, l, el⟩ := s.lbForget_eq t tgt
  obtain ⟨c, ec⟩ := (s.lbForget t tgt).lbLeave_eq t tgt
  rw [State.lbTransfer_steps, ec]
  exact ⟨⟨ths, c, by rw [e]⟩, l, el⟩

end Sys2Proof.Machine

namespace Sys2Proof.Says

open Sys2Proof.Machine

theorem Clean.sound {s : State} (h : Clean s) : s.Sound := ⟨h.1, h.2.1⟩

/-- A word of an Elastic thread that jumps. -/
theorem runWord_jump {s u : State} {t : Tid} {body : M Next} {pc : Word32} (i : Instr) (h : Ready s t)
    (hb : body s = .ok (.jump pc) u) (hm : (u.thr t.toNat).mode = false) (hp : (u.thr t.toNat).mip = false) :
    runWord t i false body s = worded u t { (u.thr t.toNat).drop with pc := pc, resume := none } := by
  rw [runWord_elastic t i body s u _ (h.issues i) hb hm, State.finish_jump _ _ _ hp]
  rfl

end Sys2Proof.Says

namespace Sys2Proof.Machine

/-! ### ERET -/

/-- A thread as ERET leaves it but for its PC, from the 56 bytes of the frame behind the first word. -/
def Thread.eret (th : Thread) (bs : List Byte) : Thread :=
  let g (i : Nat) : Word := BitVec.ofNat 64 (leNat (slice bs i 8))
  { (((((((th.set 31 (g 8)).set 1 (g 16)).set 2 (g 24)).set 3 (g 32)).set 4 (g 40)).set 5 (g 48)).set 30 (th.sp + 64)) with
    st := eretSt th (BitVec.ofNat 32 (leNat (bs.take 4))) }

theorem standOffer_calm (t : Nat) (s u : State) : Calm u (standOffer t s u) := by
  unfold standOffer
  split
  · split
    · exact .ite _ (Calm.refl u) ((Calm.refl u).modCrier _)
    · exact Calm.refl u
  · exact Calm.refl u

/-- ERET from a frame in the own data SRAM in which no micro-routine was interrupted. -/
theorem eretBody_dsram {s : State} {t : Tid} {f : Nat} {b1 b2 : List Byte} (hm : (s.thr t.toNat).mode = false) (hs : s.Sound)
    (hp : (s.thr t.toNat).priv = true) (hf : (s.thr t.toNat).sp.toNat = f) (h64 : f + 64 ≤ 0x8000)
    (h1 : s.bytes (dsramBase (t.toNat / 4) + f) 8 = b1) (h2 : s.bytes (dsramBase (t.toNat / 4) + (f + 8)) 56 = b2)
    (hmip : bitsGet (BitVec.ofNat 32 (leNat (b2.take 4))) 8 1 = 0) :
    ∃ u, eretBody t s = .ok (.jump (BitVec.ofNat 32 (leNat (b1.take 4)))) u ∧
      Calm ((s.setThr t.toNat ((s.thr t.toNat).eret b2)).lbTransfer t.toNat (BitVec.ofNat 32 (leNat (b1.take 4)))) u := by
  have l1 := loadBytes_dsram (a := f) (n := 8) (by omega) (by decide) hm hs
  have l2 := loadBytes_dsram (a := f + 8) (n := 56) (by omega) (by decide) hm hs
  rw [h1] at l1
  rw [h2] at l2
  have hmod : (f + 8) % 2 ^ 64 = f + 8 := Nat.mod_eq_of_lt (by omega)
  have hb : ((0 : Nat) == 1) = false := rfl
  simp only [eretBody, look, bind, EStateM.bind, eretRead, hf, hmod, l1, l2, hp, Bool.not_true, Bool.false_and,
    Bool.false_eq_true, if_false, hmip, hb]
  by_cases hil : bitsGet (BitVec.ofNat 32 (leNat (b2.take 4))) 4 4 = (s.thr t.toNat).il
  · rw [if_pos hil]
    exact ⟨_, rfl, Calm.refl _⟩
  · rw [if_neg hil]
    exact ⟨_, rfl, (standOffer_calm ..).crierScan⟩

end Sys2Proof.Machine

namespace Sys2Proof.Machine

/-- A field of one bit. -/
theorem bitsGet_one (w : Word32) (lo : Nat) : bitsGet w lo 1 = (w.getLsbD lo).toNat := by
  rw [bitsGet, pow_one, BitVec.getLsbD, Nat.toNat_testBit]

theorem State.bytes_slice (s : State) {a n i k : Nat} (h : i + k ≤ n) : slice (s.bytes a n) i k = s.bytes (a + i) k := by
  have hn : s.bytes a n = s.bytes a i ++ (s.bytes (a + i) k ++ s.bytes (a + i + k) (n - i - k)) := by
    rw [← State.bytes_append, ← State.bytes_append]
    congr 1
    omega
  rw [slice, hn, List.drop_left' (State.bytes_length ..), List.take_left' (State.bytes_length ..)]

theorem State.bytes_take (s : State) {a n k : Nat} (h : k ≤ n) : (s.bytes a n).take k = s.bytes a k := by
  have e := s.bytes_slice (a := a) (i := 0) (show 0 + k ≤ n by omega)
  rwa [slice, List.drop_zero] at e

end Sys2Proof.Machine

namespace Sys2Proof.Says

open Sys2Proof.Machine

/-- Settles O20: the frame's 64 bytes are read from the own data SRAM, and the thread jumps. -/
theorem returnFromHandler : Obligations.ReturnFromHandler := by
  intro s t hr he hc hp th f word st hf hmip
  have h2 : s.bytes (dsramBase (t.toNat / 4) + (th.sp.toNat + 8)) 56 = s.bytes (f + 8) 56 := by rw [← Nat.add_assoc]
  obtain ⟨u, hb, k⟩ := eretBody_dsram he hc.sound hp rfl hf rfl h2 (by rw [State.bytes_take _ (by decide)]; exact hmip)
  rw [State.bytes_take _ (by decide)] at hb k
  obtain ⟨⟨ths, c, e⟩, l, el⟩ := (s.setThr t.toNat (th.eret (s.bytes (f + 8) 56))).lbTransfer_eq t.toNat
    (BitVec.ofNat 32 (leNat (s.bytes f 4)))
  obtain ⟨m, em⟩ := k.thr t.toNat
  have hu : u.thr t.toNat = { th.eret (s.bytes (f + 8) 56) with lbCand := l, mailbox := m } := by
    refine em.trans ?_
    rw [show (State.lbTransfer _ _ _).thr t.toNat = _ from el, State.thr_setThr_same]
  have hst : (th.eret (s.bytes (f + 8) 56)).st = bitsSet (st &&& 0x00FFF1FF#32) 0 1 0 := by
    have hmode : th.mode = false := he
    simp only [Thread.eret, eretSt, show th.priv = true from hp, if_true, hmode, State.bytes_take _ (show 4 ≤ 56 by decide)]
    rfl
  have hbit : bitsGet (st &&& 0x00FFF1FF#32) 8 1 = 0 := by
    rw [bitsGet_one] at hmip ⊢
    rw [BitVec.getLsbD_and, Bool.toNat_eq_zero.mp hmip]
    rfl
  have hum : (u.thr t.toNat).mode = false := by
    rw [hu, Thread.mode, hst, bitsGet_bitsSet _ _ (by decide)]
    rfl
  have hup : (u.thr t.toNat).mip = false := by
    rw [hu, Thread.mip, hst, bitsGet_bitsSet_above _ _ (by decide) (by decide), hbit]
    rfl
  refine ⟨_, congrArg Host.Outcome.next (runWord_jump _ hr hb hum hup), ?_, ?_, ?_, ?_⟩
  · rw [worded_mem, k.mem, e]
    rfl
  · rw [worded_thr]
  · rw [worded_thr, hu]
    show (th.eret _).regs = _
    simp only [Thread.eret, State.bytes_slice _ (show 8 + 8 ≤ 56 by decide), State.bytes_slice _ (show 16 + 8 ≤ 56 by decide),
      State.bytes_slice _ (show 24 + 8 ≤ 56 by decide), State.bytes_slice _ (show 32 + 8 ≤ 56 by decide),
      State.bytes_slice _ (show 40 + 8 ≤ 56 by decide), State.bytes_slice _ (show 48 + 8 ≤ 56 by decide), Nat.add_assoc,
      Nat.reduceAdd, word, Nat.reduceMul]
  · rw [worded_thr, hu]
    exact hst

end Sys2Proof.Says

/-! PROOF. CALLM and RETM with every step in one command (03 R78 to R80). -/

namespace Sys2Proof.Machine

/-- What words stored in a row make of memory depends on memory alone. -/
theorem State.storeWords_mem_congr (vs : List Nat) : ∀ {s u : State} (t p : Nat), u.mem = s.mem →
    (u.storeWords t p vs).mem = (s.storeWords t p vs).mem := by
  induction vs with
  | nil => exact fun _ _ h => h
  | cons v vs ih => exact fun t p h => ih t (p + 8) (by rw [State.store_mem, State.store_mem, h])

/-- An address a few words above another, in the own data SRAM. -/
theorem toNat_add_small {a : Word} {f k : Nat} (ha : a.toNat = f) (h : f + k ≤ 0x8000) : (a + BitVec.ofNat 64 k).toNat = f + k := by
  rw [BitVec.toNat_add, BitVec.toNat_ofNat, ha]
  omega

/-- The registers of a mask are g14 to g29, in ascending order. -/
theorem mem_maskRegs {mask : BitVec 16} {r : RegNo} (h : r ∈ maskRegs mask) : r ≠ 0 ∧ r ≠ 30 ∧ r ≠ 31 := by
  simp only [maskRegs, List.mem_map, List.mem_filter, List.mem_range] at h
  obtain ⟨i, ⟨hi, -⟩, rfl⟩ := h
  refine ⟨?_, ?_, ?_⟩ <;>
  · intro e
    have := congrArg BitVec.toNat e
    simp at this
    omega

theorem maskRegs_nodup (mask : BitVec 16) : (maskRegs mask).Nodup := by
  refine List.Nodup.map_on ?_ (List.nodup_range.filter _)
  intro i hi j hj e
  have hi := List.mem_range.mp (List.mem_filter.mp hi).1
  have hj := List.mem_range.mp (List.mem_filter.mp hj).1
  have := congrArg BitVec.toNat e
  simp at this
  omega

/-- The state with step `k` of the thread's micro-routine in progress. -/
def State.markStep (s : State) (t k : Nat) : State := s.modThr t (fun th => { th with resume := some k })

theorem atStep_eq (t k : Nat) (s : State) : atStep t k s = .ok () (s.markStep t k) := rfl

theorem State.markStep_thr (s : State) (t k : Nat) : (s.markStep t k).thr t = { s.thr t with resume := some k } :=
  State.thr_modThr_same ..

/-- CALLM's stores from one step on, all of them in the own data SRAM. -/
theorem callSteps_dsram {all : List Word} {t f : Nat} (vs : List Word) : ∀ {s : State} {k fuel : Nat},
    (∀ j, all[k + j]? = vs[j]?) → vs.length ≤ fuel → (s.thr t).mode = false → s.Sound → (s.thr t).sp.toNat = f →
    f + 8 * k + 8 * vs.length ≤ 0x8000 →
    ∃ u r, callSteps t all fuel (k + 1) s = .ok (k + 1 + vs.length) u ∧ u.thr t = { s.thr t with resume := r } ∧
      u.mem = (s.storeWords t (dsramBase (t / 4) + (f + 8 * k)) (vs.map BitVec.toNat)).mem := by
  induction vs with
  | nil =>
    intro s k fuel hall _ _ _ _ _
    have h0 : all[k]? = none := hall 0
    refine ⟨s, (s.thr t).resume, ?_, rfl, rfl⟩
    cases fuel with
    | zero => rfl
    | succ m => simp only [callSteps, Nat.add_sub_cancel, h0]; rfl
  | cons v vs ih =>
    intro s k fuel hall hfuel hm hs hsp hf
    rw [List.length_cons] at hfuel hf
    obtain ⟨m, rfl⟩ : ∃ m, fuel = m + 1 := ⟨fuel - 1, by omega⟩
    have h0 : all[k]? = some v := hall 0
    have hlen := leBytes_length 8 v.toNat
    have haddr : ((s.thr t).sp + BitVec.ofNat 64 (8 * k)).toNat = f + 8 * k := toNat_add_small hsp (by omega)
    have hth := s.markStep_thr t (k + 1)
    have hst := storeSplit_dsram (s := s.markStep t (k + 1)) (a := f + 8 * k) (bs := leBytes 8 v.toNat) true (by omega) (by omega)
      (by rw [hth]; exact hm) hs
    have hs' : ((s.markStep t (k + 1)).store (some t) (dsramBase (t / 4) + (f + 8 * k)) (leBytes 8 v.toNat)).Sound :=
      State.Sound.store (s := s.markStep t (k + 1)) hs ..
    have hth' : ((s.markStep t (k + 1)).store (some t) (dsramBase (t / 4) + (f + 8 * k)) (leBytes 8 v.toNat)).thr t =
        { s.thr t with resume := some (k + 1) } := by rw [State.store_thr, hth]
    obtain ⟨u, r, hu, hthr, hmem⟩ := ih (k := k + 1) (fuel := m)
      (fun j => by rw [show k + 1 + j = k + (j + 1) by omega, hall]; rfl) (by omega) (by rw [hth']; exact hm) hs'
      (by rw [hth']; exact hsp) (by omega)
    refine ⟨u, r, ?_, ?_, ?_⟩
    · simp only [callSteps, Nat.add_sub_cancel, h0, atStep_eq, look, bind, EStateM.bind, hth]
      rw [show Thread.sp { s.thr t with resume := some (k + 1) } = (s.thr t).sp from rfl, haddr, hst]
      rw [List.length_cons, show k + 1 + (vs.length + 1) = k + 1 + 1 + vs.length by omega]
      exact hu
    · rw [hthr, hth']
    · rw [hmem, List.map_cons, State.storeWords,
        show dsramBase (t / 4) + (f + 8 * (k + 1)) = dsramBase (t / 4) + (f + 8 * k) + 8 by omega]
      have hmem' : ((s.markStep t (k + 1)).store (some t) (dsramBase (t / 4) + (f + 8 * k)) (leBytes 8 v.toNat)).mem =
          (s.store (some t) (dsramBase (t / 4) + (f + 8 * k)) (leBytes 8 v.toNat)).mem := by
        rw [State.store_mem, State.store_mem]
        rfl
      exact State.storeWords_mem_congr _ _ _ hmem'

/-- Elastic stores need no room in a buffer. -/
theorem roomFor_elastic {s : State} {t : Nat} (ws : List (Nat × List Byte)) (hm : (s.thr t).mode = false) :
    roomFor t ws s = .ok () s := by
  simp only [roomFor, hm, Bool.false_and, Bool.false_eq_true, if_false]

/-- The registers of a thread as CALLM leaves them: sp at the frame, lk the following word. -/
def Thread.called (th : Thread) (n : Nat) : Thread :=
  (th.set 30 (th.sp - BitVec.ofNat 64 (16 + 8 * n))).set 31 ((th.pc + 4).setWidth 64)

/-- What CALLM stores does not depend on sp. -/
theorem callStores_set_sp (th : Thread) (mask : BitVec 16) (v : Word) : callStores (th.set 30 v) mask = callStores th mask := by
  rw [callStores, callStores, Thread.lk, Thread.get_set_other _ _ (by decide)]
  refine congrArg (fun l => _ :: _ :: l) (List.map_congr_left fun r hr => ?_)
  exact Thread.get_set_other _ _ (mem_maskRegs hr).2.1

theorem callStores_length (th : Thread) (mask : BitVec 16) : (callStores th mask).length = (maskRegs mask).length + 2 := by
  rw [callStores, List.length_cons, List.length_cons, List.length_map]

theorem Thread.set_resume (th : Thread) (k : Option Nat) (r : RegNo) (v : Word) :
    Thread.set { th with resume := k } r v = { th.set r v with resume := k } := by
  unfold Thread.set
  split <;> rfl

/-- CALLM's target is ra as it was, sp included. -/
theorem callTarget_set_sp (th : Thread) (ra : RegNo) (n : Nat) (r : Option Nat) :
    callTarget { th.set 30 (th.sp - BitVec.ofNat 64 (16 + 8 * n)) with resume := r } ra n = (th.get ra).setWidth 32 := by
  unfold callTarget
  split
  · rename_i h
    subst h
    show (((th.set 30 (th.sp - BitVec.ofNat 64 (16 + 8 * n))).get 30) + _).setWidth 32 = _
    rw [Thread.get_set_same _ _ (by decide), BitVec.sub_add_cancel]
    rfl
  · exact congrArg (BitVec.setWidth 32) (Thread.get_set_other _ _ ‹_›)

/-- A check that only looks, before the rest of a body. -/
theorem ite_check {α : Type} {c : Prop} [Decidable c] {m : M PUnit} {k : M α} {s : State} (h : m s = .ok ⟨⟩ s) :
    (if c then EStateM.bind m (fun _ => k) else k) s = k s := by
  split
  · simp only [EStateM.bind, h]
  · rfl

/-- CALLM with every step in one command, its frame in the own data SRAM. -/
theorem callBody_dsram {s : State} {t : Tid} {ra : RegNo} {mask : BitVec 16} {steps f n : Nat}
    (hm : (s.thr t.toNat).mode = false) (hs : s.Sound) (h0 : (s.thr t.toNat).resume = none) (hn : (maskRegs mask).length = n)
    (hf : ((s.thr t.toNat).sp - BitVec.ofNat 64 (16 + 8 * n)).toNat = f)
    (hsteps : n + 4 ≤ s.stepsNow t.toNat steps) (hlow : f + (16 + 8 * n) ≤ 0x8000)
    (htgt : (((s.thr t.toNat).get ra).setWidth 32 : Word32).toNat % 4 = 0) :
    ∃ u r l, callBody t ra mask steps s = .ok (.jump (((s.thr t.toNat).get ra).setWidth 32)) u ∧
      u.mem = (s.storeWords t.toNat (dsramBase (t.toNat / 4) + f) ((callStores (s.thr t.toNat) mask).map BitVec.toNat)).mem ∧
      u.thr t.toNat = { (s.thr t.toNat).called n with resume := r, lbCand := l } := by
  have hlen := callStores_length (s.thr t.toNat) mask
  have hth1 := s.setG_thr_same t.toNat 30 ((s.thr t.toNat).sp - BitVec.ofNat 64 (16 + 8 * n))
  have hsp : ((s.setG t.toNat 30 ((s.thr t.toNat).sp - BitVec.ofNat 64 (16 + 8 * n))).thr t.toNat).sp.toNat = f := by
    rw [hth1, Thread.sp, Thread.get_set_same _ _ (by decide)]
    exact hf
  obtain ⟨u, r, hu, hthr, hmem⟩ := callSteps_dsram (t := t.toNat) (callStores (s.thr t.toNat) mask)
    (s := s.setG t.toNat 30 ((s.thr t.toNat).sp - BitVec.ofNat 64 (16 + 8 * n))) (k := 0)
    (fuel := s.stepsNow t.toNat steps - 1) (all := callStores (s.thr t.toNat) mask) (fun j => by rw [Nat.zero_add]) (by omega)
    (by rw [hth1, Thread.set_mode]; exact hm) hs hsp (by omega)
  rw [hth1] at hthr
  rw [show 0 + 1 + (callStores (s.thr t.toNat) mask).length = n + 3 by omega] at hu
  obtain ⟨⟨ths, c, e⟩, l, el⟩ := (u.setG t.toNat 31 (((s.thr t.toNat).pc + 4).setWidth 64)).lbTransfer_eq t.toNat
    (((s.thr t.toNat).get ra).setWidth 32)
  refine ⟨(u.setG t.toNat 31 (((s.thr t.toNat).pc + 4).setWidth 64)).lbTransfer t.toNat (((s.thr t.toNat).get ra).setWidth 32),
    r, l, ?_, ?_, ?_⟩
  · have hpc : (u.thr t.toNat).pc = (s.thr t.toNat).pc := by rw [hthr]; exact Thread.set_pc ..
    have htg : callTarget (u.thr t.toNat) ra n = ((s.thr t.toNat).get ra).setWidth 32 := by
      rw [hthr]
      exact callTarget_set_sp ..
    have hk : n + 3 = n + 3 ∧ n + 3 < 0 + 1 + (s.stepsNow t.toNat steps - 1) := by omega
    simp only [callBody, look, bind, EStateM.bind, hn, h0, Option.getD_none, if_true, htgt, ne_eq, not_true_eq_false,
      if_false]
    rw [ite_check (roomFor_elastic _ hm)]
    simp only [EStateM.bind, change, look, hth1, callStores_set_sp]
    rw [show max 1 0 = 0 + 1 from rfl, hu]
    dsimp only
    rw [if_pos hk]
    simp only [EStateM.bind, look, change, hpc, htg]
    rfl
  · rw [e]
    refine hmem.trans ?_
    exact State.storeWords_mem_congr _ _ _ rfl
  · rw [el, State.setG_thr_same, hthr, Thread.set_resume, Thread.called]

end Sys2Proof.Machine

namespace Sys2Proof.Machine

/-- Where the cluster's copy is not hooked, a micro-routine's word runs its own rules. -/
theorem microOr_unhooked {s : State} {t : Tid} (r : Nat) (i : Instr) (ra : RegNo) (rank : BitVec 4) (steps : Nat) (body : M Next)
    (h : s.hooked (t.toNat / 32) = false) : microOr t r i ra rank steps body s = body s := by
  simp only [microOr, h, Bool.false_eq_true, if_false]

/-! ### RETM -/

/-- A thread with the registers of a list set in order to the values `v k`, `v (k + 1)` and so on. -/
def Thread.restored (th : Thread) (v : Nat → Word) : Nat → List RegNo → Thread
  | _, [] => th
  | k, r :: rs => (th.set r (v k)).restored v (k + 1) rs

theorem Thread.restored_get_other (v : Nat → Word) {r : RegNo} (rs : List RegNo) : ∀ (th : Thread) (k : Nat), r ∉ rs →
    (th.restored v k rs).get r = th.get r := by
  induction rs with
  | nil => exact fun _ _ _ => rfl
  | cons x rs ih =>
    intro th k h
    obtain ⟨hx, hr⟩ : r ≠ x ∧ r ∉ rs := by simpa using h
    rw [Thread.restored, ih _ _ hr, Thread.get_set_other _ _ hx]

theorem Thread.restored_get (v : Nat → Word) {r : RegNo} (rs : List RegNo) : ∀ (th : Thread) (k j : Nat), rs.Nodup → r ≠ 0 →
    rs[j]? = some r → (th.restored v k rs).get r = v (k + j) := by
  induction rs with
  | nil => exact fun _ _ j _ _ h => by simp at h
  | cons x rs ih =>
    intro th k j hd h0 hj
    obtain ⟨hx, hd⟩ := List.nodup_cons.mp hd
    cases j with
    | zero =>
      obtain rfl : x = r := by simpa using hj
      rw [Thread.restored, Thread.restored_get_other v rs _ _ hx, Thread.get_set_same _ _ h0, Nat.add_zero]
    | succ j =>
      rw [Thread.restored, ih _ _ j hd h0 (by simpa using hj)]
      congr 1
      omega

/-- Restoring registers changes nothing but the registers. -/
theorem Thread.restored_eq (v : Nat → Word) (rs : List RegNo) : ∀ (th : Thread) (k : Nat), ∃ g, th.restored v k rs = { th with regs := g } := by
  induction rs with
  | nil => exact fun th _ => ⟨th.regs, rfl⟩
  | cons r rs ih =>
    intro th k
    obtain ⟨g, e⟩ := ih (th.set r (v k)) (k + 1)
    refine ⟨g, ?_⟩
    rw [Thread.restored, e]
    unfold Thread.set
    split <;> rfl

theorem Thread.restored_resume (v : Nat → Word) (x : Option Nat) (rs : List RegNo) : ∀ (th : Thread) (k : Nat),
    Thread.restored { th with resume := x } v k rs = { th.restored v k rs with resume := x } := by
  induction rs with
  | nil => exact fun _ _ => rfl
  | cons r rs ih =>
    intro th k
    rw [Thread.restored, Thread.set_resume, ih, Thread.restored]

/-- The word that RETM's step `k` loads, of a frame at `p`. -/
def State.frameWord (s : State) (p k : Nat) : Word := BitVec.ofNat 64 (leNat (s.bytes (p + 16 + 8 * k) 8))

theorem State.frameWord_congr {s u : State} (h : u.mem = s.mem) : u.frameWord = s.frameWord := by
  funext p k
  rw [State.frameWord, State.bytes_congr h, State.frameWord]

/-- The step that RETM marks before it loads: none before its first. -/
def State.markRet (s : State) (t k : Nat) : State := if k = 0 then s else s.markStep t k

theorem markRet_thr (s : State) (t k : Nat) : ∃ r, (s.markRet t k).thr t = { s.thr t with resume := r } := by
  unfold State.markRet
  split
  · exact ⟨(s.thr t).resume, rfl⟩
  · exact ⟨_, State.markStep_thr ..⟩

theorem markRet_eq (s : State) (t k : Nat) : ∃ ths, s.markRet t k = { s with threads := ths } := by
  unfold State.markRet
  split
  · exact ⟨s.threads, rfl⟩
  · exact ⟨_, rfl⟩

theorem markRet_bind {α : Type} (t k : Nat) (m : M α) (s : State) :
    (if k ≠ 0 then EStateM.bind (atStep t k) (fun _ => m) else m) s = m (s.markRet t k) := by
  unfold State.markRet
  by_cases h : k = 0
  · simp only [h, ne_eq, not_true_eq_false, if_false, if_true]
  · simp only [h, ne_eq, not_false_eq_true, if_true, if_false]
    rfl

/-- RETM's loads from one step on, all of them from the own data SRAM. -/
theorem retSteps_dsram {all : List RegNo} {t f : Nat} (rs : List RegNo) : ∀ {s : State} {k fuel : Nat},
    (∀ j, all[k + j]? = rs[j]?) → rs.length ≤ fuel → (s.thr t).mode = false → s.Sound → (s.thr t).sp.toNat = f →
    (30 : RegNo) ∉ rs → f + 16 + 8 * k + 8 * rs.length ≤ 0x8000 →
    ∃ u r, retSteps t all fuel k s = .ok (k + rs.length) u ∧ (∃ ths, u = { s with threads := ths }) ∧
      u.thr t = { (s.thr t).restored (s.frameWord (dsramBase (t / 4) + f)) k rs with resume := r } := by
  induction rs with
  | nil =>
    intro s k fuel hall _ _ _ _ _ _
    have h0 : all[k]? = none := hall 0
    refine ⟨s, (s.thr t).resume, ?_, ⟨s.threads, rfl⟩, rfl⟩
    cases fuel with
    | zero => rfl
    | succ m => simp only [retSteps, h0]; rfl
  | cons x rs ih =>
    intro s k fuel hall hfuel hm hs hsp h30 hf
    rw [List.length_cons] at hfuel hf
    obtain ⟨h30x, h30r⟩ : (30 : RegNo) ≠ x ∧ (30 : RegNo) ∉ rs := List.ne_and_not_mem_of_not_mem_cons h30
    obtain ⟨m, rfl⟩ : ∃ m, fuel = m + 1 := ⟨fuel - 1, by omega⟩
    have h0 : all[k]? = some x := hall 0
    have haddr : ((s.thr t).sp + BitVec.ofNat 64 (16 + 8 * k)).toNat = f + (16 + 8 * k) := toNat_add_small hsp (by omega)
    obtain ⟨r0, hth⟩ := markRet_thr s t k
    obtain ⟨ths0, hs0⟩ := markRet_eq s t k
    have hm0 : ((s.markRet t k).thr t).mode = false := by rw [hth]; exact hm
    have hsp0 : ((s.markRet t k).thr t).sp = (s.thr t).sp := by rw [hth]; rfl
    have hs' : (s.markRet t k).Sound := by rw [hs0]; exact hs
    have hload := loadNat_dsram (s := s.markRet t k) (a := f + (16 + 8 * k)) (n := 8) (by omega) (by decide) hm0 hs'
    have hv : BitVec.ofNat 64 (leNat ((s.markRet t k).bytes (dsramBase (t / 4) + (f + (16 + 8 * k))) 8)) =
        s.frameWord (dsramBase (t / 4) + f) k := by
      rw [State.bytes_congr (show (s.markRet t k).mem = s.mem by rw [hs0]), State.frameWord]
      simp only [Nat.add_assoc]
    have hth1 : ((s.markRet t k).setG t x (s.frameWord (dsramBase (t / 4) + f) k)).thr t =
        { (s.thr t).set x (s.frameWord (dsramBase (t / 4) + f) k) with resume := r0 } := by
      rw [State.setG_thr_same, hth, Thread.set_resume]
    obtain ⟨u, r, hu, ⟨ths, hths⟩, hthr⟩ := ih (s := (s.markRet t k).setG t x (s.frameWord (dsramBase (t / 4) + f) k)) (k := k + 1)
      (fuel := m) (fun j => by rw [show k + 1 + j = k + (j + 1) by omega, hall]; rfl) (by omega)
      (by rw [hth1]; exact (Thread.set_mode ..).trans hm) hs'
      (by rw [hth1]; exact (congrArg BitVec.toNat (Thread.get_set_other _ _ h30x)).trans hsp) h30r (by omega)
    refine ⟨u, r, ?_, ⟨ths, by rw [hths, hs0]; rfl⟩, ?_⟩
    · simp only [retSteps, h0, bind, markRet_bind]
      simp only [EStateM.bind, look, change, hsp0, haddr, hload, hv, hu, List.length_cons]
      congr 1
      omega
    · rw [hthr, hth1, Thread.restored_resume, Thread.restored]
      rw [State.frameWord_congr (s := s) (u := (s.markRet t k).setG t x _) (by rw [hs0]; rfl)]

end Sys2Proof.Machine

namespace Sys2Proof.Says

open Sys2Proof.Machine

theorem callWithMask : CallWithMask := by
  intro s t ra mask steps hr he hc hk th rs f p hsteps hlow htgt
  have hal : ((th.get ra).setWidth 32 : Word32).toNat % 4 = 0 := by rw [BitVec.toNat_setWidth]; exact htgt
  obtain ⟨u, r, l, hb, hmem, hthr⟩ := callBody_dsram (ra := ra) he hc.sound hr.2.1 (hn := rfl) (hf := rfl) hsteps hlow hal
  rw [← microOr_unhooked 0 (.callm t ra mask steps) ra 0 steps (callBody t ra mask steps) hk] at hb
  change u.mem = (s.storeWords t.toNat p ((callStores th mask).map BitVec.toNat)).mem at hmem
  have hthm : (u.thr t.toNat).mode = false := by
    rw [hthr]
    exact (Thread.set_mode ..).trans ((Thread.set_mode ..).trans he)
  have hthp : (u.thr t.toNat).mip = false := by
    rw [hthr]
    exact (Thread.set_mip ..).trans ((Thread.set_mip ..).trans hr.mip)
  have hlen : 8 * ((callStores th mask).map BitVec.toNat).length = 16 + 8 * rs.length := by
    rw [List.length_map, callStores_length]
    exact Nat.mul_add_one 8 (rs.length + 1) |>.trans (by omega)
  refine ⟨_, congrArg Host.Outcome.next (runWord_jump _ hr hb hthm hthp), fun hcan => ?_, fun x hx => ?_, ?_, ?_, ?_⟩
  · rw [State.bytes_congr ((worded_mem ..).trans hmem), ← hlen, State.storeWords_bytes _ _ _ _ hcan]
    simp only [callStores, List.map_cons, List.flatMap_cons, List.map_map, List.flatMap_map, List.append_assoc,
      BitVec.toNat_setWidth_of_le (show 16 ≤ 64 by decide)]
    rfl
  · rw [State.byte, worded_mem, hmem, ← State.byte]
    exact State.storeWords_outside _ _ _ _ _ (by rw [hlen]; exact hx)
  · rw [worded_thr, hthr, BitVec.ofNat_toNat]
    rfl
  · rw [worded_thr]
  · rw [worded_thr]

end Sys2Proof.Says

namespace Sys2Proof.Machine

/-- The registers of a thread as RETM's last step leaves them. -/
def Thread.returned (th : Thread) (lk sp : Word) : Thread := (th.set 31 lk).set 30 sp

theorem Thread.restored_sp (th : Thread) (v : Nat → Word) (mask : BitVec 16) (r : Option Nat) :
    Thread.sp { th.restored v 0 (maskRegs mask) with resume := r } = th.sp :=
  Thread.restored_get_other v _ _ _ (fun h => (mem_maskRegs h).2.1 rfl)

theorem Thread.restored_lk (th : Thread) (v : Nat → Word) (mask : BitVec 16) (r : Option Nat) :
    Thread.lk { th.restored v 0 (maskRegs mask) with resume := r } = th.lk :=
  Thread.restored_get_other v _ _ _ (fun h => (mem_maskRegs h).2.2 rfl)

/-- RETM with every step in one command, its frame in the own data SRAM. -/
theorem retBody_dsram {s : State} {t : Tid} {mask : BitVec 16} {steps f n : Nat} (hm : (s.thr t.toNat).mode = false) (hs : s.Sound)
    (h0 : (s.thr t.toNat).resume = none) (hn : (maskRegs mask).length = n) (hf : (s.thr t.toNat).sp.toNat = f)
    (hsteps : n + 1 ≤ s.stepsNow t.toNat steps) (hlow : f + (16 + 8 * n) ≤ 0x8000) :
    ∃ u r l, retBody t mask steps s = .ok (.jump ((s.thr t.toNat).lk.setWidth 32)) u ∧ u.mem = s.mem ∧
      u.thr t.toNat = { ((s.thr t.toNat).restored (s.frameWord (dsramBase (t.toNat / 4) + f)) 0 (maskRegs mask)).returned
        (BitVec.ofNat 64 (leNat (s.bytes (dsramBase (t.toNat / 4) + (f + 8)) 8)))
        ((s.thr t.toNat).sp + BitVec.ofNat 64 (16 + 8 * n)) with resume := r, lbCand := l } := by
  obtain ⟨u, r, hu, ⟨ths, hths⟩, hthr⟩ := retSteps_dsram (t := t.toNat) (maskRegs mask) (s := s) (k := 0)
    (fuel := s.stepsNow t.toNat steps) (all := maskRegs mask) (fun j => by rw [Nat.zero_add]) (by omega) hm hs hf
    (fun h => (mem_maskRegs h).2.1 rfl) (by omega)
  rw [hn, Nat.zero_add] at hu
  obtain ⟨r1, hth1⟩ := markRet_thr u t.toNat n
  obtain ⟨ths1, hs1⟩ := markRet_eq u t.toNat n
  have hm1 : ((u.markRet t.toNat n).thr t.toNat).mode = false := by
    obtain ⟨g, e⟩ := (s.thr t.toNat).restored_eq (s.frameWord (dsramBase (t.toNat / 4) + f)) (maskRegs mask) 0
    rw [hth1, hthr, e]
    exact hm
  have hsp1 : ((u.markRet t.toNat n).thr t.toNat).sp = (s.thr t.toNat).sp := by
    rw [hth1, hthr]
    exact Thread.restored_sp ..
  have hlk1 : ((u.markRet t.toNat n).thr t.toNat).lk = (s.thr t.toNat).lk := by
    rw [hth1, hthr]
    exact Thread.restored_lk ..
  have hmem1 : (u.markRet t.toNat n).mem = s.mem := by rw [hs1, hths]
  have hload := loadNat_dsram (s := u.markRet t.toNat n) (t := t.toNat) (a := f + 8) (n := 8) (by omega) (by decide) hm1
    (by rw [hs1, hths]; exact hs)
  rw [State.bytes_congr hmem1] at hload
  have haddr : ((s.thr t.toNat).sp + 8).toNat = f + 8 := toNat_add_small (k := 8) hf (by omega)
  generalize leNat (s.bytes (dsramBase (t.toNat / 4) + (f + 8)) 8) = lk at hload ⊢
  obtain ⟨⟨ths2, c, e⟩, l, el⟩ := (((u.markRet t.toNat n).setG t.toNat 31 (BitVec.ofNat 64 lk)).setG t.toNat 30
    ((s.thr t.toNat).sp + BitVec.ofNat 64 (16 + 8 * n))).lbTransfer_eq t.toNat ((s.thr t.toNat).lk.setWidth 32)
  refine ⟨(((u.markRet t.toNat n).setG t.toNat 31 (BitVec.ofNat 64 lk)).setG t.toNat 30
    ((s.thr t.toNat).sp + BitVec.ofNat 64 (16 + 8 * n))).lbTransfer t.toNat ((s.thr t.toNat).lk.setWidth 32), r1, l, ?_, ?_, ?_⟩
  · have hk : True ∧ n < 0 + s.stepsNow t.toNat steps := ⟨trivial, by omega⟩
    simp only [retBody, look, bind, EStateM.bind, hn, h0, Option.getD_none, hu]
    rw [if_pos hk, markRet_bind]
    simp only [EStateM.bind, look, change, hsp1, hlk1, haddr, hload]
    rfl
  · rw [e]
    exact hmem1
  · have hth2 : (u.markRet t.toNat n).thr t.toNat =
        { (s.thr t.toNat).restored (s.frameWord (dsramBase (t.toNat / 4) + f)) 0 (maskRegs mask) with resume := r1 } := by
      rw [hth1, hthr]
    rw [el, State.setG_thr_same, State.setG_thr_same, hth2, Thread.set_resume, Thread.set_resume]
    rfl

end Sys2Proof.Machine

namespace Sys2Proof.Says

open Sys2Proof.Machine

theorem returnWithMask : ReturnWithMask := by
  intro s t mask steps hr he hc hk th rs p hsteps hlow
  obtain ⟨u, r, l, hb, hmem, hthr⟩ := retBody_dsram he hc.sound hr.2.1 (hn := rfl) (hf := rfl) hsteps hlow
  rw [← microOr_unhooked 1 (.retm t mask steps) 0 0 steps (retBody t mask steps) hk] at hb
  obtain ⟨g, eg⟩ := (s.thr t.toNat).restored_eq (s.frameWord p) rs 0
  have hthm : (u.thr t.toNat).mode = false := by
    rw [hthr]
    refine (Thread.set_mode ..).trans ((Thread.set_mode ..).trans ?_)
    rw [eg]
    exact he
  have hthp : (u.thr t.toNat).mip = false := by
    rw [hthr]
    refine (Thread.set_mip ..).trans ((Thread.set_mip ..).trans ?_)
    rw [eg]
    exact hr.mip
  have hget : ∀ q, ((worded u t { (u.thr t.toNat).drop with pc := th.lk.setWidth 32, resume := none }).thr t.toNat).get q =
      (((th.restored (s.frameWord p) 0 rs).returned (BitVec.ofNat 64 (leNat (s.bytes (p + 8) 8)))
        (th.sp + BitVec.ofNat 64 (16 + 8 * rs.length))).get q) := by
    intro q
    rw [worded_thr, hthr, Nat.add_assoc]
    rfl
  refine ⟨_, congrArg Host.Outcome.next (runWord_jump _ hr hb hthm hthp), (worded_mem ..).trans hmem, ?_, ?_, ?_, ?_, ?_, ?_⟩
  · rw [worded_thr]
  · rw [worded_thr]
  · rw [hget, Thread.returned, Thread.get_set_same _ _ (by decide)]
  · rw [hget, Thread.returned, Thread.get_set_other _ _ (by decide), Thread.get_set_same _ _ (by decide)]
  · intro k q hq
    obtain ⟨q0, q30, q31⟩ := mem_maskRegs (List.mem_of_getElem? hq)
    rw [hget, Thread.returned, Thread.get_set_other _ _ q30, Thread.get_set_other _ _ q31,
      Thread.restored_get _ _ _ _ _ (maskRegs_nodup mask) q0 hq, Nat.zero_add]
    rfl
  · intro q hq q30 q31
    rw [hget, Thread.returned, Thread.get_set_other _ _ q30, Thread.get_set_other _ _ q31, Thread.restored_get_other _ _ _ _ hq]

/-- Settles O21: CALLM's stores and RETM's loads run through in their own data SRAM, and the thread jumps. -/
theorem maskedCalls : Obligations.MaskedCalls := ⟨callWithMask, returnWithMask⟩

end Sys2Proof.Says

/-! PROOF. MOVB and FILLB of at most 64 bytes in the own data SRAM (03 R95). -/

namespace Sys2Proof.Machine

/-! ### Registers written twice, and in either order -/

theorem Thread.set_set (th : Thread) (r : RegNo) (v w : Word) : (th.set r v).set r w = th.set r w := by
  unfold Thread.set
  split
  · rfl
  · simp only [Vector.set_set]

theorem Thread.set_comm (th : Thread) {r q : RegNo} (v w : Word) (h : r ≠ q) : (th.set r v).set q w = (th.set q w).set r v := by
  have hn : r.toNat ≠ q.toNat := fun e => h (BitVec.eq_of_toNat_eq e)
  unfold Thread.set
  split
  · rfl
  · split
    · rfl
    · simp only [Vector.set_comm _ _ hn]

theorem Thread.set_get (th : Thread) (r : RegNo) : th.set r (th.get r) = th := by
  unfold Thread.set Thread.get
  split
  · rfl
  · exact congrArg (fun g => { th with regs := g }) (Vector.set_getElem_self ..)

/-! ### Values at consecutive addresses -/

/-- Values at consecutive addresses from `a` on. -/
def consec {α : Type} : Nat → List α → List (Nat × α)
  | _, [] => []
  | a, b :: bs => (a, b) :: consec (a + 1) bs

/-- Consecutive bytes of one region make one run. -/
theorem byteRuns_consec {α : Type} (bs : List α) : ∀ (a : Nat), bs ≠ [] → a + bs.length ≤ 0x8000 →
    byteRuns (consec a bs) = [(a, bs)] := by
  induction bs with
  | nil => exact fun _ h => absurd rfl h
  | cons b bs ih =>
    intro a _ h
    cases bs with
    | nil => rfl
    | cons c bs =>
      rw [List.length_cons, List.length_cons] at h
      have hr : dRegion (a + 1) = dRegion a := by rw [dRegion_dsram (by omega), dRegion_dsram (by omega)]
      have e := ih (a + 1) (by simp) (by rw [List.length_cons]; omega)
      rw [consec, byteRuns, e]
      simp [hr]

/-- The sources of a move are its destinations' partners. -/
theorem consec_swap (n : Nat) : ∀ d a : Nat, (consec d (List.range' a n)).map (fun e => (e.2, e.1)) = consec a (List.range' d n) := by
  induction n with
  | zero => exact fun _ _ => rfl
  | succ n ih => exact fun d a => by rw [List.range'_succ, consec, List.map_cons, ih, List.range'_succ, consec]

/-! ### The plan of a step -/

/-- The thread behind a move of `n` bytes, its count `n`. -/
def Thread.moved (th : Thread) (rd ra rb : RegNo) : Thread :=
  ((th.set rd (th.get rd + th.get rb)).set ra (th.get ra + th.get rb)).set rb 0

/-- The thread behind a fill. -/
def Thread.filled (th : Thread) (rd rb : RegNo) : Thread := (th.set rd (th.get rd + th.get rb)).set rb 0

theorem toNat_succ_small {v : Word} {d n : Nat} (hd : v.toNat = d) (h : d + (n + 1) ≤ 0x8000) : (v + 1).toNat = d + 1 := by
  bv_omega

theorem toNat_pred {v : Word} {n : Nat} (hn : v.toNat = n + 1) : (v - 1).toNat = n := by
  bv_omega

section
variable {rd ra rb : RegNo} (h1 : rd ≠ ra) (h2 : rb ≠ rd) (h3 : rb ≠ ra) (hd0 : rd ≠ 0) (ha0 : ra ≠ 0) (hb0 : rb ≠ 0)
include h1 h2 h3 hd0 ha0 hb0

/-- A move of one byte, and the rest, move as much as the whole. -/
theorem Thread.moved_step (th : Thread) : (((th.set rd (th.get rd + 1)).set ra (th.get ra + 1)).set rb (th.get rb - 1)).moved rd ra rb =
    th.moved rd ra rb := by
  have e1 : (th.get rd + 1) + (th.get rb - 1) = th.get rd + th.get rb := by bv_omega
  have e2 : (th.get ra + 1) + (th.get rb - 1) = th.get ra + th.get rb := by bv_omega
  unfold Thread.moved
  rw [Thread.get_set_same _ _ hb0, Thread.get_set_other _ _ h2.symm, Thread.get_set_other _ _ h1, Thread.get_set_same _ _ hd0,
    Thread.get_set_other _ _ h3.symm, Thread.get_set_same _ _ ha0, e1, e2]
  rw [Thread.set_comm _ _ _ h2, Thread.set_comm _ _ _ h3, Thread.set_set, Thread.set_comm _ _ _ h1.symm, Thread.set_set, Thread.set_set]

/-- The plan of a step that ends a move in the own data SRAM. -/
theorem movPlan_consec (m : Nat) : ∀ {th : Thread} {n d a : Nat}, (th.get rb).toNat = n → (th.get rd).toNat = d →
    (th.get ra).toNat = a → n ≤ m → d + n ≤ 0x8000 → a + n ≤ 0x8000 →
    movPlan rd ra rb m th = (consec d (List.range' a n), th.moved rd ra rb) := by
  have hzero : ∀ th : Thread, th.get rb = 0 → th.moved rd ra rb = th := by
    intro th h
    unfold Thread.moved
    rw [h, add_zero, add_zero, Thread.set_get, Thread.set_get, ← h, Thread.set_get]
  induction m with
  | zero =>
    intro th n d a hn _ _ hm _ _
    obtain rfl : n = 0 := by omega
    rw [movPlan, hzero th (BitVec.eq_of_toNat_eq hn)]
    rfl
  | succ m ih =>
    intro th n d a hn hd ha hm hdn han
    cases n with
    | zero =>
      have h0 : th.get rb = 0 := BitVec.eq_of_toNat_eq hn
      rw [movPlan, if_pos h0, hzero th h0]
      rfl
    | succ n =>
      have h0 : th.get rb ≠ 0 := fun e => by rw [e] at hn; cases hn
      have g1 : (th.set rd (th.get rd + 1)).get ra = th.get ra := Thread.get_set_other _ _ h1.symm
      have g2 : ((th.set rd (th.get rd + 1)).set ra (th.get ra + 1)).get rb = th.get rb := by
        rw [Thread.get_set_other _ _ h3, Thread.get_set_other _ _ h2]
      have e := ih (th := ((th.set rd (th.get rd + 1)).set ra (th.get ra + 1)).set rb (th.get rb - 1)) (n := n) (d := d + 1) (a := a + 1)
        (by rw [Thread.get_set_same _ _ hb0]; exact toNat_pred hn)
        (by rw [Thread.get_set_other _ _ h2.symm, Thread.get_set_other _ _ h1, Thread.get_set_same _ _ hd0]
            exact toNat_succ_small hd hdn)
        (by rw [Thread.get_set_other _ _ h3.symm, Thread.get_set_same _ _ ha0]; exact toNat_succ_small ha han)
        (by omega) (by omega) (by omega)
      rw [movPlan, if_neg h0]
      dsimp only
      rw [g1, g2, e, Thread.moved_step h1 h2 h3 hd0 ha0 hb0, hd, ha, List.range'_succ, consec]

omit h1 h3 ha0 in
theorem Thread.filled_step (th : Thread) : ((th.set rd (th.get rd + 1)).set rb (th.get rb - 1)).filled rd rb = th.filled rd rb := by
  have e1 : (th.get rd + 1) + (th.get rb - 1) = th.get rd + th.get rb := by bv_omega
  unfold Thread.filled
  rw [Thread.get_set_same _ _ hb0, Thread.get_set_other _ _ h2.symm, Thread.get_set_same _ _ hd0, e1,
    Thread.set_comm _ _ _ h2, Thread.set_set, Thread.set_set]

omit ha0 in
/-- The plan of a step that ends a fill in the own data SRAM. -/
theorem fillPlan_consec (m : Nat) : ∀ {th : Thread} {n d : Nat}, (th.get rb).toNat = n → (th.get rd).toNat = d →
    n ≤ m → d + n ≤ 0x8000 →
    fillPlan rd ra rb m th = (consec d (List.replicate n ((th.get ra).setWidth 8)), th.filled rd rb) := by
  have hzero : ∀ th : Thread, th.get rb = 0 → th.filled rd rb = th := by
    intro th h
    unfold Thread.filled
    rw [h, add_zero, Thread.set_get, ← h, Thread.set_get]
  induction m with
  | zero =>
    intro th n d hn _ hm _
    obtain rfl : n = 0 := by omega
    rw [fillPlan, hzero th (BitVec.eq_of_toNat_eq hn)]
    rfl
  | succ m ih =>
    intro th n d hn hd hm hdn
    cases n with
    | zero =>
      have h0 : th.get rb = 0 := BitVec.eq_of_toNat_eq hn
      rw [fillPlan, if_pos h0, hzero th h0]
      rfl
    | succ n =>
      have h0 : th.get rb ≠ 0 := fun e => by rw [e] at hn; cases hn
      have g2 : (th.set rd (th.get rd + 1)).get rb = th.get rb := Thread.get_set_other _ _ h2
      have g1 : ((th.set rd (th.get rd + 1)).set rb (th.get rb - 1)).get ra = th.get ra := by
        rw [Thread.get_set_other _ _ h3.symm, Thread.get_set_other _ _ h1.symm]
      have e := ih (th := (th.set rd (th.get rd + 1)).set rb (th.get rb - 1)) (n := n) (d := d + 1)
        (by rw [Thread.get_set_same _ _ hb0]; exact toNat_pred hn)
        (by rw [Thread.get_set_other _ _ h2.symm, Thread.get_set_same _ _ hd0]; exact toNat_succ_small hd hdn)
        (by omega) (by omega)
      rw [fillPlan, if_neg h0]
      dsimp only
      rw [g2, e, Thread.filled_step h2 hd0 hb0, g1, hd, List.replicate_succ, consec]

end

/-! ### Reading and writing one run of the own data SRAM -/

section
variable {s : State} {t a : Nat} (hm : (s.thr t).mode = false) (hs : s.Sound)

theorem permitRuns_dsram (wr : Bool) (l : List Nat) (ha : a < 0x8000) : permitRuns t wr [(a, l)] s = .ok () s := by
  simp only [permitRuns, permitted, bind, EStateM.bind, Says.place_dsram l.length wr false s (dRegion_dsram ha)]
  rfl

include hm hs

theorem readRuns_dsram (l : List Nat) (ha : a < 0x8000) :
    readRuns t [(a, l)] s = .ok (s.bytes (dsramBase (t / 4) + a) l.length) s := by
  simp only [readRuns, readHalf, bind, EStateM.bind, Says.place_dsram l.length false false s (dRegion_dsram ha),
    readAt_die _ _ _ hm hs, pure, EStateM.pure, List.append_nil]

/-- A step's bytes, consecutive in the own data SRAM, are stored there. -/
theorem stepWrite_dsram {bs : List Byte} (hne : bs ≠ []) (ha : a + bs.length ≤ 0x8000) :
    stepWrite t (consec a bs) s = .ok () (s.store (some t) (dsramBase (t / 4) + a) bs) := by
  have ha' : a < 0x8000 := by
    have := List.length_pos_iff.mpr hne
    omega
  have hbad : s.badWrite (dsramBase (t / 4) + a) bs.length = false := by simp [State.badWrite, hs.2]
  simp only [stepWrite, byteRuns_consec bs a hne ha, checkRuns, writeRuns, look, bind, EStateM.bind,
    Says.place_dsram bs.length true false s (dRegion_dsram ha'), hbad, Bool.and_false, Bool.false_eq_true, if_false, pure, EStateM.pure,
    roomFor_elastic _ hm, writeHalf_dsram ha' hm hs]

end

/-- A move between areas that do not overlap takes every source byte as it was. -/
theorem movBytes_apart {c : Nat} (bs : List Byte) : ∀ {d a : Nat} {done : List (Nat × Byte)},
    (∀ i, i < bs.length → done.lookup (dsramBase c + (a + i)) = none) → d + bs.length ≤ 0x8000 → a + bs.length ≤ 0x8000 →
    (a + bs.length ≤ d ∨ d + bs.length ≤ a) →
    movBytes c (consec d (List.range' a bs.length)) bs done = consec d bs := by
  induction bs with
  | nil => exact fun _ _ _ _ => rfl
  | cons b bs ih =>
    intro d a done hdone hd ha hap
    rw [List.length_cons] at hdone hd ha hap
    have pa : physOf c a = dsramBase c + a := by simp only [physOf, dRegion_dsram (show a < 0x8000 by omega)]
    have pd : physOf c d = dsramBase c + d := by simp only [physOf, dRegion_dsram (show d < 0x8000 by omega)]
    have h0 : done.lookup (dsramBase c + a) = none := hdone 0 (by omega)
    rw [List.length_cons, List.range'_succ, consec, movBytes, pa, pd, h0, Option.getD_none, consec]
    congr 1
    refine ih (fun i hi => ?_) (by omega) (by omega) (by omega)
    rw [List.lookup_cons, show (dsramBase c + (a + 1 + i) == dsramBase c + d) = false by simp; omega,
      show a + 1 + i = a + (i + 1) by omega]
    exact hdone (i + 1) (by omega)

end Sys2Proof.Machine

namespace Sys2Proof.Machine

theorem State.stepsNow_pos (s : State) (t steps : Nat) : ∃ m, s.stepsNow t steps = m + 1 := by
  refine ⟨s.stepsNow t steps - 1, ?_⟩
  unfold State.stepsNow
  split <;> omega

/-- The state behind the only step of a block routine: the bytes stored, the registers as the plan leaves them. -/
def State.blockDone (s : State) (t p : Nat) (bs : List Byte) (g : Vector Word 32) : State :=
  (s.store (some t) p bs).modThr t (fun h => { h with regs := g, resume := some 1 })

theorem State.blockDone_thr (s : State) (t p : Nat) (bs : List Byte) (g : Vector Word 32) :
    (s.blockDone t p bs g).thr t = { s.thr t with regs := g, resume := some 1 } := by
  rw [State.blockDone, State.thr_modThr_same, State.store_thr]

theorem State.blockDone_mem (s : State) (t p : Nat) (bs : List Byte) (g : Vector Word 32) :
    (s.blockDone t p bs g).mem = (s.store (some t) p bs).mem := rfl

section
variable {s : State} {t : Tid} {rd ra rb : RegNo} {n d a : Nat} (hm : (s.thr t.toNat).mode = false) (hs : s.Sound)
  (h1 : rd ≠ ra) (h2 : rb ≠ rd) (h3 : rb ≠ ra) (hd0 : rd ≠ 0) (ha0 : ra ≠ 0) (hb0 : rb ≠ 0)
  (hn : ((s.thr t.toNat).get rb).toNat = n) (hd : ((s.thr t.toNat).get rd).toNat = d) (h64 : n ≤ 64) (hpos : 0 < n)
  (hdn : d + n ≤ 0x8000)
include hm hs h1 h2 h3 hd0 hb0 hn hd h64 hpos hdn

/-- FILLB of at most 64 bytes. -/
theorem fillBody_dsram (steps : Nat) : fillBody t rd ra rb steps s =
    .ok .seq (s.blockDone t.toNat (dsramBase (t.toNat / 4) + d) (List.replicate n (((s.thr t.toNat).get ra).setWidth 8))
      ((s.thr t.toNat).filled rd rb).regs) := by
  obtain ⟨m, em⟩ := s.stepsNow_pos t.toNat steps
  have hlen : (List.replicate n (((s.thr t.toNat).get ra).setWidth 8 : Byte)).length = n := List.length_replicate ..
  have hne : List.replicate n (((s.thr t.toNat).get ra).setWidth 8 : Byte) ≠ [] := fun e => by rw [e] at hlen; simp at hlen; omega
  have hplan := fillPlan_consec (ra := ra) h1 h2 h3 hd0 hb0 64 hn hd h64 hdn
  have hw := stepWrite_dsram hm hs hne (a := d) (by rw [hlen]; exact hdn)
  have hz : ((s.thr t.toNat).filled rd rb).get rb = 0 := Thread.get_set_same _ _ hb0
  generalize List.replicate n (((s.thr t.toNat).get ra).setWidth 8 : Byte) = bs at *
  have hemp : (consec d bs).isEmpty = false := by
    cases bs with
    | nil => exact absurd rfl hne
    | cons b bs => rfl
  have hill : ¬ (rb ≠ 0 ∧ rb = rd) := fun h => h2 h.2
  have hbody : fillBody t rd ra rb steps s = fillSteps t.toNat rd ra rb (s.stepsNow t.toNat steps) s := by
    unfold fillBody
    exact congrFun (if_neg hill) s
  rw [hbody]
  simp only [em, fillSteps, look, bind, EStateM.bind, hplan, hemp, Bool.false_eq_true, if_false, hw, change, hz,
    if_true]
  rfl

include ha0 in
/-- MOVB of at most 64 bytes between areas that do not overlap. -/
theorem movBody_dsram (ha : ((s.thr t.toNat).get ra).toNat = a) (han : a + n ≤ 0x8000) (hap : a + n ≤ d ∨ d + n ≤ a) (steps : Nat) :
    movBody t rd ra rb steps s =
    .ok .seq (s.blockDone t.toNat (dsramBase (t.toNat / 4) + d) (s.bytes (dsramBase (t.toNat / 4) + a) n)
      ((s.thr t.toNat).moved rd ra rb).regs) := by
  obtain ⟨m, em⟩ := s.stepsNow_pos t.toNat steps
  have hlen : (s.bytes (dsramBase (t.toNat / 4) + a) n).length = n := State.bytes_length ..
  have hne : s.bytes (dsramBase (t.toNat / 4) + a) n ≠ [] := fun e => by rw [e] at hlen; simp at hlen; omega
  have hr : ∀ x, List.range' x n ≠ [] := fun x => by simp; omega
  have hplan := movPlan_consec h1 h2 h3 hd0 ha0 hb0 64 hn hd ha h64 hdn han
  have hsrc := byteRuns_consec (List.range' d n) a (hr d) (by rw [List.length_range']; exact han)
  have hdst := byteRuns_consec (List.range' a n) d (hr a) (by rw [List.length_range']; exact hdn)
  have hp1 := permitRuns_dsram (s := s) (t := t.toNat) false (List.range' d n) (show a < 0x8000 by omega)
  have hp2 := permitRuns_dsram (s := s) (t := t.toNat) true (List.range' a n) (show d < 0x8000 by omega)
  have hread := readRuns_dsram hm hs (List.range' d n) (show a < 0x8000 by omega)
  rw [List.length_range'] at hread
  have hmov := movBytes_apart (c := t.toNat / 4) (s.bytes (dsramBase (t.toNat / 4) + a) n) (d := d) (a := a) (done := [])
    (fun _ _ => rfl) (by rw [hlen]; exact hdn) (by rw [hlen]; exact han) (by rw [hlen]; exact hap)
  rw [hlen] at hmov
  have hw := stepWrite_dsram hm hs hne (a := d) (by rw [hlen]; exact hdn)
  have hz : ((s.thr t.toNat).moved rd ra rb).get rb = 0 := Thread.get_set_same _ _ hb0
  have hemp : (consec d (List.range' a n)).isEmpty = false := by
    obtain ⟨k, rfl⟩ : ∃ k, n = k + 1 := ⟨n - 1, by omega⟩
    rw [List.range'_succ]
    rfl
  have hill : ¬ (rb ≠ 0 ∧ (rb = rd ∨ rb = ra)) := fun h => h.2.elim h2 h3
  have hbody : movBody t rd ra rb steps s = movSteps t.toNat rd ra rb (s.stepsNow t.toNat steps) s := by
    unfold movBody
    exact congrFun (if_neg hill) s
  rw [hbody]
  simp only [em, movSteps, look, bind, EStateM.bind, hplan, hemp, Bool.false_eq_true, if_false, consec_swap, hsrc,
    hdst, hp1, hp2, hread, hmov, hw, change, hz, if_true]
  rfl

end

end Sys2Proof.Machine

namespace Sys2Proof.Says

open Sys2Proof.Machine

/-- A block routine's word that ends with its only step. -/
theorem runWord_blockDone {s : State} {t : Tid} {i : Instr} {r : Nat} {ra : RegNo} {rank : BitVec 4} {steps p : Nat} {body : M Next}
    {bs : List Byte} {g : Vector Word 32} (hr : Ready s t) (he : Elastic s t) (hk : s.hooked (t.toNat / 32) = false)
    (hb : body s = .ok .seq (s.blockDone t.toNat p bs g)) :
    ∃ s', runWord t i false (microOr t r i ra rank steps body) s = s' ∧ (s.memCanonical → s'.bytes p bs.length = bs) ∧
      (∀ x, x < p ∨ p + bs.length ≤ x → s'.byte x = s.byte x) ∧ (s'.thr t.toNat).regs = g ∧
      (s'.thr t.toNat).pc = (s.thr t.toNat).pc + 4 := by
  rw [← microOr_unhooked r i ra rank steps body hk] at hb
  have hth := s.blockDone_thr t.toNat p bs g
  have hw := runWord_seq i hr hb (by rw [hth]; exact he) (by rw [hth]; exact hr.mip)
  refine ⟨_, hw, fun hc => ?_, fun x hx => ?_, ?_, ?_⟩
  · rw [State.bytes_congr ((worded_mem ..).trans (s.blockDone_mem ..)), State.store_bytes _ _ _ _ hc]
  · rw [State.byte, worded_mem, State.blockDone_mem, ← State.byte, State.store_byte_outside _ _ _ _ _ hx]
  · rw [worded_thr, hth]
    rfl
  · rw [worded_thr, hth]
    rfl

/-- Settles O22: one step moves or fills at most 64 bytes, as one run of the own data SRAM. -/
theorem blockMovesInOneStep : Obligations.BlockMovesInOneStep := by
  intro s t rd ra rb steps hr he hc hk hd0 ha0 hb0 h1 h2 h3 th n d a base hpos h64 hdn
  refine ⟨fun han hap => ?_, ?_⟩
  · have hill : ¬ (rb ≠ 0 ∧ (rb = rd ∨ rb = ra)) := fun h => h.2.elim h2 h3
    have hx0 : exec (.movb t rd ra rb steps) s = .next (runWord t (.movb t rd ra rb steps) false
        (microOr t 2 (.movb t rd ra rb steps) ra 0 steps (movBody t rd ra rb steps)) s) := by
      show execMovb t rd ra rb steps s = _
      rw [execMovb, if_neg hill]
      rfl
    have hb := movBody_dsram he hc.sound h1 h2 h3 hd0 ha0 hb0 rfl rfl h64 hpos hdn rfl han hap steps
    obtain ⟨s', hx, hin, hout, hregs, hpc⟩ := runWord_blockDone (i := .movb t rd ra rb steps) (r := 2) (ra := ra) (rank := 0)
      (steps := steps) hr he hk hb
    rw [State.bytes_length] at hin hout
    exact ⟨s', hx0.trans (congrArg Host.Outcome.next hx), hin, hout, hregs, hpc⟩
  · have hill : ¬ (rb ≠ 0 ∧ rb = rd) := fun h => h2 h.2
    have hx0 : exec (.fillb t rd ra rb steps) s = .next (runWord t (.fillb t rd ra rb steps) false
        (microOr t 3 (.fillb t rd ra rb steps) ra 0 steps (fillBody t rd ra rb steps)) s) := by
      show execFillb t rd ra rb steps s = _
      rw [execFillb, if_neg hill]
      rfl
    have hb := fillBody_dsram (ra := ra) he hc.sound h1 h2 h3 hd0 hb0 rfl rfl h64 hpos hdn steps
    obtain ⟨s', hx, hin, hout, hregs, hpc⟩ := runWord_blockDone (i := .fillb t rd ra rb steps) (r := 3) (ra := ra) (rank := 0)
      (steps := steps) hr he hk hb
    rw [List.length_replicate] at hin hout
    exact ⟨s', hx0.trans (congrArg Host.Outcome.next hx), hin, hout, hregs, hpc⟩

end Sys2Proof.Says

/-! PROOF. MBRD, SEND and DONE of an Elastic thread (03 R90, R93, R94). -/

namespace Sys2Proof.Machine

/-! ### What the device does of itself after a command leaves the ports alone -/

@[simp] theorem State.askWake_ports (s : State) (r : Nat) : (s.askWake r).ports = s.ports := by
  unfold State.askWake
  split <;> rfl

@[simp] theorem State.crierWake_ports (s : State) (r : Nat) : (s.crierWake r).ports = s.ports := by
  unfold State.crierWake
  split <;> simp

@[simp] theorem State.setSrc_ports (s : State) (k : Nat) (x : Src) : (s.setSrc k x).ports = s.ports := rfl

@[simp] theorem State.rescan_ports (s : State) (k : Nat) : (s.rescan k).ports = s.ports := by
  unfold State.rescan
  dsimp only
  repeat' split
  all_goals simp

@[simp] theorem State.countEvent_ports (s : State) (k : Nat) : (s.countEvent k).ports = s.ports := by
  simp [State.countEvent]

@[simp] theorem State.sendLink_ports (s : State) (e : Emit) (n : Option Nat) : (s.sendLink e n).ports = s.ports := by
  unfold State.sendLink
  split <;> rfl

@[simp] theorem State.msixSend_ports (s : State) (q : Nat) : (s.msixSend q).ports = s.ports := by
  unfold State.msixSend
  dsimp only
  split <;> simp

@[simp] theorem State.devNotice_ports (s : State) (src : Nat) : (s.devNotice src).ports = s.ports := by
  unfold State.devNotice State.notice
  split <;> simp

@[simp] theorem State.edge_ports (s : State) (src : Nat) : (s.edge src).ports = s.ports := by
  unfold State.edge
  split
  · rfl
  · dsimp only
    split <;> simp

@[simp] theorem State.withdraw_ports (s : State) (k : Nat) : (s.withdraw k).ports = s.ports := rfl

@[simp] theorem State.level_ports (s : State) (k : Nat) (on : Bool) : (s.level k on).ports = s.ports := by
  unfold State.level
  dsimp only
  repeat' split
  all_goals simp

@[simp] theorem State.ringLost_ports (s : State) (p n : Nat) : (s.ringLost p n).ports = s.ports := by
  unfold State.ringLost
  split <;> simp

@[simp] theorem State.ringDiscard_ports (s : State) (p : Nat) : (s.ringDiscard p).ports = s.ports := by
  unfold State.ringDiscard
  dsimp only
  rw [State.ringLost_ports]
  split <;> rfl

@[simp] theorem State.ringItem_ports (s : State) (p : Nat) (extra : List (List Word32)) (it : List Word32) :
    (s.ringItem p extra it).1.ports = s.ports := by
  unfold State.ringItem
  dsimp only
  split <;> simp

@[simp] theorem State.ringItems_ports (s : State) (p : Nat) (its : List (List Word32)) : (s.ringItems p its).ports = s.ports := by
  have hf : ∀ (l : List (List Word32)) (acc : State × List (List Word32)),
      (l.foldl (fun acc it => acc.1.ringItem p acc.2 it) acc).1.ports = acc.1.ports := by
    intro l
    induction l with
    | nil => exact fun _ => rfl
    | cons x r ih => exact fun acc => (ih _).trans (State.ringItem_ports ..)
  exact (State.level_ports ..).trans (hf its (s, []))

@[simp] theorem State.record_ports (s : State) (ty n : Nat) (body : List Byte) : (s.record ty n body).ports = s.ports := by
  unfold State.record
  dsimp only
  repeat' split
  all_goals simp

@[simp] theorem State.setCond_ports (s : State) (n : Nat) (on : Bool) : (s.setCond n on).ports = s.ports := by
  unfold State.setCond
  dsimp only
  repeat' split
  all_goals simp

@[simp] theorem State.condEvent_ports (s : State) (n : Nat) : (s.condEvent n).ports = s.ports := by
  unfold State.condEvent
  dsimp only
  split <;> simp

@[simp] theorem State.fillPrompt_ports (s : State) : s.fillPrompt.ports = s.ports := by
  unfold State.fillPrompt
  dsimp only
  split <;> rfl

@[simp] theorem State.noteEmpty_ports (s : State) (b l : Nat) : (s.noteEmpty b l).ports = s.ports := by
  unfold State.noteEmpty
  split <;> rfl

/-- The Prompt budget's look at a frame that enters a port's Prompt queue. -/
theorem State.promptEgress_ports (s : State) (p len : Nat) : (s.promptEgress p len).ports = s.ports := by
  unfold State.promptEgress
  dsimp only
  repeat' split
  all_goals simp

theorem Steady.condEvent {s t : State} (h : Steady s t) (n : Nat) : Steady s (t.condEvent n) := h.calm ((Calm.refl t).condEvent n)

theorem Steady.promptEgress {s t : State} (h : Steady s t) (p len : Nat) : Steady s (t.promptEgress p len) := by
  have h1 := h.calm (Calm.refl t).fillPrompt
  unfold State.promptEgress
  dsimp only
  refine .ite _ (Steady.condEvent ?_ 0) ?_ <;>
  · refine .ite _ (h1.free rfl) (Steady.bump ?_ ..)
    unfold State.noteEmpty
    exact .ite _ (h1.free rfl) h1

/-! ### Egress queues -/

theorem State.egressQ_congr {s u : State} (h : u.ports = s.ports) (p c : Nat) : u.egressQ p c = s.egressQ p c := by
  have hport : u.port p = s.port p := by rw [State.port, h, State.port]
  unfold State.egressQ
  rw [hport]

theorem State.egressQ_setEgressQ (s : State) (p c : Nat) (q : List TxFrame) : (s.setEgressQ p c q).egressQ p c = q := by
  unfold State.egressQ State.setEgressQ State.modPort
  rw [State.port_setPort_same]
  match c with
  | 0 | 1 | 2 | _ + 3 => rfl

/-- A frame joins the end of its queue. -/
theorem State.enqueueTx_egressQ (s : State) (p c : Nat) (f : TxFrame) : (s.enqueueTx p c f).egressQ p c = s.egressQ p c ++ [f] := by
  have hp : (s.enqueueTx p c f).ports = (s.setEgressQ p c (s.egressQ p c ++ [f])).ports := by
    unfold State.enqueueTx
    dsimp only
    split
    · split
      · rw [State.condEvent_ports, State.promptEgress_ports]
      · exact State.promptEgress_ports ..
    · rfl
  rw [State.egressQ_congr hp, State.egressQ_setEgressQ]

theorem Steady.enqueueTx {s t : State} (h : Steady s t) (p c : Nat) (f : TxFrame) : Steady s (t.enqueueTx p c f) := by
  have h1 : Steady s (t.setEgressQ p c (t.egressQ p c ++ [f])) := h.free rfl
  exact .ite _ (.ite _ ((h1.promptEgress ..).condEvent _) (h1.promptEgress ..)) h1

/-! ### Headers -/

theorem Header.bytes_length (h : Header) : h.bytes.length = 32 := by
  simp [Header.bytes, leBytes_length]

/-- An empty mailbox withdraws its source, and nothing else. -/
theorem State.msgRefresh_eq (s : State) (n : Nat) : ∃ c, s.msgRefresh n = { s with crier := c } := by
  unfold State.msgRefresh
  split
  · exact ⟨s.crier, rfl⟩
  · unfold State.level
    dsimp only
    split
    · exact ⟨s.crier, rfl⟩
    · rw [if_neg (by decide)]
      split <;> exact ⟨_, rfl⟩

theorem Thread.set_box (th : Thread) (r : RegNo) (v : Word) : (th.set r v).cur = th.cur ∧ (th.set r v).mailbox = th.mailbox := by
  unfold Thread.set
  split <;> exact ⟨rfl, rfl⟩

theorem Thread.set_regs_congr {x y : Thread} (h : x.regs = y.regs) (r : RegNo) (v : Word) : (x.set r v).regs = (y.set r v).regs := by
  unfold Thread.set
  split
  · exact h
  · simp only [h]

end Sys2Proof.Machine

namespace Sys2Proof.Says

open Sys2Proof.Machine

theorem after_regs (th : Thread) (pc : Word32) : (after th pc).regs = th.regs := rfl

theorem after_pc (th : Thread) (pc : Word32) : (after th pc).pc = pc := rfl

/-! ### MBRD -/

theorem mbrdPlace_dsram {a : Nat} (h : a + 32 ≤ 0x8000) : mbrdPlace a = true := by
  simp only [mbrdPlace, dRegion_dsram (show a < 0x8000 by omega), dRegion_dsram (show a + 31 < 0x8000 by omega)]
  rfl

/-- The oldest header leaves the mailbox and becomes the current message. -/
def takeHeader (s : State) (t : Nat) (h : Header) (r : List Header) : State :=
  (s.modThr t (fun x => { x with mailbox := r, cur := some h })).msgRefresh t

theorem takeHeader_eq (s : State) (t : Nat) (h : Header) (r : List Header) :
    ∃ c, takeHeader s t h r = { s.setThr t { s.thr t with mailbox := r, cur := some h } with crier := c } :=
  State.msgRefresh_eq ..

theorem takeHeader_thr (s : State) (t : Nat) (h : Header) (r : List Header) :
    (takeHeader s t h r).thr t = { s.thr t with mailbox := r, cur := some h } := by
  obtain ⟨c, e⟩ := takeHeader_eq s t h r
  rw [e]
  exact State.thr_setThr_same s t _

theorem takeHeader_mem (s : State) (t : Nat) (h : Header) (r : List Header) : (takeHeader s t h r).mem = s.mem := by
  obtain ⟨c, e⟩ := takeHeader_eq s t h r
  rw [e]
  rfl

section
variable {s : State} {t : Tid} {rd ra : RegNo} {a : Nat} (hm : (s.thr t.toNat).mode = false)
  (ha : ((s.thr t.toNat).get ra).toNat = a) (hal : a % 8 = 0) (hlow : a + 32 ≤ 0x8000)
include hm ha hal hlow

theorem mbrdBody_takes {h : Header} {r : List Header} (hs : s.Sound) (hcur : (s.thr t.toNat).cur = none)
    (hbox : (s.thr t.toNat).mailbox = h :: r) : mbrdBody t rd ra s =
    .ok .seq ((takeHeader (s.store (some t.toNat) (dsramBase (t.toNat / 4) + a) h.bytes) t.toNat h r).setG t.toNat rd 0) := by
  have hst := writeHalf_dsram (s := s) (t := t.toNat) (a := a) (bs := h.bytes) (by omega) hm hs
  simp only [mbrdBody, look, change, bind, EStateM.bind, ha, hal, ne_eq, not_true_eq_false, if_false, mbrdPlace_dsram hlow,
    Bool.not_true, Bool.false_eq_true, hm, hcur, Option.isSome_none, hbox, hst]
  rfl

theorem mbrdBody_empty (hcur : (s.thr t.toNat).cur = none) (hbox : (s.thr t.toNat).mailbox = []) :
    mbrdBody t rd ra s = .ok .seq (s.setG t.toNat rd 1) := by
  simp only [mbrdBody, look, change, bind, EStateM.bind, ha, hal, ne_eq, not_true_eq_false, if_false, mbrdPlace_dsram hlow,
    Bool.not_true, Bool.false_eq_true, hm, hcur, Option.isSome_none, hbox]
  rfl

theorem mbrdBody_busy (hcur : (s.thr t.toNat).cur.isSome = true) : mbrdBody t rd ra s = .ok .seq (s.setG t.toNat rd 2) := by
  simp only [mbrdBody, look, change, bind, EStateM.bind, ha, hal, ne_eq, not_true_eq_false, if_false, mbrdPlace_dsram hlow,
    Bool.not_true, Bool.false_eq_true, hm, hcur, if_true]
  rfl

end

theorem mailboxReads : MailboxReads := by
  intro s t rd ra hr he hc th a p hal hlow
  refine ⟨fun h r hcur hbox => ?_, fun hcur hbox => ?_, fun hcur => ?_⟩
  · have hb : mbrdBody t rd ra s = .ok .seq ((takeHeader (s.store (some t.toNat) p h.bytes) t.toNat h r).setG t.toNat rd 0) :=
      mbrdBody_takes he rfl hal hlow hc.sound hcur hbox
    have hth : ((takeHeader (s.store (some t.toNat) p h.bytes) t.toNat h r).setG t.toNat rd 0).thr t.toNat =
        Thread.set { th with mailbox := r, cur := some h } rd 0 := by
      rw [State.setG_thr_same, takeHeader_thr, State.store_thr]
    have hmem : ((takeHeader (s.store (some t.toNat) p h.bytes) t.toNat h r).setG t.toNat rd 0).mem =
        (s.store (some t.toNat) p h.bytes).mem := by
      rw [State.setG_mem, takeHeader_mem]
    have hw := runWord_seq (.mbrd t rd ra) hr hb (by rw [hth, Thread.set_mode]; exact he)
      (by rw [hth, Thread.set_mip]; exact hr.mip)
    refine ⟨_, congrArg Host.Outcome.next hw, fun hcan => ?_, fun x hx => ?_, ?_, ?_, ?_, ?_⟩
    · have hst := s.store_bytes (some t.toNat) p h.bytes hcan
      rw [h.bytes_length] at hst
      rw [State.bytes_congr (worded_mem ..), State.bytes_congr hmem, hst]
    · rw [State.byte, worded_mem, hmem, ← State.byte, State.store_byte_outside _ _ _ _ _ (by rw [h.bytes_length]; exact hx)]
    · rw [worded_thr, hth]
      exact (Thread.set_box ..).1
    · rw [worded_thr, hth]
      exact (Thread.set_box ..).2
    · rw [worded_thr, after_regs, hth]
      exact Thread.set_regs_congr (x := { th with mailbox := r, cur := some h }) (y := th) rfl rd 0
    · rw [worded_thr, after_pc, hth, Thread.set_pc]
  · exact congrArg Host.Outcome.next (runWord_setG _ hr he (mbrdBody_empty he rfl hal hlow hcur hbox))
  · exact congrArg Host.Outcome.next (runWord_setG _ hr he (mbrdBody_busy he rfl hal hlow hcur))

/-! ### SEND -/

section
variable {s : State} {t : Tid} {rd ra rb : RegNo} {port : PortId} {cls : BitVec 2} {a n : Nat}
  (hm : (s.thr t.toNat).mode = false) (ha : ((s.thr t.toNat).get ra).toNat = a) (hn : ((s.thr t.toNat).get rb).toNat = n)
  (hpl : sendPlace a (max n 1) = true) (hperm : permitted t.toNat a (min (max n 1) 9216) false s = .ok () s)
include hm ha hn hpl hperm

/-- SEND with a length out of range. -/
theorem sendBody_length (h : n < 14 ∨ (if cls = 0 then 2048 else 9216) < n) :
    sendBody t rd ra rb port cls s = .ok .seq (s.setG t.toNat rd 3) := by
  simp only [sendBody, look, change, bind, EStateM.bind, ha, hn, hpl, hperm, Bool.not_true, Bool.false_eq_true, if_false, hm, or_false,
    h, if_true]
  rfl

/-- SEND with a length in range. -/
theorem sendBody_queue (h : ¬ (n < 14 ∨ (if cls = 0 then 2048 else 9216) < n)) :
    sendBody t rd ra rb port cls s = .ok .seq
      (if s.portInService port.toNat = false then s.setG t.toNat rd 2
       else if 256 ≤ s.egressUsed port.toNat cls.toNat then s.setG t.toNat rd 1
       else (s.enqueueTx port.toNat cls.toNat
         { addr := globalAddr (t.toNat / 4) a, len := n, src := .thread t.toNat, at_ := s.now }).setG t.toNat rd 0) := by
  have hb : sendBody t rd ra rb port cls s = (do
      if !s.portInService port.toNat then change (fun s => s.setG t.toNat rd 2)
      else if 256 ≤ s.egressUsed port.toNat cls.toNat then change (fun s => s.setG t.toNat rd 1)
      else change (fun s => (s.enqueueTx port.toNat cls.toNat
        { addr := globalAddr (t.toNat / 4) a, len := n, src := .thread t.toNat, at_ := s.now }).setG t.toNat rd 0)
      pure .seq : M Next) s := by
    simp only [sendBody, look, bind, EStateM.bind, ha, hn, hpl, hperm, Bool.not_true, Bool.false_eq_true, if_false, hm, or_false,
      h, egressSize]
  rw [hb]
  cases hps : s.portInService port.toNat with
  | false => rfl
  | true =>
    by_cases hf : 256 ≤ s.egressUsed port.toNat cls.toNat
    · simp only [Bool.not_true, Bool.false_eq_true, Bool.true_eq_false, if_false, if_pos hf]
      rfl
    · simp only [Bool.not_true, Bool.false_eq_true, Bool.true_eq_false, if_false, if_neg hf]
      rfl

end

theorem sendsQueueFrames : SendsQueueFrames := by
  intro s t rd ra rb port cls hr he th a n limit rd' hpl hread
  obtain ⟨p, hp⟩ := Option.isSome_iff_exists.mp hread
  have hm : th.mode = false := he
  have hperm : permitted t.toNat a (min (max n 1) 9216) false s = .ok () s := by
    rw [permitted, (placeOf_some hp false).2]
  have hq : 14 ≤ n → n ≤ limit → ¬ (n < 14 ∨ (if cls = 0 then 2048 else 9216) < n) := fun h1 h2 h => by
    rcases h with h | h
    · omega
    · exact absurd h2 (Nat.not_le.mpr h)
  refine ⟨fun h => ?_, fun h1 h2 hs => ?_, fun h1 h2 hs hfull => ?_, fun h1 h2 hs hroom => ?_⟩
  · exact congrArg Host.Outcome.next (runWord_setG _ hr he (sendBody_length he rfl rfl hpl hperm h))
  · have hb := sendBody_queue (rd := rd) (port := port) he rfl rfl hpl hperm (hq h1 h2)
    rw [if_pos hs] at hb
    exact congrArg Host.Outcome.next (runWord_setG _ hr he hb)
  · have hb := sendBody_queue (rd := rd) (port := port) he rfl rfl hpl hperm (hq h1 h2)
    rw [if_neg (by rw [hs]; decide), if_pos hfull] at hb
    exact congrArg Host.Outcome.next (runWord_setG _ hr he hb)
  · have hb := sendBody_queue (rd := rd) (port := port) he rfl rfl hpl hperm (hq h1 h2)
    rw [if_neg (by rw [hs]; decide), if_neg (Nat.not_le.mpr hroom)] at hb
    have hqueue := s.enqueueTx_egressQ port.toNat cls.toNat
      { addr := globalAddr (t.toNat / 4) a, len := n, src := .thread t.toNat, at_ := s.now }
    have k := (Steady.refl s).enqueueTx port.toNat cls.toNat
      { addr := globalAddr (t.toNat / 4) a, len := n, src := .thread t.toNat, at_ := s.now }
    change sendBody t rd ra rb port cls s = .ok .seq ((s.enqueueTx port.toNat cls.toNat
      { addr := globalAddr (t.toNat / 4) a, len := n, src := .thread t.toNat, at_ := s.now }).setG t.toNat rd 0) at hb
    generalize s.enqueueTx port.toNat cls.toNat _ = u at hb hqueue k
    obtain ⟨m, c, x, r, eth⟩ := k.thr t.toNat
    have hth : (u.setG t.toNat rd 0).thr t.toNat = (u.thr t.toNat).set rd 0 := State.setG_thr_same ..
    have hw := runWord_seq (.send t rd ra rb port cls) hr hb (by rw [hth, Thread.set_mode, eth]; exact he)
      (by rw [hth, Thread.set_mip, eth]; exact hr.mip)
    obtain ⟨y, ey⟩ := worded_eq (u.setG t.toNat rd 0) t (after ((u.setG t.toNat rd 0).thr t.toNat)
      (((u.setG t.toNat rd 0).thr t.toNat).pc + 4))
    refine ⟨_, congrArg Host.Outcome.next hw, ?_, ?_, ?_, ?_⟩
    · rw [worded_mem]
      exact k.mem
    · rw [State.egressQ_congr (s := u) (by rw [ey]; rfl), hqueue]
    · rw [worded_thr, after_regs, hth]
      exact Thread.set_regs_congr (by rw [eth]) rd 0
    · rw [worded_thr, after_pc, hth, Thread.set_pc, eth]

/-! ### DONE -/

theorem doneEndsMessage : DoneEndsMessage := by
  intro s t hr he
  have hm : (s.thr t.toNat).mode = false := he
  refine ⟨fun hp => ?_, fun hp => ?_⟩
  · have hb : doneBody t s = .error (.wait .turn) s := by
      simp only [doneBody, hp, if_true]
      rfl
    exact congrArg Host.Outcome.next (runWord_stall _ hr hb)
  · cases hcur : (s.thr t.toNat).cur with
    | none =>
      have hb : doneBody t s = .ok .seq s := by
        simp only [doneBody, hp, hm, Bool.false_eq_true, if_false, hcur]
      refine ⟨_, congrArg Host.Outcome.next (runWord_seq_same _ hr he hb rfl), (Quiet.refl s t).worded _, ?_, ?_⟩
      · rw [Holds, worded_thr]
        exact ⟨rfl, rfl, rfl, rfl, rfl, rfl⟩
      · rw [worded_thr]
        exact hcur
    | some h =>
      have hb : doneBody t s = .ok .seq ((s.modThr t.toNat (fun x => { x with cur := none })).freeFrame h.fboff.toNat) := by
        simp only [doneBody, hp, hm, Bool.false_eq_true, if_false, hcur]
      have k := (Calm.refl (s.modThr t.toNat (fun x => { x with cur := none }))).freeFrame h.fboff.toNat
      have hq : Quiet s (s.modThr t.toNat (fun x => { x with cur := none })) t :=
        ⟨rfl, rfl, rfl, rfl, rfl, rfl, fun u hu => by rw [State.thr_modThr_other _ _ hu]; exact ⟨rfl, rfl, rfl, rfl, rfl⟩⟩
      obtain ⟨m, em⟩ := k.thr t.toNat
      rw [State.thr_modThr_same] at em
      have hw := runWord_seq (.done t) hr hb (by rw [em]; exact he) (by rw [em]; exact hr.mip)
      refine ⟨_, congrArg Host.Outcome.next hw, (hq.calm k).worded _, ?_, ?_⟩
      · rw [Holds, worded_thr, em]
        exact ⟨rfl, rfl, rfl, rfl, rfl, rfl⟩
      · rw [worded_thr, em]
        rfl

/-- Settles O23: each body's cases, and what the device does of itself after them. -/
theorem messageWords : Obligations.MessageWords := ⟨mailboxReads, sendsQueueFrames, doneEndsMessage⟩

end Sys2Proof.Says

/-! PROOF. What a Metered thread's words capture, and what its loads find (03 R96, R97; 08 R266 to R268). -/

namespace Sys2Proof.Machine

/-! ### The end of a Metered word -/

theorem State.setCore_setCore (s : State) (c : Nat) (x y : Core) : (s.setCore c x).setCore c y = s.setCore c y := by
  rw [State.setCore, State.setCore, State.setCore, tblPut_tblPut]

/-- A core after a word of `n` beats in which its deadline had passed at `l`. -/
def Core.ticked (k : Core) (n : Nat) (l : Nat) : Core := { k with beats := k.beats + n, late := l, overrun := false }

/-- A Metered word's beats are counted in its core. -/
theorem State.endWord_metered {s : State} {t : Nat} (n : Nat) (hm : (s.thr t).mode = true) :
    ∃ l, s.endWord t n = s.setCore (t / 4) ((s.core (t / 4)).ticked n l) := by
  have hadd : s.addBeats t n = s.setCore (t / 4) { s.core (t / 4) with beats := (s.core (t / 4)).beats + n, overrun := false } := by
    rw [State.addBeats, if_pos hm, State.modCore]
  unfold State.endWord
  rw [hadd]
  dsimp only
  split
  · rw [State.modCore, State.core_setCore_same, State.setCore_setCore]
    exact ⟨_, rfl⟩
  · exact ⟨(s.core (t / 4)).late, rfl⟩

theorem firstDiff_nil_left (b : List CbEntry) (i : Nat) : firstDiff [] b i = none := by
  unfold firstDiff
  rfl

theorem firstDiff_nil_right (a : List CbEntry) (i : Nat) : firstDiff a [] i = none := by
  cases a <;> rfl

/-- While a Twin has captured nothing and the first has not issued DONE, the Accord has nothing to compare. -/
theorem State.accordScan_oneEmpty {s : State} {t q : Nat} (hq : pairOf (t / 4) = some q)
    (hd : (s.core (pairCores q).1).doneAt = none) (he : (s.core (pairCores q).1).cbuf = [] ∨ (s.core (pairCores q).2).cbuf = []) :
    s.accordScan t = s := by
  have hf : firstDiff (settled (s.core (pairCores q).1).cbuf) (settled (s.core (pairCores q).2).cbuf) 0 = none := by
    rcases he with h | h <;> rw [h]
    · exact firstDiff_nil_left _ _
    · exact firstDiff_nil_right _ _
  simp only [State.accordScan, hq, State.accordCheck, hd, hf]
  split
  · split <;> rfl
  · rfl

/-- The Twins of a pair. -/
theorem pairOf_twin {c q : Nat} (h : pairOf c = some q) : c = (pairCores q).1 ∨ c = (pairCores q).2 := by
  unfold pairOf at h
  split at h
  · obtain rfl := Option.some.inj h
    simp only [pairCores]
    omega
  · cases h

theorem pairCores_ne (q : Nat) : (pairCores q).1 ≠ (pairCores q).2 := by
  simp only [pairCores]
  omega

/-! ### Captured entries -/

theorem granule_aligned {a : Nat} (h : a % 8 = 0) : granule a = a := by
  unfold granule
  omega

/-- Bytes within an aligned granule touch that granule alone. -/
theorem granulesOf_aligned {a : Nat} (h : a % 8 = 0) (n : Nat) : n < 8 → granulesOf a (n + 1) = [a] := by
  induction n with
  | zero =>
    intro _
    simp [granulesOf, granule_aligned h]
  | succ n ih =>
    intro hn
    have hg : granule (a + (n + 1)) = a := by
      unfold granule
      omega
    rw [granulesOf, ih (by omega), hg]
    simp

/-- The number that bytes spell, as a sum of their places. -/
theorem leNat_sum (m : Nat) : ∀ bs : List Byte, bs.length ≤ m →
    ((List.range m).map (fun i => ((bs[i]?).getD 0).toNat * 256 ^ i)).sum = leNat bs := by
  have hshift : ∀ (l : List Nat) (f : Nat → Nat), (l.map (fun i => f i * 256 ^ (i + 1))).sum = 256 * (l.map (fun i => f i * 256 ^ i)).sum := by
    intro l f
    rw [← List.sum_map_mul_left]
    congr 1
    exact List.map_congr_left fun i _ => by rw [Nat.pow_succ]; ring
  induction m with
  | zero =>
    intro bs h
    obtain rfl := List.length_eq_zero_iff.mp (Nat.le_zero.mp h)
    rfl
  | succ m ih =>
    intro bs h
    cases bs with
    | nil => simp [leNat]
    | cons b bs =>
      rw [List.range_succ_eq_map, List.map_cons, List.map_map, List.sum_cons, leNat, ← ih bs (by simpa using h)]
      have e := hshift (List.range m) (fun i => ((bs[i]?).getD 0).toNat)
      simpa [Function.comp_def] using e

/-- A store within an aligned granule makes one entry. -/
theorem writeEntries_aligned {a n : Nat} {bs : List Byte} (ha : a % 8 = 0) (hl : bs.length = n) (h0 : 0 < n) (h8 : n ≤ 8) :
    writeEntries a bs = [⟨0, BitVec.ofNat 8 (2 ^ n - 1), BitVec.ofNat 48 a, BitVec.ofNat 64 (leNat bs), 0⟩] := by
  obtain ⟨k, rfl⟩ : ∃ k, n = k + 1 := ⟨n - 1, by omega⟩
  have hg : granulesOf a bs.length = [a] := by rw [hl]; exact granulesOf_aligned ha k (by omega)
  have hat : ∀ i, (if a + i < a then none else bs[a + i - a]?) = bs[i]? := fun i => by
    rw [if_neg (by omega), Nat.add_sub_cancel_left]
  have hmask : ((List.range 8).map (fun i => if (bs[i]?).isSome then 2 ^ i else 0)).sum = 2 ^ (k + 1) - 1 := by
    have hsome : ∀ i, (bs[i]?).isSome = decide (i < k + 1) := fun i => by
      rw [Bool.eq_iff_iff, Option.isSome_iff_ne_none, Ne, List.getElem?_eq_none_iff, hl, not_le, decide_eq_true_iff]
    have hk : k < 8 := by omega
    simp only [hsome]
    interval_cases k <;> decide
  simp only [writeEntries, hg, hat, hmask, List.map_cons, List.map_nil, leNat_sum 8 bs (by omega)]

/-- The first entry of a run, captured. -/
theorem capture_first {s : State} {c : Nat} (e : CbEntry) (h : (s.core c).cbuf = []) :
    capture c [e] s = .ok () (s.setCore c { s.core c with cbuf := [e] }) := by
  simp only [capture, h, List.foldl_cons, List.foldl_nil, cbAdd, List.getLast?_nil]
  rfl

theorem placeOf_phys {s : State} {t : Tid} {a n p : Nat} (h : Says.placeOf s t a n = some p) : physOf (t.toNat / 4) a = p := by
  unfold Says.placeOf at h
  split at h
  · cases h
  · split at h <;> rename_i hd
    · obtain rfl := Option.some.inj h
      simp only [physOf, hd]
    · split at h
      · obtain rfl := Option.some.inj h
        exact Says.physOf_ownCl t.toNat hd
      · cases h
    · split at h
      · obtain rfl := Option.some.inj h
        exact Says.physOf_glob _ hd
      · cases h
    · split at h
      · cases h
      · obtain rfl := Option.some.inj h
        simp only [physOf, hd]
    · split at h
      · cases h
      · obtain rfl := Option.some.inj h
        simp only [physOf, hd]
    · cases h

end Sys2Proof.Machine

namespace Sys2Proof.Says

open Sys2Proof.Machine

/-- A word of a Metered thread that completes while there is nothing to compare: its body's effect, its beats and the next PC. -/
theorem runWord_metered {s u : State} {t : Tid} {body : M Next} {q : Nat} (i : Instr) (hr : Ready s t) (hb : body s = .ok .seq u)
    (hm : (u.thr t.toNat).mode = true) (hp : (u.thr t.toNat).mip = false) (hq : pairOf (t.toNat / 4) = some q)
    (hd : (u.core (pairCores q).1).doneAt = none) (he : (u.core (pairCores q).1).cbuf = [] ∨ (u.core (pairCores q).2).cbuf = []) :
    ∃ l, (runWord t i false body s).mem = u.mem ∧ (runWord t i false body s).regs = u.regs ∧
      (runWord t i false body s).thr t.toNat = after (u.thr t.toNat) ((u.thr t.toNat).pc + 4) ∧
      (runWord t i false body s).core (t.toNat / 4) = (u.core (t.toNat / 4)).ticked (beatsOf (s.thr t.toNat) (t.toNat / 4) i) l := by
  obtain ⟨l, e⟩ := State.endWord_metered (beatsOf (s.thr t.toNat) (t.toNat / 4) i) hm
  have hrun := runWord_ok t i body s u .seq (hr.issues i) hb
  obtain ⟨-, hres, -⟩ := hr
  rw [hres, if_neg (by simp), e] at hrun
  generalize hk : (u.core (t.toNat / 4)).ticked (beatsOf (s.thr t.toNat) (t.toNat / 4) i) l = k at hrun
  have hfin : (u.setCore (t.toNat / 4) k).finish t.toNat .seq =
      (u.setCore (t.toNat / 4) k).modThr t.toNat (fun th => after th (th.pc + 4)) := State.finish_seq _ _ hp
  obtain ⟨a, ea⟩ := ((u.setCore (t.toNat / 4) k).modThr t.toNat (fun th => after th (th.pc + 4))).leaveArbs_eq t.toNat
  rw [hfin] at hrun
  have hcore : ∀ c, ((u.setCore (t.toNat / 4) k).core c).doneAt = (u.core c).doneAt ∧
      ((u.setCore (t.toNat / 4) k).core c).cbuf = (u.core c).cbuf := fun c => by
    by_cases hc : c = t.toNat / 4
    · subst hc
      rw [State.core_setCore_same, ← hk]
      exact ⟨rfl, rfl⟩
    · rw [State.core_setCore_other _ _ hc]
      exact ⟨rfl, rfl⟩
  rw [State.accordScan_oneEmpty hq (by rw [ea]; exact (hcore _).1.trans hd)
    (by rw [ea]; exact he.imp (hcore _).2.trans (hcore _).2.trans), ea] at hrun
  rw [hrun]
  exact ⟨l, rfl, rfl, State.thr_modThr_same (u.setCore (t.toNat / 4) k) t.toNat (fun th => after th (th.pc + 4)), (State.core_setCore_same u (t.toNat / 4) k).trans hk.symm⟩

end Sys2Proof.Says

/-! PROOF. The words that a Metered thread's buffer takes (03 R81, R82, R84, R91, R92, R96). -/

namespace Sys2Proof.Machine

/-- A core whose buffer holds one entry. -/
def Core.holding (k : Core) (e : CbEntry) : Core := { k with cbuf := [e] }

/-- One entry captured in an empty buffer. -/
def State.captured (s : State) (c : Nat) (e : CbEntry) : State := s.setCore c ((s.core c).holding e)

theorem writeAt_captured {s : State} {t a p : Nat} {bs : List Byte} {e : CbEntry} (hm : (s.thr t).mode = true)
    (hd : dRegion a ≠ .dsram) (he : writeEntries a bs = [e]) (hb : (s.core (t / 4)).cbuf = []) :
    writeAt t a bs (.die p) s = .ok () (s.captured (t / 4) e) := by
  have hc : isCaptured s t a = true := by simp [isCaptured, hm, hd]
  simp only [writeAt, hc, if_true, he, capture_first e hb]
  rfl

/-- A store within an aligned granule that another place than the own data SRAM holds is captured whole. -/
theorem storeNat_captured {s : State} {t : Tid} {a n v p : Nat} (hm : (s.thr t.toNat).mode = true) (hd : dRegion a ≠ .dsram)
    (hp : Says.placeOf s t a n = some p) (ha : a % 8 = 0) (h0 : 0 < n) (h8 : n ≤ 8) (hb : (s.core (t.toNat / 4)).cbuf = []) :
    storeNat t.toNat a n v s = .ok () (s.captured (t.toNat / 4)
      ⟨0, BitVec.ofNat 8 (2 ^ n - 1), BitVec.ofNat 48 a, BitVec.ofNat 64 (leNat (leBytes n v)), 0⟩) := by
  have hlen := leBytes_length n v
  obtain ⟨hr, hpl⟩ := Says.placeOf_some hp true
  have hw : storeNat t.toNat a n v = writeHalf t.toNat a (leBytes n v) := by
    unfold storeNat storeBytes storeSplit
    rw [hlen, firstHalf_whole hr]
    exact if_pos rfl
  rw [hw]
  simp only [writeHalf, bind, EStateM.bind, hlen, hpl, writeAt_captured hm hd (writeEntries_aligned ha hlen h0 h8) hb]

/-- The checks of an atomic on an aligned word of a place that answers. -/
theorem atomicAddr_place {s : State} {t : Tid} {a n p : Nat} (lock : Bool) (ha : a % n = 0)
    (hd : dRegion a = .ownCl ∨ dRegion a = .session ∨ ∃ cl, dRegion a = .glob cl) (hp : Says.placeOf s t a n = some p) (wr : Bool) :
    atomicAddr t.toNat a n lock wr s = .ok p s := by
  have hperm : permitted t.toNat a n wr s = .ok () s := by rw [permitted, (Says.placeOf_some hp wr).2]
  rcases hd with hd | hd | ⟨cl, hd⟩ <;>
    simp only [atomicAddr, ha, ne_eq, not_true_eq_false, if_false, hd, Bool.not_true, Bool.false_eq_true, bind, EStateM.bind, hperm,
      placeOf_phys hp] <;> rfl

theorem capturedByte_nil (c phys : Nat) : capturedByte c [] phys = none := rfl

/-- A Metered read, byte by byte: what the own core has captured there, else what memory holds. -/
theorem readAt_metered {s : State} {t : Nat} (a n p : Nat) (hm : (s.thr t).mode = true) (h : s.Sound) :
    readAt t a n (.die p) s =
      .ok ((List.range n).map (fun i => (capturedByte (t / 4) (s.core (t / 4)).cbuf (p + i)).getD (s.byte (p + i)))) s := by
  simp [readAt, State.badRead, State.correct, State.corrIn, h.1, h.2, hm]

theorem readAt_uncaptured {s : State} {t : Nat} (a n p : Nat) (hm : (s.thr t).mode = true) (h : s.Sound)
    (hb : (s.core (t / 4)).cbuf = []) : readAt t a n (.die p) s = .ok (s.bytes p n) s := by
  simp only [readAt_metered a n p hm h, hb, capturedByte_nil, Option.getD_none, ← State.bytes_eq]

end Sys2Proof.Machine

namespace Sys2Proof.Says

open Sys2Proof.Machine

section

variable {s : State} {t : Tid} {q : Nat}

/-- A word of a Metered thread of an idle pair whose body leaves one entry in its core's buffer. -/
theorem runWord_captures {u : State} {body : M Next} {k : Core} {e : CbEntry} (i : Instr) (hr : Ready s t)
    (hm : (s.thr t.toNat).mode = true) (hq : pairOf (t.toNat / 4) = some q) (hd : (s.core (pairCores q).1).doneAt = none)
    (he : (s.core (pairCores q).1).cbuf = [] ∧ (s.core (pairCores q).2).cbuf = []) (hb : body s = .ok .seq u)
    (hcores : u.cores = (s.setCore (t.toNat / 4) k).cores) (hke : k.cbuf = [e]) (hkd : k.doneAt = (s.core (t.toNat / 4)).doneAt)
    (hst : (u.thr t.toNat).st = (s.thr t.toNat).st) :
    (runWord t i false body s).mem = u.mem ∧ (runWord t i false body s).regs = u.regs ∧
      ((runWord t i false body s).core (t.toNat / 4)).cbuf = [e] ∧
      ((runWord t i false body s).core (t.toNat / 4)).beats = k.beats + beatsOf (s.thr t.toNat) (t.toNat / 4) i ∧
      (runWord t i false body s).thr t.toNat = after (u.thr t.toNat) ((u.thr t.toNat).pc + 4) := by
  have hcore : ∀ c, u.core c = (s.setCore (t.toNat / 4) k).core c := fun c => by rw [State.core, hcores]; rfl
  have hdone : (u.core (pairCores q).1).doneAt = none := by
    rw [hcore]
    by_cases hc : (pairCores q).1 = t.toNat / 4
    · rw [hc, State.core_setCore_same, hkd, ← hc, hd]
    · rw [State.core_setCore_other _ _ hc, hd]
  have hempty : (u.core (pairCores q).1).cbuf = [] ∨ (u.core (pairCores q).2).cbuf = [] := by
    rw [hcore, hcore]
    rcases pairOf_twin hq with hc | hc
    · right
      rw [State.core_setCore_other _ _ (by rw [hc]; exact (pairCores_ne q).symm), he.2]
    · left
      rw [State.core_setCore_other _ _ (by rw [hc]; exact pairCores_ne q), he.1]
  obtain ⟨l, hmem, hregs, hthr, hk⟩ := runWord_metered i hr hb (by rw [Thread.mode, hst]; exact hm)
    (by rw [Thread.mip, hst]; exact hr.mip) hq hdone hempty
  have hown : u.core (t.toNat / 4) = k := (hcore _).trans (State.core_setCore_same ..)
  rw [hown] at hk
  rw [hk]
  exact ⟨hmem, hregs, hke, rfl, hthr⟩

/-- The own buffer of an idle pair is empty. -/
theorem own_empty (hq : pairOf (t.toNat / 4) = some q)
    (he : (s.core (pairCores q).1).cbuf = [] ∧ (s.core (pairCores q).2).cbuf = []) : (s.core (t.toNat / 4)).cbuf = [] := by
  rcases pairOf_twin hq with hc | hc <;> rw [hc]
  · exact he.1
  · exact he.2

theorem withBase_st (th : Thread) (ra : RegNo) (wb : Option Word) : (withBase th ra wb).st = th.st := by
  cases wb with
  | none => rfl
  | some v => exact Thread.set_st ..

theorem storeForm_size {i : Instr} {rs ra : RegNo} {m : BitVec 2} {d : BitVec 12} {n : Nat}
    (h : storeForm i = some (t, rs, ra, m, d, n)) : 0 < n ∧ n ≤ 8 := by
  unfold storeForm at h
  split at h <;> cases h <;> decide

theorem beatsOf_storeForm {i : Instr} {rs ra : RegNo} {m : BitVec 2} {d : BitVec 12} {n : Nat} (th : Thread) (c : Nat)
    (h : storeForm i = some (t, rs, ra, m, d, n)) : beatsOf th c i = memStoreBeats th ra m d n := by
  unfold storeForm at h
  split at h <;> cases h <;> rfl

end

theorem meteredStoresAreCaptured : MeteredStoresAreCaptured := by
  intro s i t rs ra m d n ea wb p q hi hr hm hq he1 he2 hd hop hp hreg hg
  obtain ⟨h0, h8⟩ := storeForm_size hi
  have ha : ea.toNat % 8 = 0 := by
    unfold granule at hg
    omega
  have hbuf := own_empty hq ⟨he1, he2⟩
  have hst := storeNat_captured (v := ((s.thr t.toNat).get rs).toNat) hm hreg hp ha h0 h8 hbuf
  generalize hent : CbEntry.mk _ _ _ _ _ = e at hst
  have hb : storeBody t rs ra m d n s = .ok .seq ((s.captured (t.toNat / 4) e).writeBack t.toNat ra wb) := by
    simp only [storeBody, look, change, bind, EStateM.bind, hop, hst]
    rfl
  obtain ⟨ths, -, hwb⟩ := writeBack_eq (s.captured (t.toNat / 4) e) t.toNat ra wb
  have hthr : ((s.captured (t.toNat / 4) e).writeBack t.toNat ra wb).thr t.toNat = withBase (s.thr t.toNat) ra wb :=
    writeBack_thr ..
  obtain ⟨-, -, hpc⟩ := withBase_mode (s.thr t.toNat) ra wb
  obtain ⟨wmem, -, wbuf, wbeats, wthr⟩ := runWord_captures i hr hm hq hd ⟨he1, he2⟩ hb
    (k := (s.core (t.toNat / 4)).holding e) (by rw [hwb]; rfl) rfl rfl (by rw [hthr, withBase_st])
  have hbeats : beatsOf (s.thr t.toNat) (t.toNat / 4) i = 2 := by
    rw [beatsOf_storeForm _ _ hi, memStoreBeats, hop]
    exact if_pos (firstHalf_whole (placeOf_some hp true).1)
  refine ⟨_, e, exec_storeForm hi s, wmem.trans (by rw [hwb]; rfl), wbuf, ?_, ?_, ?_, ?_, ?_, ?_, ?_⟩
  · rw [← hent]
  · rw [← hent, ← BitVec.ofNat_toNat]
  · rw [← hent]
  · have hlt : ((s.thr t.toNat).get rs).toNat % 256 ^ n < 2 ^ 64 :=
      lt_of_le_of_lt (Nat.mod_le _ _) ((s.thr t.toNat).get rs).isLt
    rw [← hent]
    simp only [BitVec.toNat_ofNat, leNat_leBytes, Nat.mod_eq_of_lt hlt]
  · rw [wbeats, hbeats]
    rfl
  · rw [wthr, hthr]
    rfl
  · rw [wthr, hthr, hpc]
    rfl

end Sys2Proof.Says

/-! PROOF. Actions that a Metered thread's buffer takes, and loads of the bytes it holds (03 R96, R97; 08 R266, R267). -/

namespace Sys2Proof.Machine

theorem State.captured_modCore (s : State) (c : Nat) (e : CbEntry) (f : Core → Core) :
    (s.captured c e).modCore c f = s.setCore c (f ((s.core c).holding e)) := by
  rw [State.modCore, State.captured, State.core_setCore_same, State.setCore_setCore]

theorem State.dropResv_thr (s : State) (t n : Nat) : (s.dropResv t).thr n = s.thr n := rfl

/-! ### Captured bytes -/

theorem leBytes_range (n : Nat) : ∀ v, leBytes n v = (List.range n).map (fun i => BitVec.ofNat 8 (v / 256 ^ i)) := by
  induction n with
  | zero => intro v; rfl
  | succ n ih =>
    intro v
    rw [leBytes, ih, List.range_succ_eq_map, List.map_cons, List.map_map]
    congr 1
    · simp
    · exact List.map_congr_left fun i _ => by
        rw [Function.comp_apply, Nat.div_div_eq_div_mul, Nat.pow_succ, Nat.mul_comm]

theorem ofNat_leNat_leBytes (v : Word) : BitVec.ofNat 64 (leNat (leBytes 8 v.toNat)) = v := by
  rw [leNat_leBytes, show 256 ^ 8 = 2 ^ 64 from rfl, Nat.mod_eq_of_lt v.isLt, BitVec.ofNat_toNat, BitVec.setWidth_eq]

/-- What a buffer of one full granule at `p` gives for a byte there. -/
theorem capturedByte_granule {c p i : Nat} {e : CbEntry} (hp : p % 8 = 0) (hi : i < 8) (hm : e.mask = 0xFF)
    (he : physOf c e.addr.toNat = p) :
    capturedByte c [e] (p + i) = if e.kind = 0 ∨ e.kind = 2 then some (BitVec.ofNat 8 (e.data.toNat / 256 ^ i)) else none := by
  have hmod : (p + i) % 8 = i := by omega
  have hg : granule (p + i) = p := by
    unfold granule
    omega
  have hbit : bitOf 255 i = true := by
    interval_cases i <;> decide
  simp [capturedByte, he, hg, hm, hmod, hbit]

/-- A Metered read of a granule that the one entry of the own buffer names. -/
theorem readAt_granule {s : State} {t p : Nat} {e : CbEntry} (a : Nat) (hmode : (s.thr t).mode = true) (h : s.Sound)
    (hb : (s.core (t / 4)).cbuf = [e]) (hp : p % 8 = 0) (hm : e.mask = 0xFF) (he : physOf (t / 4) e.addr.toNat = p) :
    readAt t a 8 (.die p) s =
      .ok (if e.kind = 0 ∨ e.kind = 2 then leBytes 8 e.data.toNat else s.bytes p 8) s := by
  rw [readAt_metered a 8 p hmode h, hb]
  congr 1
  split
  · rw [leBytes_range]
    exact List.map_congr_left fun i hi => by
      rw [capturedByte_granule hp (List.mem_range.mp hi) hm he, if_pos ‹_›, Option.getD_some]
  · rw [State.bytes_eq]
    exact List.map_congr_left fun i hi => by
      rw [capturedByte_granule hp (List.mem_range.mp hi) hm he, if_neg ‹_›, Option.getD_none]

/-- A load of a Metered thread reads its place past the data cache. -/
theorem loadNat_place {s : State} {t : Tid} {a n p : Nat} {bs : List Byte} (hm : (s.thr t.toNat).mode = true)
    (hp : Says.placeOf s t a n = some p) (hr : readAt t.toNat a n (.die p) s = .ok bs s) :
    loadNat t.toNat a n s = .ok (leNat bs) s := by
  obtain ⟨hreg, hpl⟩ := Says.placeOf_some hp false
  have hl : loadBytes t.toNat a n s = .ok bs s := by
    unfold loadBytes
    rw [firstHalf_whole hreg, if_pos rfl]
    have hc : s.dCached t.toNat a = false := by simp [State.dCached, hm]
    simp only [bind, EStateM.bind, hpl, loadAt, hc, Bool.false_eq_true, if_false, hr]
  simp only [loadNat, bind, EStateM.bind, hl]
  rfl

/-- Aligned addresses of clusters and of the Session Store have aligned places, and fit the entries of a buffer. -/
theorem place_granule {s : State} {t : Tid} {a p : Nat} (ha : a % 8 = 0)
    (hd : dRegion a = .ownCl ∨ dRegion a = .session) (hp : Says.placeOf s t a 8 = some p) : p % 8 = 0 ∧ a < 2 ^ 48 := by
  have hlt : a < 2 ^ 48 := by
    by_contra hc
    have hu : dRegion a = .unmapped := by
      unfold dRegion
      rw [if_neg (by omega), if_neg (by omega), if_neg (by omega), if_neg (by omega), if_neg (by omega), if_neg (by omega)]
    rcases hd with hd | hd <;> rw [hu] at hd <;> cases hd
  refine ⟨?_, hlt⟩
  rw [← placeOf_phys hp]
  rcases hd with hd | hd <;> simp only [physOf, hd]
  · unfold clusterBase
    omega
  · exact ha

/-! ### The bodies -/

section

variable {s : State} {t : Tid} {ra : RegNo} {a p : Nat}

theorem relsBody_captured {rank : BitVec 4} (hm : (s.thr t.toNat).mode = true) (ha : ((s.thr t.toNat).get ra).toNat = a)
    (hal : a % 8 = 0) (hd : dRegion a = .ownCl ∨ dRegion a = .session ∨ ∃ cl, dRegion a = .glob cl)
    (hp : Says.placeOf s t a 8 = some p) (hb : (s.core (t.toNat / 4)).cbuf = []) :
    relsBody t ra rank s = .ok .seq
      ((s.captured (t.toNat / 4) ⟨2, 0xFF, BitVec.ofNat 48 a, 0, rank.setWidth 16⟩).modThr t.toNat
        (fun h => { h with held := h.held &&& ~~~ (1#16 <<< rank.toNat) })) := by
  have hcap := capture_first (s := s) ⟨2, 0xFF, BitVec.ofNat 48 (granule a), 0, rank.setWidth 16⟩ hb
  rw [granule_aligned hal] at hcap
  simp only [relsBody, look, change, bind, EStateM.bind, ha, atomicAddr_place true hal hd hp, (Says.placeOf_some hp true).2, hm, if_true,
    granule_aligned hal, hcap]
  rfl

theorem tasBody_captured {rd : RegNo} {rank : BitVec 4} (hm : (s.thr t.toNat).mode = true) (hs : s.Sound)
    (ha : ((s.thr t.toNat).get ra).toNat = a) (hal : a % 8 = 0)
    (hd : dRegion a = .ownCl ∨ dRegion a = .session ∨ ∃ cl, dRegion a = .glob cl) (hp : Says.placeOf s t a 8 = some p)
    (hb : (s.core (t.toNat / 4)).cbuf = []) (hrank : (s.thr t.toNat).rankchk = false) (hfree : leNat (s.bytes p 8) = 0) :
    tasBody t rd ra rank s = .ok .seq
      (((s.captured (t.toNat / 4) ⟨1, 0xFF, BitVec.ofNat 48 a, BitVec.ofNat 64 (t.toNat + 1), rank.setWidth 16⟩).modThr t.toNat
        (fun h => { h with held := h.held ||| (1#16 <<< rank.toNat), spin := none })).setG t.toNat rd 0) := by
  have hcap := capture_first (s := s) ⟨1, 0xFF, BitVec.ofNat 48 (granule a), BitVec.ofNat 64 (t.toNat + 1), rank.setWidth 16⟩ hb
  rw [granule_aligned hal] at hcap
  have hread : atomicRead t.toNat a 8 s = .ok 0 s := by
    simp only [atomicRead, readHalf, bind, EStateM.bind, (Says.placeOf_some hp false).2, readAt_uncaptured a 8 p hm hs hb]
    exact congrArg (EStateM.Result.ok · s) hfree
  simp only [tasBody, look, change, bind, EStateM.bind, ha, atomicAddr_place true hal hd hp, hrank, Bool.false_and,
    Bool.false_eq_true, if_false, hread, if_true, hm, granule_aligned hal, hcap]
  rfl

theorem scBody_captured {rd rb : RegNo} (hm : (s.thr t.toNat).mode = true) (ha : ((s.thr t.toNat).get ra).toNat = a)
    (hal : a % 8 = 0) (hd : dRegion a = .ownCl ∨ dRegion a = .session ∨ ∃ cl, dRegion a = .glob cl)
    (hp : Says.placeOf s t a 8 = some p) (hb : (s.core (t.toNat / 4)).cbuf = []) (hres : (t.toNat, resGranule p) ∈ s.resvs) :
    scBody t rd ra rb 8 s = .ok .seq
      (((((s.captured (t.toNat / 4) ⟨3, 0xFF, BitVec.ofNat 48 a, (s.thr t.toNat).get rb, 0⟩).modCore (t.toNat / 4)
        (fun c => { c with scHit := c.scHit ++ [(0, resGranule p, false)] })).modThr t.toNat
        (fun h => { h with spin := none })).dropResv t.toNat).setG t.toNat rd 0) := by
  have hes : (writeEntries a (leBytes 8 ((s.thr t.toNat).get rb).toNat)).map (fun e => { e with kind := 3 }) =
      [⟨3, 0xFF, BitVec.ofNat 48 a, (s.thr t.toNat).get rb, 0⟩] := by
    rw [writeEntries_aligned hal (leBytes_length _ _) (by decide) (by decide), ofNat_leNat_leBytes]
    rfl
  have hcap := capture_first (s := s) ⟨3, 0xFF, BitVec.ofNat 48 a, (s.thr t.toNat).get rb, 0⟩ hb
  have hnd : (dRegion a != .dsram) = true := by
    rcases hd with hd | hd | ⟨cl, hd⟩ <;> rw [hd] <;> rfl
  have hheld : s.resvs.contains (t.toNat, resGranule p) = true := List.contains_iff_mem.mpr hres
  simp only [scBody, look, change, bind, EStateM.bind, ha, atomicAddr_place false hal hd hp, (Says.placeOf_some hp true).2, hheld,
    if_true, hm, hnd, Bool.and_self, hes, hb, List.length_nil, hcap]
  rfl

end

end Sys2Proof.Machine

namespace Sys2Proof.Says

open Sys2Proof.Machine

section

variable {s : State} {t : Tid} {q : Nat}

/-- Thread `t` has a word captured as `e`: memory and the register blocks stay, and the thread is `th` but for its control. -/
def Takes (s s' : State) (t : Tid) (e : CbEntry) (th : Thread) : Prop :=
  s'.mem = s.mem ∧ s'.regs = s.regs ∧ (s'.core (t.toNat / 4)).cbuf = [e] ∧
    (s'.thr t.toNat).regs = th.regs ∧ (s'.thr t.toNat).held = th.held ∧ (s'.thr t.toNat).pc = (s.thr t.toNat).pc + 4

/-- Thread `t` is Metered and about to issue, and its pair has captured nothing and not issued DONE. -/
structure Fresh (s : State) (t : Tid) (q : Nat) : Prop where
  ready : Ready s t
  metered : (s.thr t.toNat).mode = true
  twin : pairOf (t.toNat / 4) = some q
  notDone : (s.core (pairCores q).1).doneAt = none
  empty : (s.core (pairCores q).1).cbuf = [] ∧ (s.core (pairCores q).2).cbuf = []

theorem Fresh.own (h : Fresh s t q) : (s.core (t.toNat / 4)).cbuf = [] := own_empty h.twin h.empty

/-- A word of a fresh pair that leaves one entry in its core's buffer is captured. -/
theorem runWord_takes {u : State} {body : M Next} {e : CbEntry} {th : Thread} (i : Instr) (h : Fresh s t q) (k : Core)
    (hb : body s = .ok .seq u) (hmem : u.mem = s.mem) (hregs : u.regs = s.regs)
    (hcores : u.cores = (s.setCore (t.toNat / 4) k).cores) (hke : k.cbuf = [e]) (hkd : k.doneAt = (s.core (t.toNat / 4)).doneAt)
    (hthr : u.thr t.toNat = th) (hst : th.st = (s.thr t.toNat).st) (hpc : th.pc = (s.thr t.toNat).pc) :
    Takes s (runWord t i false body s) t e th := by
  obtain ⟨hr, hm, hq, hd, he⟩ := h
  obtain ⟨wmem, wregs, wbuf, -, wthr⟩ := runWord_captures i hr hm hq hd he hb hcores hke hkd (by rw [hthr, hst])
  rw [hthr, hpc] at wthr
  refine ⟨wmem.trans hmem, wregs.trans hregs, wbuf, ?_, ?_, ?_⟩ <;> rw [wthr] <;> rfl

theorem Takes.congr {s' : State} {e : CbEntry} {x y : Thread} (h : Takes s s' t e x) (hr : x.regs = y.regs) (hh : x.held = y.held) :
    Takes s s' t e y := by
  obtain ⟨h1, h2, h3, h4, h5, h6⟩ := h
  exact ⟨h1, h2, h3, h4.trans hr, h5.trans hh, h6⟩

variable {ra rd rb : RegNo} {a p : Nat}

theorem rels_takes {rank : BitVec 4} (h : Fresh s t q) (ha : ((s.thr t.toNat).get ra).toNat = a)
    (hal : a % 8 = 0) (hd : dRegion a = .ownCl ∨ dRegion a = .session ∨ ∃ cl, dRegion a = .glob cl)
    (hp : placeOf s t a 8 = some p) :
    Takes s (runWord t (.rels t ra rank) false (relsBody t ra rank) s) t ⟨2, 0xFF, BitVec.ofNat 48 a, 0, rank.setWidth 16⟩
      { s.thr t.toNat with held := (s.thr t.toNat).held &&& ~~~ (1#16 <<< rank.toNat) } :=
  runWord_takes _ h _ (relsBody_captured h.metered ha hal hd hp h.own) rfl rfl rfl rfl rfl (State.thr_modThr_same ..) rfl rfl

theorem tas_takes {rank : BitVec 4} {body : M Next} (hbody : body s = tasBody t rd ra rank s) (h : Fresh s t q) (hs : s.Sound) (ha : ((s.thr t.toNat).get ra).toNat = a)
    (hal : a % 8 = 0) (hd : dRegion a = .ownCl ∨ dRegion a = .session ∨ ∃ cl, dRegion a = .glob cl)
    (hp : placeOf s t a 8 = some p) (hrank : (s.thr t.toNat).rankchk = false) (hfree : leNat (s.bytes p 8) = 0) :
    Takes s (runWord t (.tas t rd ra rank) false body s) t
      ⟨1, 0xFF, BitVec.ofNat 48 a, BitVec.ofNat 64 (t.toNat + 1), rank.setWidth 16⟩
      { (s.thr t.toNat).set rd 0 with held := (s.thr t.toNat).held ||| (1#16 <<< rank.toNat) } := by
  refine (runWord_takes _ h _ (hbody.trans (tasBody_captured h.metered hs ha hal hd hp h.own hrank hfree)) rfl rfl rfl rfl rfl
    (th := ({ s.thr t.toNat with held := (s.thr t.toNat).held ||| (1#16 <<< rank.toNat), spin := none } : Thread).set rd 0)
    ?_ ?_ ?_).congr ?_ ?_
  · rw [State.setG_thr_same, State.thr_modThr_same]
    rfl
  · exact Thread.set_st ..
  · exact Thread.set_pc ..
  · exact Thread.set_regs_congr (y := s.thr t.toNat)
      (x := { s.thr t.toNat with held := (s.thr t.toNat).held ||| (1#16 <<< rank.toNat), spin := none }) rfl rd 0
  · exact Thread.set_held ..

theorem sc_takes (h : Fresh s t q) (ha : ((s.thr t.toNat).get ra).toNat = a)
    (hal : a % 8 = 0) (hd : dRegion a = .ownCl ∨ dRegion a = .session ∨ ∃ cl, dRegion a = .glob cl)
    (hp : placeOf s t a 8 = some p) (hres : (t.toNat, resGranule p) ∈ s.resvs) :
    Takes s (runWord t (.sc t rd ra rb) false (scBody t rd ra rb 8) s) t
      ⟨3, 0xFF, BitVec.ofNat 48 a, (s.thr t.toNat).get rb, 0⟩ ((s.thr t.toNat).set rd 0) := by
  have hcm := s.captured_modCore (t.toNat / 4) ⟨3, 0xFF, BitVec.ofNat 48 a, (s.thr t.toNat).get rb, 0⟩
    (fun c => { c with scHit := c.scHit ++ [(0, resGranule p, false)] })
  have hb := scBody_captured (rd := rd) (rb := rb) h.metered ha hal hd hp h.own hres
  rw [hcm] at hb
  refine (runWord_takes _ h _ hb rfl rfl rfl rfl rfl
    (th := ({ s.thr t.toNat with spin := none } : Thread).set rd 0) ?_ ?_ ?_).congr ?_ ?_
  · rw [State.setG_thr_same, State.dropResv_thr, State.thr_modThr_same]
    rfl
  · exact Thread.set_st ..
  · exact Thread.set_pc ..
  · exact Thread.set_regs_congr (x := { s.thr t.toNat with spin := none }) (y := s.thr t.toNat) rfl rd 0
  · rw [Thread.set_held, Thread.set_held]

theorem out_takes {imm : BitVec 14} {d : RegDesc} {k b : Nat} (h : Fresh s t q)
    (hreach : reaches s t (ioSumOf (s.thr t.toNat) ra imm) d k b) (hw : stewardOnly d.base = true → (s.thr t.toNat).priv = true)
    (hal : ioSumOf (s.thr t.toNat) ra imm % 4 = 0) :
    Takes s (runWord t (.out t rb ra imm) false (outBody t rb ra imm) s) t
      ⟨4, 0x0F, BitVec.ofNat 48 (ioSumOf (s.thr t.toNat) ra imm), (((s.thr t.toNat).get rb).setWidth 32).setWidth 64, 0⟩
      (s.thr t.toNat) := by
  have hcap := capture_first (s := s)
    (outEntry (ioSumOf (s.thr t.toNat) ra imm) 0x0F ((((s.thr t.toNat).get rb).setWidth 32).setWidth 64)) h.own
  have hb : outBody t rb ra imm s = .ok .seq (s.captured (t.toNat / 4)
      ⟨4, 0x0F, BitVec.ofNat 48 (ioSumOf (s.thr t.toNat) ra imm), (((s.thr t.toNat).get rb).setWidth 32).setWidth 64, 0⟩) := by
    simp only [outBody, look, bind, EStateM.bind, ioAddr_aligned hal, h.metered, if_true, ioCheck_reaches hreach true (fun _ => hw), hcap]
    rfl
  exact runWord_takes _ h _ hb rfl rfl rfl rfl rfl rfl rfl rfl

theorem istore_takes {imm : BitVec 14} (h : Fresh s t q)
    (hal : ((s.thr t.toNat).get ra + imm.signExtend 64).toNat % 2 ^ 32 % 4 = 0)
    (hlow : ((s.thr t.toNat).get ra + imm.signExtend 64).toNat % 2 ^ 32 < 0x8000) :
    Takes s (runWord t (.istore t rb ra imm) false (istoreBody t rb ra imm) s) t
      ⟨5, 0x0F, BitVec.ofNat 48 (((s.thr t.toNat).get ra + imm.signExtend 64).toNat % 2 ^ 32),
        (((s.thr t.toNat).get rb).setWidth 32).setWidth 64, 0⟩ (s.thr t.toNat) := by
  generalize hi : ((s.thr t.toNat).get ra + imm.signExtend 64).toNat % 2 ^ 32 = i at hal hlow ⊢
  have haddr : instrAddr ((s.thr t.toNat).get ra + imm.signExtend 64) s = .ok i s := by
    simp only [instrAddr, hi, hal, ne_eq, not_true_eq_false, if_false]
    rfl
  have hreg : iRegion i = .isram := if_pos hlow
  have hcap := capture_first (s := s)
    ⟨5, 0x0F, BitVec.ofNat 48 i, (((s.thr t.toNat).get rb).setWidth 32).setWidth 64, 0⟩ h.own
  have hb : istoreBody t rb ra imm s = .ok .seq (s.captured (t.toNat / 4)
      ⟨5, 0x0F, BitVec.ofNat 48 i, (((s.thr t.toNat).get rb).setWidth 32).setWidth 64, 0⟩) := by
    simp only [istoreBody, look, change, bind, EStateM.bind, haddr, writeInstr, hreg, h.metered, if_true, hcap]
    rfl
  exact runWord_takes _ h _ hb rfl rfl rfl rfl rfl rfl rfl rfl

/-- A Metered load from a place that answers, while the other Twin has captured nothing. -/
theorem ldd_metered {m : BitVec 2} {d : BitVec 12} {ea : Word} {wb : Option Word} {bs : List Byte} (hr : Ready s t)
    (hm : (s.thr t.toNat).mode = true) (hq : pairOf (t.toNat / 4) = some q) (hd : (s.core (pairCores q).1).doneAt = none)
    (hother : ∀ c, c = (pairCores q).1 ∨ c = (pairCores q).2 → c ≠ t.toNat / 4 → (s.core c).cbuf = [])
    (hop : memOperand (s.thr t.toNat) (some rd) ra m d = some (ea, wb)) (hp : placeOf s t ea.toNat 8 = some p)
    (hread : readAt t.toNat ea.toNat 8 (.die p) s = .ok bs s) :
    ∃ s', exec (.ldd t rd ra m d) s = .next s' ∧ s'.mem = s.mem ∧
      (s'.thr t.toNat).regs = (withBase ((s.thr t.toNat).set rd (BitVec.ofNat 64 (leNat bs))) ra wb).regs ∧
      (s'.thr t.toNat).pc = (s.thr t.toNat).pc + 4 := by
  have hb : loadBody t rd ra m d 8 false s =
      .ok .seq ((s.setG t.toNat rd (BitVec.ofNat 64 (leNat bs))).writeBack t.toNat ra wb) := by
    simp only [loadBody, look, change, bind, EStateM.bind, hop, loadNat_place hm hp hread, Bool.false_eq_true, if_false]
    rfl
  obtain ⟨ths, -, hwb⟩ := writeBack_eq (s.setG t.toNat rd (BitVec.ofNat 64 (leNat bs))) t.toNat ra wb
  have hthr : ((s.setG t.toNat rd (BitVec.ofNat 64 (leNat bs))).writeBack t.toNat ra wb).thr t.toNat =
      withBase ((s.thr t.toNat).set rd (BitVec.ofNat 64 (leNat bs))) ra wb := by rw [writeBack_thr, State.setG_thr_same]
  obtain ⟨hwmode, hwmip, hwpc⟩ := withBase_mode ((s.thr t.toNat).set rd (BitVec.ofNat 64 (leNat bs))) ra wb
  have hempty : (s.core (pairCores q).1).cbuf = [] ∨ (s.core (pairCores q).2).cbuf = [] := by
    rcases pairOf_twin hq with hc | hc
    · exact .inr (hother _ (.inr rfl) (by rw [hc]; exact (pairCores_ne q).symm))
    · exact .inl (hother _ (.inl rfl) (by rw [hc]; exact pairCores_ne q))
  obtain ⟨l, wmem, -, wthr, -⟩ := runWord_metered (.ldd t rd ra m d) hr hb
    (by rw [hthr, hwmode, Thread.set_mode]; exact hm) (by rw [hthr, hwmip, Thread.set_mip]; exact hr.mip) hq
    (by rw [hwb]; exact hd) (by rw [hwb]; exact hempty)
  rw [hthr, hwpc, Thread.set_pc] at wthr
  refine ⟨_, rfl, wmem.trans (by rw [hwb]; rfl), ?_, ?_⟩
  · exact (congrArg Thread.regs wthr).trans rfl
  · exact (congrArg Thread.pc wthr).trans rfl

end

theorem meteredActionsAreCaptured : MeteredActionsAreCaptured := by
  intro s t rd ra rb q hr hm hc hq hd th a empty captured
  have fresh : empty → Fresh s t q := fun he => ⟨hr, hm, hq, hd, he⟩
  refine ⟨fun rank p he hal hreg hp => ⟨⟨_, rfl, rels_takes (fresh he) rfl hal hreg hp⟩, fun hhook hrank hfree => ?_,
    fun hres => ⟨_, rfl, sc_takes (fresh he) rfl hal hreg hp hres⟩⟩, fun imm d k b he hreach hw hal =>
    ⟨_, rfl, out_takes (fresh he) hreach hw hal⟩, fun imm he => ?_, ?_⟩
  · refine ⟨_, rfl, tas_takes ?_ (fresh he) hc.sound rfl hal hreg hp hrank hfree⟩
    split
    · rfl
    · exact microOr_unhooked _ _ _ _ _ _ hhook
  · intro i hal hlow
    exact ⟨_, rfl, istore_takes (fresh he) hal hlow⟩
  · intro m d ea wb p kind mask v aux hop hg hreg hp hbuf hmask hother
    have hal : ea.toNat % 8 = 0 := by
      unfold granule at hg
      omega
    obtain ⟨hpal, hlt⟩ := place_granule hal hreg hp
    have haddr : physOf (t.toNat / 4) (ea.setWidth 48).toNat = p := by
      rw [BitVec.toNat_setWidth, Nat.mod_eq_of_lt hlt, placeOf_phys hp]
    have hread := readAt_granule ea.toNat hm hc.sound hbuf hpal hmask haddr
    obtain ⟨s', hx, hmem, hregs, hpc⟩ := ldd_metered hr hm hq hd hother hop hp hread
    refine ⟨s', hx, hmem, ?_, hpc⟩
    rw [hregs]
    by_cases hk : kind = 0 ∨ kind = 2
    · rw [if_pos hk, if_pos hk, ofNat_leNat_leBytes]
    · rw [if_neg hk, if_neg hk]

/-- Settles O24: the pair has captured nothing, so the word's entry is the one its buffer holds, and the Accord has nothing to
compare. -/
theorem meteredCaptures : Obligations.MeteredCaptures := ⟨meteredStoresAreCaptured, meteredActionsAreCaptured⟩

end Sys2Proof.Says

/-! PROOF. What the operations of the near Annex share: operand blocks at places that answer, the unit's turn, outputs and rd
(03 R99, R100). -/

namespace Sys2Proof.Machine

/-! ### Places -/

theorem dRegion_ownCl_le {a : Nat} (h : dRegion a = .ownCl) : 0x10000000 ≤ a := by
  by_contra hc
  unfold dRegion at h
  simp only [show ¬ 0x10000000 ≤ a by omega, show ¬ 0x1000000000 ≤ a by omega, show ¬ 0x2000000000 ≤ a by omega,
    show ¬ 0x3000000000 ≤ a by omega, show ¬ 0x800000000000 ≤ a by omega, false_and, if_false] at h
  split at h <;> cases h

/-- A part of an area lies at the same part of its place. -/
theorem placeOf_part {s : State} {t : Tid} {a n p : Nat} (h : Says.placeOf s t a n = some p) {o k : Nat} (hk : o + k ≤ n)
    (ho : o < n) : Says.placeOf s t (a + o) k = some (p + o) := by
  obtain ⟨hreg, -⟩ := Says.placeOf_some h false
  have hd : dRegion (a + o) = dRegion a := hreg o ho
  have hsame : ((List.range k).any fun i => dRegion (a + o + i) != dRegion (a + o)) = false := by
    rw [List.any_eq_false]
    intro i hi
    rw [hd, Nat.add_assoc, hreg (o + i) (by rw [List.mem_range] at hi; omega)]
    simp
  have hrows : ((List.range n).any fun i => s.assay.withdrawn.contains (rowUnit (a + i))) = false →
      ((List.range k).any fun i => s.assay.withdrawn.contains (rowUnit (a + o + i))) = false := by
    simp only [List.any_eq_false, List.mem_range]
    intro hn i hi
    rw [Nat.add_assoc]
    exact hn (o + i) (by omega)
  unfold Says.placeOf at h ⊢
  rw [hsame, hd]
  split at h
  · cases h
  · rw [if_neg (by decide)]
    split at h <;> rename_i he
    · rw [← Option.some.inj h, ← Nat.add_assoc]
    · split at h
      · rw [if_pos ‹_›, ← Option.some.inj h, Nat.sub_add_comm (dRegion_ownCl_le he), ← Nat.add_assoc]
      · cases h
    · split at h
      · rw [if_pos ‹_›, ← Option.some.inj h]
      · cases h
    · split at h
      · cases h
      · rename_i hc
        simp only [Bool.or_eq_true, not_or, Bool.not_eq_true] at hc
        rw [hrows hc.1, hc.2, ← Option.some.inj h]
        rfl
    · split at h
      · cases h
      · rename_i hc
        simp only [Bool.or_eq_true, not_or, Bool.not_eq_true] at hc
        rw [hrows hc.1, hc.2, ← Option.some.inj h]
        rfl
    · cases h

/-- A store changes nothing that places depend on. -/
theorem placeOf_store (s : State) (who : Option Nat) (x : Nat) (bs : List Byte) (t : Tid) (a n : Nat) :
    Says.placeOf (s.store who x bs) t a n = Says.placeOf s t a n := by
  obtain ⟨_, _, _, _, _, _, e⟩ := s.store_eq who x bs
  rw [e]
  rfl

/-! ### Operand blocks -/

section

variable {s : State} {t : Tid} {a n p : Nat}

theorem blockRead_place (hm : (s.thr t.toNat).mode = false) (hs : s.Sound) (hp : Says.placeOf s t a n = some p) :
    blockRead t.toNat a n s = .ok (s.bytes p n) s := by
  obtain ⟨hreg, hpl⟩ := Says.placeOf_some hp false
  rw [blockRead, firstHalf_whole hreg, if_pos rfl]
  simp only [readHalf, bind, EStateM.bind, hpl, readAt_die a n p hm hs]

theorem blockPermit_place (wr : Bool) (hp : Says.placeOf s t a n = some p) : blockPermit t.toNat a n wr s = .ok () s := by
  obtain ⟨hreg, hpl⟩ := Says.placeOf_some hp wr
  rw [blockPermit, firstHalf_whole hreg, if_pos rfl, permitted, hpl]

theorem blockCheck_place (hs : s.Sound) (hp : Says.placeOf s t a n = some p) : blockCheck t.toNat a n s = .ok () s := by
  obtain ⟨hreg, hpl⟩ := Says.placeOf_some hp true
  have hbad : s.badWrite p n = false := by simp [State.badWrite, hs.2]
  rw [blockCheck, firstHalf_whole hreg, if_pos rfl]
  simp only [checkHalf, checkDie, bind, EStateM.bind, hpl, hbad, Bool.and_false, Bool.false_eq_true, if_false]

theorem blockWrite_place {bs : List Byte} (hm : (s.thr t.toNat).mode = false) (hs : s.Sound)
    (hp : Says.placeOf s t a bs.length = some p) :
    blockWrite t.toNat a bs s = .ok () (s.store (some t.toNat) p bs) := by
  obtain ⟨hreg, hpl⟩ := Says.placeOf_some hp true
  rw [blockWrite, firstHalf_whole hreg, if_pos rfl]
  simp only [writeHalf, bind, EStateM.bind, hpl, writeAt_die hm hs.1 hs.2]

/-! ### The start of an operation -/

theorem annexTurn_free {u : Nat} (h : Says.annexFree s t) (hu : u < 8) : annexTurn t.toNat u s = .ok () s := by
  obtain ⟨hslot, hpass⟩ := h
  simp only [annexTurn, hslot, Bool.not_true, Bool.false_and, Bool.false_eq_true, if_false, hpass u hu, if_true]

/-- The blocks of an operation all answer. -/
def Answer (s : State) (t : Tid) (bs : List (Nat × Nat × Bool)) : Prop := ∀ b ∈ bs, (Says.placeOf s t b.1 b.2.1).isSome = true

theorem Answer.nil : Answer s t [] := fun _ h => nomatch h

theorem Answer.cons {b : Nat × Nat × Bool} {bs : List (Nat × Nat × Bool)} (hb : Says.placeOf s t b.1 b.2.1 = some p)
    (h : Answer s t bs) : Answer s t (b :: bs) := by
  intro x hx
  rcases List.mem_cons.mp hx with rfl | hx
  · rw [hb]
    rfl
  · exact h x hx

theorem annexStart_free {u : Nat} {bs : List (Nat × Nat × Bool)} (h : Says.annexFree s t) (hu : u < 8) (hbs : Answer s t bs) :
    annexStart t.toNat u bs s = .ok () s := by
  have hperm : ∀ l : List (Nat × Nat × Bool), Answer s t l →
      (l.forM (fun b => blockPermit t.toNat b.1 b.2.1 b.2.2) : M Unit) s = .ok () s := by
    intro l
    induction l with
    | nil => exact fun _ => rfl
    | cons b bs ih =>
      intro hl
      obtain ⟨p, hp⟩ := Option.isSome_iff_exists.mp (hl b (.head _))
      simp only [List.forM_eq_forM, List.forM_cons, bind, EStateM.bind, blockPermit_place b.2.2 hp]
      exact ih (fun x hx => hl x (.tail _ hx))
  simp only [annexStart, bind, EStateM.bind, hperm bs hbs, annexTurn_free h hu]

theorem aligned8_ok (h : a % 8 = 0) : aligned8 a s = .ok () s := by
  rw [aligned8, if_neg (by simpa using h)]
  rfl

/-! ### Outputs -/

/-- An output of an operation: the bytes, their address and their place. -/
structure Output where
  addr : Nat
  place : Nat
  bytes : List Byte

/-- The outputs of an operation of thread `t`, stored in order. -/
def State.storeAll (s : State) (t : Nat) : List Output → State
  | [] => s
  | w :: ws => (s.store (some t) w.place w.bytes).storeAll t ws

/-- The outputs all go to places that answer. -/
def Outputs (s : State) (t : Tid) (ws : List Output) : Prop :=
  ∀ w ∈ ws, Says.placeOf s t w.addr w.bytes.length = some w.place

theorem Outputs.store {ws : List Output} (h : Outputs s t ws) (who : Option Nat) (x : Nat) (bs : List Byte) :
    Outputs (s.store who x bs) t ws := fun w hw => (placeOf_store ..).trans (h w hw)

theorem State.storeAll_eq (ws : List Output) : ∀ (s : State) (t : Nat),
    ∃ m c u ca rv cs, s.storeAll t ws = { s with mem := m, eccC := c, eccU := u, caches := ca, resvs := rv, cores := cs } := by
  induction ws with
  | nil => exact fun s t => ⟨_, _, _, _, _, _, rfl⟩
  | cons w ws ih =>
    intro s t
    obtain ⟨_, _, _, _, _, _, e⟩ := ih (s.store (some t) w.place w.bytes) t
    obtain ⟨_, _, _, _, _, _, e'⟩ := s.store_eq (some t) w.place w.bytes
    rw [State.storeAll, e, e']
    exact ⟨_, _, _, _, _, _, rfl⟩

theorem State.storeAll_thr (s : State) (t : Nat) (ws : List Output) (u : Nat) : (s.storeAll t ws).thr u = s.thr u := by
  obtain ⟨_, _, _, _, _, _, e⟩ := State.storeAll_eq ws s t
  rw [e]
  rfl

theorem State.storeAll_resvs {r : Nat × Nat} (ws : List Output) : ∀ (s : State) (t : Nat),
    r ∈ (s.storeAll t ws).resvs → r ∈ s.resvs := by
  induction ws with
  | nil => exact fun s t h => h
  | cons w ws ih => exact fun s t h => ((State.store_resvs ..).mp (ih _ t h)).1

theorem State.storeAll_byte_outside {x : Nat} (ws : List Output) : ∀ (s : State) (t : Nat),
    (∀ w ∈ ws, x < w.place ∨ w.place + w.bytes.length ≤ x) → (s.storeAll t ws).byte x = s.byte x := by
  induction ws with
  | nil => exact fun s t _ => rfl
  | cons w ws ih =>
    intro s t h
    rw [State.storeAll, ih _ t (fun v hv => h v (.tail _ hv)), State.store_byte_outside _ _ _ _ _ (h w (.head _))]

theorem outputs_places {ws : List Output} (hm : (s.thr t.toNat).mode = false) (hs : s.Sound) (hw : Outputs s t ws) :
    outputs t.toNat (ws.map (fun w => (w.addr, w.bytes))) s = .ok () (s.storeAll t.toNat ws) := by
  have hcheck : ∀ l : List Output, Outputs s t l →
      ((l.map (fun w => (w.addr, w.bytes))).forM (fun w => blockCheck t.toNat w.1 w.2.length) : M Unit) s = .ok () s := by
    intro l
    induction l with
    | nil => exact fun _ => rfl
    | cons w ws ih =>
      intro hl
      simp only [List.map_cons, List.forM_eq_forM, List.forM_cons, bind, EStateM.bind, blockCheck_place hs (hl w (.head _))]
      exact ih (fun x hx => hl x (.tail _ hx))
  have hwrite : ∀ (l : List Output) (s : State), (s.thr t.toNat).mode = false → s.Sound → Outputs s t l →
      ((l.map (fun w => (w.addr, w.bytes))).forM (fun w => blockWrite t.toNat w.1 w.2) : M Unit) s =
        .ok () (s.storeAll t.toNat l) := by
    intro l
    induction l with
    | nil => exact fun s _ _ _ => rfl
    | cons w ws ih =>
      intro s hm hs hl
      simp only [List.map_cons, List.forM_eq_forM, List.forM_cons, bind, EStateM.bind, blockWrite_place hm hs (hl w (.head _))]
      exact ih _ (by rw [State.store_thr]; exact hm) (hs.store ..)
        (Outputs.store (fun x hx => hl x (.tail _ hx)) _ _ _)
  simp only [outputs, bind, EStateM.bind, hcheck ws hw, roomFor_elastic _ hm, hwrite ws s hm hs hw]

theorem annexEnd_places (rd : RegNo) (v : Word) (ws : List Output) (hm : (s.thr t.toNat).mode = false) (hs : s.Sound)
    (hw : Outputs s t ws) : annexEnd t.toNat rd (ws.map (fun w => (w.addr, w.bytes))) v s =
      .ok .seq ((s.storeAll t.toNat ws).setG t.toNat rd v) := by
  simp only [annexEnd, change, bind, EStateM.bind, outputs_places hm hs hw]
  rfl

/-- An operation without outputs ends by writing rd. -/
theorem annexEnd_nil (rd : RegNo) (v : Word) (hm : (s.thr t.toNat).mode = false) (hs : s.Sound) :
    annexEnd t.toNat rd [] v s = .ok .seq (s.setG t.toNat rd v) :=
  annexEnd_places rd v [] hm hs (fun _ h => nomatch h)

end

/-! ### What an operation leaves in memory -/

/-- A store leaves an area that it has no byte in common with. -/
theorem State.store_bytes_apart (s : State) (who : Option Nat) {p q : Nat} {bs : List Byte} (n : Nat)
    (h : q + n ≤ p ∨ p + bs.length ≤ q) : (s.store who p bs).bytes q n = s.bytes q n := by
  rw [State.bytes_eq, State.bytes_eq]
  exact List.map_congr_left fun i hi => by
    rw [List.mem_range] at hi
    exact State.store_byte_outside _ _ _ _ _ (by omega)

end Sys2Proof.Machine

namespace Sys2Proof.Says

open Sys2Proof.Machine

section

variable {s : State} {t : Tid} {rd : RegNo} {v : Word} {ws : List Output} {body : M Next}

/-- The end of an operation: rd is written, and the rest of the state is what its stores made. -/
theorem runWord_outputs (i : Instr) (hr : Ready s t) (he : Elastic s t)
    (hb : body s = .ok .seq ((s.storeAll t.toNat ws).setG t.toNat rd v)) :
    runWord t i false body s =
      worded (s.storeAll t.toNat ws) t (after ((s.thr t.toNat).set rd v) ((s.thr t.toNat).pc + 4)) := by
  have hth : ((s.storeAll t.toNat ws).setG t.toNat rd v).thr t.toNat = (s.thr t.toNat).set rd v := by
    rw [State.setG_thr_same, State.storeAll_thr]
  rw [runWord_seq i hr hb (by rw [hth, Thread.set_mode]; exact he) (by rw [hth, Thread.set_mip]; exact hr.mip), hth, Thread.set_pc,
    worded_setG]

/-- An operation whose outputs lie within the areas `as`, and what memory holds after it. -/
theorem operated_within (i : Instr) (hr : Ready s t) (he : Elastic s t)
    (hb : body s = .ok .seq ((s.storeAll t.toNat ws).setG t.toNat rd v)) (as : List (Nat × Nat))
    (has : ∀ w ∈ ws, ∃ a ∈ as, a.1 ≤ w.place ∧ w.place + w.bytes.length ≤ a.1 + a.2) :
    Operated s (runWord t i false body s) t rd v as ∧ (runWord t i false body s).mem = (s.storeAll t.toNat ws).mem := by
  rw [runWord_outputs i hr he hb]
  obtain ⟨_, _, _, _, _, _, e⟩ := State.storeAll_eq ws s t.toNat
  refine ⟨⟨fun x hx => ?_, ?_, ?_, ?_, fun r hres => ?_, fun u hu => ?_, worded_thr ..⟩, worded_mem ..⟩
  · rw [State.byte, worded_mem, ← State.byte]
    refine State.storeAll_byte_outside ws s t.toNat (fun w hw => ?_)
    obtain ⟨a, ha, hlo, hhi⟩ := has w hw
    have := hx a ha
    omega
  · rw [worded_regs, e]
  · rw [worded_tb, e]
  · rw [worded_pending, e]
  · rw [worded_resvs] at hres
    exact State.storeAll_resvs ws s t.toNat hres
  · rw [worded_thr_other _ _ _ hu, State.storeAll_thr]

/-- An operation whose outputs are among the areas `as`. -/
theorem operated (i : Instr) (hr : Ready s t) (he : Elastic s t)
    (hb : body s = .ok .seq ((s.storeAll t.toNat ws).setG t.toNat rd v)) (as : List (Nat × Nat))
    (has : ∀ w ∈ ws, (w.place, w.bytes.length) ∈ as) :
    Operated s (runWord t i false body s) t rd v as ∧ (runWord t i false body s).mem = (s.storeAll t.toNat ws).mem :=
  operated_within i hr he hb as fun w hw => ⟨_, has w hw, Nat.le_refl _, Nat.le_refl _⟩

end

/-- An operation that writes rd alone. -/
theorem runWord_answers {s : State} {t : Tid} {rd : RegNo} {v : Word} {body : M Next} (i : Instr) (hr : Ready s t)
    (he : Elastic s t) (hb : body s = .ok .seq (s.setG t.toNat rd v)) :
    Host.Outcome.next (runWord t i false body s) = answers s t rd v :=
  congrArg Host.Outcome.next (runWord_setG i hr he hb)

end Sys2Proof.Says

/-! PROOF. CRC32C, CSUM and CSFOLD (03 R105, R106). -/

namespace Sys2Proof.Machine

/-! ### End-around carry -/

/-- One fold: the sum of the low 16 bits and the rest. -/
theorem fold16_succ (k v : Nat) : fold16 (k + 1) v = fold16 k (v % 65536 + v / 65536) := rfl

/-- A sum of 16 bits is folded. -/
theorem fold16_small (k : Nat) {v : Nat} (h : v < 65536) : fold16 k v = v := by
  induction k with
  | zero => rfl
  | succ k ih => rw [fold16_succ, Nat.mod_eq_of_lt h, Nat.div_eq_of_lt h, Nat.add_zero, ih]

/-- Folding keeps the residue modulo 65535. -/
theorem fold16_mod (k : Nat) : ∀ v, fold16 k v % 65535 = v % 65535 := by
  induction k with
  | zero => exact fun v => rfl
  | succ k ih =>
    intro v
    rw [fold16_succ, ih]
    omega

theorem fold16_eq_zero (k : Nat) : ∀ v, fold16 k v = 0 ↔ v = 0 := by
  induction k with
  | zero => exact fun v => Iff.rfl
  | succ k ih =>
    intro v
    rw [fold16_succ, ih]
    omega

/-- Two folds bring a 32-bit sum to 16 bits. -/
theorem fold16_lt (k : Nat) {v : Nat} (h : v < 2 ^ 32) : fold16 (k + 2) v < 65536 := by
  have h2 : (v % 65536 + v / 65536) % 65536 + (v % 65536 + v / 65536) / 65536 < 65536 := by omega
  rw [fold16_succ, fold16_succ, fold16_small k h2]
  exact h2

theorem sumWords_le (bs : List Byte) : sumWords bs ≤ 65535 * bs.length := by
  induction bs using sumWords.induct with
  | case1 => exact Nat.le_refl 0
  | case2 a =>
    have := a.isLt
    simp only [sumWords, List.length_singleton]
    omega
  | case3 a b r ih =>
    have := a.isLt
    have := b.isLt
    simp only [sumWords, List.length_cons]
    omega

/-- The sum of the four 16-bit parts of a 64-bit number. -/
def partSum (v : Nat) : Nat := v % 65536 + v / 65536 % 65536 + v / 2 ^ 32 % 65536 + v / 2 ^ 48

theorem partSum_eq (v : Nat) : partSum v =
    v % 65536 + v / 65536 % 65536 + v / 65536 / 65536 % 65536 + v / 65536 / 65536 / 65536 := by
  rw [Nat.div_div_eq_div_mul, Nat.div_div_eq_div_mul]
  rfl

theorem partSum_lt {v : Nat} (h : v < 2 ^ 64) : partSum v < 2 ^ 32 := by
  rw [partSum_eq]
  omega

theorem partSum_mod (v : Nat) : partSum v % 65535 = v % 65535 := by
  rw [partSum_eq]
  omega

theorem partSum_eq_zero (v : Nat) : partSum v = 0 ↔ v = 0 := by
  rw [partSum_eq]
  omega

/-! ### The bodies -/

section

variable {s : State} {t : Tid} {rd ra rb : RegNo} {n p : Nat}

theorem lengthRead_place {u lo hi a : Nat} (hf : Says.annexFree s t) (hu : u < 8) (hm : (s.thr t.toNat).mode = false)
    (hs : s.Sound) (h0 : 0 < n) (hlo : lo ≤ n) (hhi : n ≤ hi) (hp : Says.placeOf s t a n = some p) :
    lengthRead t.toNat u a n lo hi s = .ok (s.bytes p n) s := by
  rw [lengthRead, if_neg (by omega), if_neg (by omega)]
  simp only [bind, EStateM.bind, annexStart_free (bs := [(a, n, false)]) hf hu (Answer.nil.cons hp), blockRead_place hm hs hp]

theorem lengthRead_zero {u hi a : Nat} (hf : Says.annexFree s t) (hu : u < 8) : lengthRead t.toNat u a 0 0 hi s = .ok [] s := by
  rw [lengthRead, if_neg (by omega), if_pos rfl]
  simp only [bind, EStateM.bind, annexStart_free hf hu Answer.nil]
  rfl

theorem crcBody_place (hf : Says.annexFree s t) (hm : (s.thr t.toNat).mode = false) (hs : s.Sound)
    (hn : ((s.thr t.toNat).get rb).toNat = n) (h0 : 0 < n) (hhi : n ≤ 16384)
    (hp : Says.placeOf s t ((s.thr t.toNat).get ra).toNat n = some p) :
    crcBody t rd ra rb s =
      .ok .seq (s.setG t.toNat rd ((crc32c (((s.thr t.toNat).get rd).setWidth 32) (s.bytes p n)).setWidth 64)) := by
  simp only [crcBody, look, bind, EStateM.bind, hn, crcLimit,
    lengthRead_place hf (show 2 < 8 by decide) hm hs h0 (Nat.zero_le n) hhi hp, Nat.pos_iff_ne_zero.mp h0, if_false,
    annexEnd_nil rd _ hm hs]

theorem csumBody_place (hf : Says.annexFree s t) (hm : (s.thr t.toNat).mode = false) (hs : s.Sound)
    (hn : ((s.thr t.toNat).get rb).toNat = n) (h0 : 0 < n) (hhi : n ≤ 16384)
    (hp : Says.placeOf s t ((s.thr t.toNat).get ra).toNat n = some p) :
    csumBody t rd ra rb s = .ok .seq (s.setG t.toNat rd
      (BitVec.ofNat 64 (fold16 6 (((s.thr t.toNat).get rd).toNat % 65536 + sumWords (s.bytes p n))))) := by
  simp only [csumBody, look, bind, EStateM.bind, hn, crcLimit,
    lengthRead_place hf (show 2 < 8 by decide) hm hs h0 (Nat.zero_le n) hhi hp, Nat.pos_iff_ne_zero.mp h0, if_false,
    annexEnd_nil rd _ hm hs]

theorem crcBody_zero (hf : Says.annexFree s t) (hn : ((s.thr t.toNat).get rb).toNat = 0) : crcBody t rd ra rb s = .ok .seq s := by
  simp only [crcBody, look, bind, EStateM.bind, hn, lengthRead_zero hf (show 2 < 8 by decide), if_true]
  rfl

theorem csumBody_zero (hf : Says.annexFree s t) (hn : ((s.thr t.toNat).get rb).toNat = 0) : csumBody t rd ra rb s = .ok .seq s := by
  simp only [csumBody, look, bind, EStateM.bind, hn, lengthRead_zero hf (show 2 < 8 by decide), if_true]
  rfl

theorem annexFun_free {u : Nat} (f : Thread → Word) (hf : Says.annexFree s t) (hu : u < 8) :
    annexFun t u rd f s = .ok .seq (s.setG t.toNat rd (f (s.thr t.toNat))) := by
  simp only [annexFun, change, bind, EStateM.bind, annexTurn_free hf hu]
  rfl

end

end Sys2Proof.Machine

namespace Sys2Proof.Says

open Sys2Proof.Machine

theorem checksumWords : ChecksumWords := by
  intro s t rd ra rb p hr hf he hc th n d
  refine ⟨fun h0 hhi hp => ⟨?_, ?_⟩, fun hn => ⟨?_, ?_⟩, ?_⟩
  · exact runWord_answers _ hr he (crcBody_place hf he hc.sound rfl h0 hhi hp)
  · have hsum : d % 65536 + sumWords (s.bytes p n) < 2 ^ 32 := by
      have := sumWords_le (s.bytes p n)
      rw [State.bytes_length] at this
      omega
    exact ⟨_, runWord_answers _ hr he (csumBody_place hf he hc.sound rfl h0 hhi hp), fold16_lt 4 hsum, fold16_mod 6 _,
      fold16_eq_zero 6 _⟩
  · exact congrArg Host.Outcome.next (runWord_seq _ hr (crcBody_zero hf hn) he hr.mip)
  · exact congrArg Host.Outcome.next (runWord_seq _ hr (csumBody_zero hf hn) he hr.mip)
  · exact ⟨_, runWord_answers _ hr he (annexFun_free _ hf (show 2 < 8 by decide)), fold16_lt 4 (partSum_lt (th.get ra).isLt),
      (fold16_mod 6 _).trans (partSum_mod _),
      (fold16_eq_zero 6 _).trans ((partSum_eq_zero _).trans (BitVec.toNat_inj (y := 0#64)))⟩

end Sys2Proof.Says

/-! PROOF. The SHA words: the state block they write, hash into and close (03 R104). -/

namespace Sys2Proof.Machine

/-! ### Words and parts of byte lists -/

theorem slice_middle (x y z : List Byte) : slice (x ++ y ++ z) x.length y.length = y := by
  rw [slice, List.append_assoc, List.drop_left, List.take_left]

theorem slice_end (x y : List Byte) : slice (x ++ y) x.length y.length = y := by
  have h := slice_middle x y []
  rwa [List.append_nil] at h

/-- Words written least significant byte first read back, whatever follows. -/
theorem leWords_flatMap {n k : Nat} (hn : 2 ^ n = 256 ^ k) (rest : List Byte) : ∀ ws : List (BitVec n),
    leWords n k ws.length (ws.flatMap (fun w => leBytes k w.toNat) ++ rest) = ws := by
  intro ws
  induction ws with
  | nil => rfl
  | cons w ws ih =>
    have hlen := leBytes_length k w.toNat
    rw [List.flatMap_cons, List.append_assoc, List.length_cons, leWords, List.take_left' hlen, List.drop_left' hlen, ih,
      leNat_leBytes, ← hn, Nat.mod_eq_of_lt w.isLt, BitVec.ofNat_toNat, BitVec.setWidth_eq]

theorem leWords_length (n k c : Nat) : ∀ bs, (leWords n k c bs).length = c := by
  induction c with
  | zero => exact fun bs => rfl
  | succ c ih => exact fun bs => congrArg Nat.succ (ih _)

theorem flatMap_leBytes_length {n : Nat} (k : Nat) (ws : List (BitVec n)) :
    (ws.flatMap (fun w => leBytes k w.toNat)).length = k * ws.length := by
  induction ws with
  | nil => rfl
  | cons w ws ih => rw [List.flatMap_cons, List.length_append, leBytes_length, ih, List.length_cons, Nat.mul_succ, Nat.add_comm]

theorem flatMap_beBytes_length {n : Nat} (k : Nat) (ws : List (BitVec n)) :
    (ws.flatMap (fun w => beBytes k w.toNat)).length = k * ws.length := by
  induction ws with
  | nil => rfl
  | cons w ws ih =>
    rw [List.flatMap_cons, List.length_append, beBytes, List.length_reverse, leBytes_length, ih, List.length_cons, Nat.mul_succ,
      Nat.add_comm]

theorem leNat_zeros (n : Nat) : leNat (List.replicate n 0) = 0 := by
  induction n with
  | zero => rfl
  | succ n ih => rw [List.replicate_succ, leNat, ih]; rfl

theorem leNat_word (v : Word) : leNat (leBytes 8 v.toNat) = v.toNat := by
  rw [leNat_leBytes, show 256 ^ 8 = 2 ^ 64 from rfl, Nat.mod_eq_of_lt v.isLt]

/-! ### Hash values -/

theorem shaRounds_length {n : Nat} (r : ShaRot) (ks : List (BitVec n)) : ∀ (ws : List (BitVec n)) (v : Oct n), v.length = 8 →
    (shaRounds r ks ws v).length = 8 := by
  induction ks with
  | nil => exact fun ws v h => h
  | cons k ks ih =>
    intro ws v h
    cases ws with
    | nil => exact h
    | cons w ws => exact ih ws _ rfl

theorem shaBlock_length {n : Nat} (r : ShaRot) (ks m : List (BitVec n)) {h : Oct n} (hh : h.length = 8) :
    (shaBlock r ks h m).length = 8 := by
  rw [shaBlock, List.length_zipWith, shaRounds_length _ _ _ _ hh, hh, Nat.min_self]

theorem sha256Block_length {h : List Word32} (m : List Word32) (hh : h.length = 8) : (sha256Block h m).length = 8 :=
  shaBlock_length _ _ _ hh

theorem sha384Block_length {h : List Word} (m : List Word) (hh : h.length = 8) : (sha384Block h m).length = 8 :=
  shaBlock_length _ _ _ hh

/-- The hash value that INIT writes. -/
def shaStart (wide : Bool) : List Byte :=
  if wide then sha384Init.flatMap (fun w => leBytes 8 w.toNat) else sha256Init.flatMap (fun w => leBytes 4 w.toNat)

/-- The hash value that BLK writes: of the state block `bs` and the message block `m`. -/
def shaNext (wide : Bool) (bs m : List Byte) : List Byte :=
  if wide then (sha384Block (leWords 64 8 8 bs) (beWords 64 8 16 m)).flatMap (fun w => leBytes 8 w.toNat)
  else (sha256Block (leWords 32 4 8 bs) (beWords 32 4 16 m)).flatMap (fun w => leBytes 4 w.toNat)

/-- The words of what BLK writes are the block function's. -/
theorem leWords_shaNext_narrow (bs m rest : List Byte) :
    leWords 32 4 8 (shaNext false bs m ++ rest) = sha256Block (leWords 32 4 8 bs) (beWords 32 4 16 m) := by
  have e := leWords_flatMap (n := 32) (k := 4) rfl rest (sha256Block (leWords 32 4 8 bs) (beWords 32 4 16 m))
  rwa [sha256Block_length _ (leWords_length ..)] at e

theorem leWords_shaNext_wide (bs m rest : List Byte) :
    leWords 64 8 8 (shaNext true bs m ++ rest) = sha384Block (leWords 64 8 8 bs) (beWords 64 8 16 m) := by
  have e := leWords_flatMap (n := 64) (k := 8) rfl rest (sha384Block (leWords 64 8 8 bs) (beWords 64 8 16 m))
  rwa [sha384Block_length _ (leWords_length ..)] at e

/-- The digest that END writes. -/
def shaDigest (wide : Bool) (bs : List Byte) : List Byte :=
  if wide then (leWords 64 8 6 bs).flatMap (fun w => beBytes 8 w.toNat)
  else (leWords 32 4 8 bs).flatMap (fun w => beBytes 4 w.toNat)

theorem shaStart_length (wide : Bool) : (shaStart wide).length = shaCount wide := by
  cases wide
  · exact flatMap_leBytes_length 4 sha256Init
  · exact flatMap_leBytes_length 8 sha384Init

theorem shaNext_length (wide : Bool) (bs m : List Byte) : (shaNext wide bs m).length = shaCount wide := by
  cases wide
  · exact (flatMap_leBytes_length 4 _).trans (congrArg (4 * ·) (sha256Block_length _ (leWords_length ..)))
  · exact (flatMap_leBytes_length 8 _).trans (congrArg (8 * ·) (sha384Block_length _ (leWords_length ..)))

theorem shaDigest_length (wide : Bool) (bs : List Byte) : (shaDigest wide bs).length = if wide then 48 else 32 := by
  cases wide
  · exact (flatMap_beBytes_length 4 _).trans (congrArg (4 * ·) (leWords_length ..))
  · exact (flatMap_beBytes_length 8 _).trans (congrArg (8 * ·) (leWords_length ..))

/-- The state block that INIT writes. -/
def shaInitBlock (wide : Bool) : List Byte :=
  shaStart wide ++ List.replicate (shaSize wide - 8 - (shaStart wide).length) 0 ++ leBytes 8 Config.shaMarker.toNat

theorem shaInitBlock_length (wide : Bool) : (shaInitBlock wide).length = shaSize wide := by
  rw [shaInitBlock, List.length_append, List.length_append, List.length_replicate, shaStart_length, leBytes_length]
  cases wide <;> rfl

theorem shaValid_initBlock (wide : Bool) : shaValid (shaInitBlock wide) wide = true := by
  have hlen : (shaStart wide ++ List.replicate (shaSize wide - 8 - (shaStart wide).length) 0).length = shaSize wide - 8 := by
    rw [List.length_append, List.length_replicate, shaStart_length]
    cases wide <;> rfl
  have hs := slice_end (shaStart wide ++ List.replicate (shaSize wide - 8 - (shaStart wide).length) 0)
    (leBytes 8 Config.shaMarker.toNat)
  rw [hlen, leBytes_length] at hs
  rw [shaValid, shaInitBlock, hs, leNat_word, beq_self_eq_true]

theorem count_initBlock (wide : Bool) : leNat (slice (shaInitBlock wide) (shaCount wide) 8) = 0 := by
  have hz : List.replicate (shaSize wide - 8 - (shaStart wide).length) (0 : Byte) = List.replicate 8 0 ++ List.replicate 16 0 := by
    rw [shaStart_length, List.replicate_append_replicate]
    cases wide <;> rfl
  have hs := slice_middle (shaStart wide) (List.replicate 8 0) (List.replicate 16 0 ++ leBytes 8 Config.shaMarker.toNat)
  rw [shaStart_length, List.length_replicate] at hs
  rw [shaInitBlock, hz, ← List.append_assoc, List.append_assoc, hs]
  exact leNat_zeros 8

/-! ### The bodies -/

section

variable {s : State} {t : Tid} {rd ra rb : RegNo} {a b p q : Nat} {wide : Bool}

theorem shaInitBody_place (hf : Says.annexFree s t) (hm : (s.thr t.toNat).mode = false) (hs : s.Sound)
    (ha : ((s.thr t.toNat).get ra).toNat = a) (hal : a % 8 = 0) (hp : Says.placeOf s t a (shaSize wide) = some p) :
    shaInitBody t rd ra wide s = .ok .seq ((s.storeAll t.toNat [⟨a, p, shaInitBlock wide⟩]).setG t.toNat rd 0) := by
  have hend : annexEnd t.toNat rd [(a, shaInitBlock wide)] 0 s = _ := annexEnd_places rd 0 [⟨a, p, shaInitBlock wide⟩] hm hs
    (fun w hw => by
      obtain rfl := List.mem_singleton.mp hw
      rw [shaInitBlock_length]
      exact hp)
  simp only [shaInitBody, look, bind, EStateM.bind, ha, aligned8_ok hal,
    annexStart_free (bs := [(a, shaSize wide, true)]) hf (show 1 < 8 by decide) (Answer.nil.cons hp)]
  exact hend

theorem shaBlkBody_place (hf : Says.annexFree s t) (hm : (s.thr t.toNat).mode = false) (hs : s.Sound)
    (ha : ((s.thr t.toNat).get ra).toNat = a) (hb : ((s.thr t.toNat).get rb).toNat = b) (hal : a % 8 = 0)
    (hp : Says.placeOf s t a (shaSize wide) = some p) (hq : Says.placeOf s t b (if wide then 128 else 64) = some q)
    (hv : shaValid (s.bytes p (shaSize wide)) wide = true) :
    shaBlkBody t rd ra rb wide s = .ok .seq ((s.storeAll t.toNat [⟨a, p,
      shaNext wide (s.bytes p (shaSize wide)) (s.bytes q (if wide then 128 else 64)) ++
        leBytes 8 (leNat (s.bytes (p + shaCount wide) 8) + 1)⟩]).setG t.toNat rd 0) := by
  have hcount : slice (s.bytes p (shaSize wide)) (shaCount wide) 8 = s.bytes (p + shaCount wide) 8 :=
    s.bytes_slice (by cases wide <;> decide)
  rw [← hcount]
  generalize hout : shaNext wide (s.bytes p (shaSize wide)) (s.bytes q (if wide then 128 else 64)) ++
        leBytes 8 (leNat (slice (s.bytes p (shaSize wide)) (shaCount wide) 8) + 1) = out
  have hend : annexEnd t.toNat rd [(a, out)] 0 s = _ := annexEnd_places rd 0 [⟨a, p, out⟩] hm hs (fun w hw => by
    obtain rfl := List.mem_singleton.mp hw
    have hpart := placeOf_part hp (o := 0) (k := shaCount wide + 8) (by cases wide <;> decide) (by cases wide <;> decide)
    rw [← hout, List.length_append, shaNext_length, leBytes_length]
    exact hpart)
  simp only [shaBlkBody, look, bind, EStateM.bind, ha, hb, aligned8_ok hal,
    annexStart_free (bs := [(a, shaSize wide, true), (b, if wide then 128 else 64, false)]) hf (show 1 < 8 by decide)
      ((Answer.nil.cons hq).cons hp), blockRead_place hm hs hp, blockRead_place hm hs hq, hv, Bool.not_true, Bool.false_eq_true,
    if_false]
  rw [← hout] at hend ⊢
  exact hend

theorem shaEndBody_place (hf : Says.annexFree s t) (hm : (s.thr t.toNat).mode = false) (hs : s.Sound)
    (ha : ((s.thr t.toNat).get ra).toNat = a) (hb : ((s.thr t.toNat).get rb).toNat = b) (hal : a % 8 = 0)
    (hp : Says.placeOf s t a (shaSize wide) = some p) (hq : Says.placeOf s t b (if wide then 48 else 32) = some q)
    (hv : shaValid (s.bytes p (shaSize wide)) wide = true) :
    shaEndBody t rd ra rb wide s = .ok .seq ((s.storeAll t.toNat [⟨b, q, shaDigest wide (s.bytes p (shaSize wide))⟩,
      ⟨a + (shaSize wide - 8), p + (shaSize wide - 8), leBytes 8 (~~~ Config.shaMarker).toNat⟩]).setG t.toNat rd 0) := by
  have hoff : a + shaSize wide - 8 = a + (shaSize wide - 8) := by cases wide <;> rfl
  have hend : annexEnd t.toNat rd [(b, shaDigest wide (s.bytes p (shaSize wide))),
      (a + (shaSize wide - 8), leBytes 8 (~~~ Config.shaMarker).toNat)] 0 s = _ :=
    annexEnd_places rd 0 [⟨b, q, shaDigest wide (s.bytes p (shaSize wide))⟩,
      ⟨a + (shaSize wide - 8), p + (shaSize wide - 8), leBytes 8 (~~~ Config.shaMarker).toNat⟩] hm hs (fun w hw => by
    rcases List.mem_cons.mp hw with rfl | hw
    · rw [shaDigest_length]
      exact hq
    · obtain rfl := List.mem_singleton.mp hw
      rw [leBytes_length]
      exact placeOf_part hp (by cases wide <;> decide) (by cases wide <;> decide))
  simp only [shaEndBody, look, bind, EStateM.bind, ha, hb, aligned8_ok hal,
    annexStart_free (bs := [(a, shaSize wide, true), (b, if wide then 48 else 32, true)]) hf (show 1 < 8 by decide)
      ((Answer.nil.cons hq).cons hp), blockRead_place hm hs hp, hv, Bool.not_true, Bool.false_eq_true, if_false, hoff]
  exact hend

end

end Sys2Proof.Machine

namespace Sys2Proof.Says

open Sys2Proof.Machine

section

variable {s : State} {t : Tid} {rd ra rb : RegNo} {p q : Nat} {wide : Bool}

/-- INIT, in either width. -/
theorem shaInit_says (i : Instr) (hr : Ready s t) (hf : annexFree s t) (he : Elastic s t) (hc : Clean s) (hmem : s.memCanonical)
    (hal : ((s.thr t.toNat).get ra).toNat % 8 = 0) (hp : placeOf s t ((s.thr t.toNat).get ra).toNat (shaSize wide) = some p) :
    let s' := runWord t i false (shaInitBody t rd ra wide) s
    Operated s s' t rd 0 [(p, shaSize wide)] ∧ s'.bytes p (shaSize wide) = shaInitBlock wide ∧
      leNat (s'.bytes (p + shaCount wide) 8) = 0 := by
  intro s'
  have hlen := shaInitBlock_length wide
  obtain ⟨hop, hm⟩ := operated i hr he (shaInitBody_place (rd := rd) hf he hc.sound rfl hal hp) [(p, shaSize wide)]
    (fun w hw => by
      obtain rfl := List.mem_singleton.mp hw
      rw [hlen]
      exact .head _)
  have hbytes : s'.bytes p (shaSize wide) = shaInitBlock wide := by
    have h := s.store_bytes (some t.toNat) p (shaInitBlock wide) hmem
    rw [hlen] at h
    exact (State.bytes_congr hm _ _).trans h
  have hcount := s'.bytes_slice (a := p) (show shaCount wide + 8 ≤ shaSize wide by cases wide <;> decide)
  rw [hbytes] at hcount
  exact ⟨hop, hbytes, by rw [← hcount]; exact count_initBlock wide⟩

/-- BLK of a marked state, in either width. -/
theorem shaBlk_says (i : Instr) (hr : Ready s t) (hf : annexFree s t) (he : Elastic s t) (hc : Clean s) (hmem : s.memCanonical)
    (hal : ((s.thr t.toNat).get ra).toNat % 8 = 0) (hp : placeOf s t ((s.thr t.toNat).get ra).toNat (shaSize wide) = some p)
    (hq : placeOf s t ((s.thr t.toNat).get rb).toNat (if wide then 128 else 64) = some q)
    (hv : shaValid (s.bytes p (shaSize wide)) wide = true) :
    let s' := runWord t i false (shaBlkBody t rd ra rb wide) s
    Operated s s' t rd 0 [(p, shaCount wide + 8)] ∧
      (∃ rest, s'.bytes p (shaSize wide) =
        shaNext wide (s.bytes p (shaSize wide)) (s.bytes q (if wide then 128 else 64)) ++ rest) ∧
      leNat (s'.bytes (p + shaCount wide) 8) = (leNat (s.bytes (p + shaCount wide) 8) + 1) % 2 ^ 64 := by
  intro s'
  have hb := shaBlkBody_place (rd := rd) hf he hc.sound rfl rfl hal hp hq hv
  have hlen := shaNext_length wide (s.bytes p (shaSize wide)) (s.bytes q (if wide then 128 else 64))
  generalize shaNext wide (s.bytes p (shaSize wide)) (s.bytes q (if wide then 128 else 64)) = h at hb hlen ⊢
  generalize leNat (s.bytes (p + shaCount wide) 8) + 1 = n at hb ⊢
  have hsum : (h ++ leBytes 8 n).length = shaCount wide + 8 := by rw [List.length_append, hlen, leBytes_length]
  obtain ⟨hop, hm⟩ := operated i hr he hb [(p, shaCount wide + 8)] (fun w hw => by
    obtain rfl := List.mem_singleton.mp hw
    rw [hsum]
    exact .head _)
  have hbytes : s'.bytes p (shaCount wide + 8) = h ++ leBytes 8 n := by
    have e := s.store_bytes (some t.toNat) p (h ++ leBytes 8 n) hmem
    rw [hsum] at e
    exact (State.bytes_congr hm _ _).trans e
  have hsize : shaSize wide = shaCount wide + 8 + (shaSize wide - (shaCount wide + 8)) := by cases wide <;> rfl
  refine ⟨hop, ⟨leBytes 8 n ++ s'.bytes (p + (shaCount wide + 8)) (shaSize wide - (shaCount wide + 8)), ?_⟩, ?_⟩
  · rw [hsize, State.bytes_append, hbytes, List.append_assoc, Nat.add_sub_cancel_left]
  · have hcount := s'.bytes_slice (a := p) (Nat.le_refl (shaCount wide + 8))
    have hs := slice_end h (leBytes 8 n)
    rw [hlen, leBytes_length] at hs
    rw [← hcount, hbytes, hs, leNat_leBytes]
    rfl

/-- END of a marked state, in either width. -/
theorem shaEnd_says (i : Instr) (hr : Ready s t) (hf : annexFree s t) (he : Elastic s t) (hc : Clean s) (hmem : s.memCanonical)
    (hal : ((s.thr t.toNat).get ra).toNat % 8 = 0) (hp : placeOf s t ((s.thr t.toNat).get ra).toNat (shaSize wide) = some p)
    (hq : placeOf s t ((s.thr t.toNat).get rb).toNat (if wide then 48 else 32) = some q)
    (hv : shaValid (s.bytes p (shaSize wide)) wide = true) (hap : apart p (shaSize wide) q (if wide then 48 else 32)) :
    let s' := runWord t i false (shaEndBody t rd ra rb wide) s
    Operated s s' t rd 0 [(p + (shaSize wide - 8), 8), (q, if wide then 48 else 32)] ∧
      s'.bytes q (if wide then 48 else 32) = shaDigest wide (s.bytes p (shaSize wide)) ∧
      shaValid (s'.bytes p (shaSize wide)) wide = false := by
  intro s'
  have hb := shaEndBody_place (rd := rd) hf he hc.sound rfl rfl hal hp hq hv
  have hlen := shaDigest_length wide (s.bytes p (shaSize wide))
  generalize shaDigest wide (s.bytes p (shaSize wide)) = d at hb hlen ⊢
  have h8 := leBytes_length 8 (~~~ Config.shaMarker).toNat
  have hsize : 8 ≤ shaSize wide := by cases wide <;> decide
  obtain ⟨hop, hm⟩ := operated i hr he hb [(p + (shaSize wide - 8), 8), (q, if wide then 48 else 32)] (fun w hw => by
    rcases List.mem_cons.mp hw with rfl | hw
    · rw [hlen]
      exact .tail _ (.head _)
    · obtain rfl := List.mem_singleton.mp hw
      rw [h8]
      exact .head _)
  have hdig := s.store_bytes (some t.toNat) q d hmem
  have hmark := (s.store (some t.toNat) q d).store_bytes (some t.toNat) (p + (shaSize wide - 8))
    (leBytes 8 (~~~ Config.shaMarker).toNat) (s.store_wf _ _ _ hmem)
  refine ⟨hop, ?_, ?_⟩
  · rw [← hlen]
    refine (State.bytes_congr hm _ _).trans (Eq.trans ?_ hdig)
    refine State.store_bytes_apart _ _ _ ?_
    change q + d.length ≤ p + (shaSize wide - 8) ∨ p + (shaSize wide - 8) + (leBytes 8 (~~~ Config.shaMarker).toNat).length ≤ q
    unfold apart at hap
    omega
  · rw [h8] at hmark
    have hs := s'.bytes_slice (a := p) (show shaSize wide - 8 + 8 ≤ shaSize wide by omega)
    rw [shaValid, hs, (State.bytes_congr hm _ _).trans hmark, leNat_word, beq_eq_false_iff_ne]
    intro h
    have hx := BitVec.toNat_inj.mp h
    have hx0 := congrArg (fun x : Word => x.getLsbD 0) hx
    simp at hx0

end

theorem hashWords : HashWords := by
  intro s t rd ra rb p q hr hf he hc hmem a b hal
  refine ⟨fun hp => ⟨?_, fun hv => ⟨fun hq => ?_, fun hq hap => ?_⟩⟩, fun hp => ⟨?_, fun hv => ⟨fun hq => ?_, fun hq hap => ?_⟩⟩⟩
  · obtain ⟨hop, hb, hn⟩ := shaInit_says (wide := false) (rd := rd) (.s256init t rd ra) hr hf he hc hmem hal hp
    refine ⟨_, rfl, hop, ?_, ?_, hn⟩
    · exact (congrArg (shaValid · false) hb).trans (shaValid_initBlock false)
    · refine (congrArg (leWords 32 4 8) hb).trans ?_
      rw [shaInitBlock, List.append_assoc]
      exact leWords_flatMap rfl _ sha256Init
  · obtain ⟨hop, ⟨rest, hb⟩, hn⟩ := shaBlk_says (wide := false) (rd := rd) (.s256blk t rd ra rb) hr hf he hc hmem hal hp hq hv
    refine ⟨_, rfl, hop, (congrArg (leWords 32 4 8) hb).trans (leWords_shaNext_narrow _ _ rest), hn⟩
  · obtain ⟨hop, hb, hn⟩ := shaEnd_says (wide := false) (rd := rd) (.s256end t rd ra rb) hr hf he hc hmem hal hp hq hv hap
    exact ⟨_, rfl, hop, hb, hn⟩
  · obtain ⟨hop, hb, hn⟩ := shaInit_says (wide := true) (rd := rd) (.s384init t rd ra) hr hf he hc hmem hal hp
    refine ⟨_, rfl, hop, ?_, ?_, hn⟩
    · exact (congrArg (shaValid · true) hb).trans (shaValid_initBlock true)
    · refine (congrArg (leWords 64 8 8) hb).trans ?_
      rw [shaInitBlock, List.append_assoc]
      exact leWords_flatMap rfl _ sha384Init
  · obtain ⟨hop, ⟨rest, hb⟩, hn⟩ := shaBlk_says (wide := true) (rd := rd) (.s384blk t rd ra rb) hr hf he hc hmem hal hp hq hv
    refine ⟨_, rfl, hop, (congrArg (leWords 64 8 8) hb).trans (leWords_shaNext_wide _ _ rest), hn⟩
  · obtain ⟨hop, hb, hn⟩ := shaEnd_says (wide := true) (rd := rd) (.s384end t rd ra rb) hr hf he hc hmem hal hp hq hv hap
    exact ⟨_, rfl, hop, hb, hn⟩

/-- Settles O27: the checksums by what a fold of 16 bits keeps, the SHA words by their outputs, which read back. -/
theorem sumsAndHashes : Obligations.SumsAndHashes := ⟨checksumWords, hashWords⟩

end Sys2Proof.Says

/-! PROOF. The session words on the index (03 R107; 06 R203, R204). -/

namespace Sys2Proof.Machine

section

variable {s : State} {t : Tid} {rd ra rb : RegNo} {n p : Nat} {key : List Byte}

theorem State.Sound.badRead (h : s.Sound) (a n : Nat) : s.badRead a n = false := by simp [State.badRead, h.2]

theorem State.Sound.sessionBad (h : s.Sound) (i : Nat) : s.sessionBad i = s.rowGone (sessionArea i) := by
  rw [State.sessionBad, h.badRead, Bool.false_or]

/-- Without an error mark a lookup changes nothing. -/
theorem State.Sound.sessionRead (h : s.Sound) (key : List Byte) : s.sessionRead key = s := by
  have hone : ∀ a, (s.reportBad a 48).correct a 48 = s := fun a => by
    have hr : s.reportBad a 48 = s := by
      rw [State.reportBad, h.2, List.find?_eq_none.mpr (fun w _ => by simp)]
    rw [hr]
    simp [State.correct, State.corrIn, h.1]
  have hall : ∀ l : List Nat, l.foldl (fun s i => (s.reportBad (sessionArea i) 48).correct (sessionArea i) 48) s = s := by
    intro l
    induction l with
    | nil => rfl
    | cons i l ih => rw [List.foldl_cons, hone, ih]
  exact hall _

/-- The key of a session word, while the path to the Session Store is open. -/
theorem sessionKey_place (hf : Says.annexFree s t) (hm : (s.thr t.toNat).mode = false) (hs : s.Sound)
    (hn : ((s.thr t.toNat).get rb).toNat = n) (h1 : 1 ≤ n) (h32 : n ≤ 32)
    (hp : Says.placeOf s t ((s.thr t.toNat).get ra).toNat n = some p) (ho : Says.pathOpen s t [s.fabricFor t.toNat 8] = true) :
    sessionKey t.toNat ra rb s = .ok (s.bytes p n) s := by
  have hbad : (sessionBucket (s.bytes p n)).find? (fun i => s.badRead (sessionArea i) 48 && !s.rowGone (sessionArea i)) = none :=
    List.find?_eq_none.mpr fun i _ => by simp [hs.badRead]
  simp only [sessionKey, look, bind, EStateM.bind, hn, lengthRead_place hf (show 3 < 8 by decide) hm hs h1 h1 h32 hp,
    Says.grantAll_open ho, hbad, hs.sessionRead]

/-- The first element of a list that a test holds of, by its place. -/
theorem find?_first {α : Type} {f : α → Bool} {l : List α} {k : Nat} {x : α} (hk : l[k]? = some x) (hx : f x = true)
    (hlt : ∀ (j : Nat) (y : α), j < k → l[j]? = some y → f y = false) : l.find? f = some x := by
  obtain ⟨hlen, hget⟩ := List.getElem?_eq_some_iff.mp hk
  refine List.find?_eq_some_iff_getElem.mpr ⟨hx, k, hlen, hget, fun j hj => ?_⟩
  rw [hlt j _ hj (List.getElem?_eq_getElem _)]
  rfl

/-! ### The entry that an insert writes -/

/-- The bytes that an insert of `key` writes, in two stores. -/
def sessionStores (i : Nat) (key : List Byte) : List Output :=
  [⟨0, sessionArea i, [1, BitVec.ofNat 8 key.length]⟩, ⟨0, sessionArea i + 16, key ++ List.replicate (32 - key.length) 0⟩]

theorem State.sessionInsert_eq {i : Nat} (who : Nat)
    (h : (sessionBucket key).find? (fun i => !s.sessionBad i && !(s.byte (sessionArea i)).getLsbD 0) = some i) :
    s.sessionInsert (some who) key = (some i, s.storeAll who (sessionStores i key)) := by
  rw [State.sessionInsert, h]
  rfl

theorem State.sessionInsert_none (who : Option Nat)
    (h : (sessionBucket key).find? (fun i => !s.sessionBad i && !(s.byte (sessionArea i)).getLsbD 0) = none) :
    s.sessionInsert who key = (none, s) := by
  rw [State.sessionInsert, h]

theorem State.Sound.storeAll {ws : List Output} (w : Nat) : ∀ {s : State}, s.Sound → (s.storeAll w ws).Sound := by
  induction ws with
  | nil => exact fun h => h
  | cons o ws ih => exact fun h => ih (h.store ..)

/-- What an insert leaves in the entry: VALID, the key's length, and the key. -/
theorem State.sessionStores_bytes (who i : Nat) (hmem : s.memCanonical) (hk : key.length ≤ 32) :
    (s.storeAll who (sessionStores i key)).byte (sessionArea i) = 1 ∧
    (s.storeAll who (sessionStores i key)).byte (sessionArea i + 1) = BitVec.ofNat 8 key.length ∧
    (s.storeAll who (sessionStores i key)).bytes (sessionArea i + 16) key.length = key := by
  have h1 := s.store_bytes (some who) (sessionArea i) [1, BitVec.ofNat 8 key.length] hmem
  have h2 := (s.store (some who) (sessionArea i) [1, BitVec.ofNat 8 key.length]).store_bytes (some who) (sessionArea i + 16)
    (key ++ List.replicate (32 - key.length) 0) (s.store_wf _ _ _ hmem)
  have hlow : (s.storeAll who (sessionStores i key)).bytes (sessionArea i) 2 = [1, BitVec.ofNat 8 key.length] :=
    (State.store_bytes_apart _ (some who) 2 (.inl (show sessionArea i + 2 ≤ sessionArea i + 16 by omega))).trans h1
  obtain ⟨hb0, hb1, -⟩ := List.cons.inj hlow |>.imp_right List.cons.inj
  refine ⟨hb0, hb1, ?_⟩
  have hlen : (key ++ List.replicate (32 - key.length) (0 : Byte)).length = 32 := by
    rw [List.length_append, List.length_replicate]
    omega
  rw [hlen] at h2
  have ht := State.bytes_take (s.storeAll who (sessionStores i key)) (a := sessionArea i + 16) hk
  rw [show (s.storeAll who (sessionStores i key)).bytes (sessionArea i + 16) 32 = _ from h2, List.take_left] at ht
  exact ht.symm

/-- The entry that an insert wrote holds the key. -/
theorem State.sessionHolds_stored (who i : Nat) (hs : s.Sound) (hmem : s.memCanonical) (hk : key.length ≤ 32)
    (hrow : s.rowGone (sessionArea i) = false) : (s.storeAll who (sessionStores i key)).sessionHolds i key = true := by
  obtain ⟨hb0, hb1, hbs⟩ := State.sessionStores_bytes (s := s) who i hmem hk
  have hrow' : (s.storeAll who (sessionStores i key)).rowGone (sessionArea i) = s.rowGone (sessionArea i) := by
    obtain ⟨_, _, _, _, _, _, e⟩ := State.storeAll_eq (sessionStores i key) s who
    rw [e]
    rfl
  have hlen : (BitVec.ofNat 8 key.length).toNat = key.length := by
    rw [BitVec.toNat_ofNat, Nat.mod_eq_of_lt (by omega)]
  rw [State.sessionHolds, (hs.storeAll who).sessionBad, hrow', hrow, hb0, hb1, hbs, hlen]
  simp

/-! ### The bodies -/

theorem slookBody_found {i : Nat} (hm : (s.thr t.toNat).mode = false) (hs : s.Sound) (hk : sessionKey t.toNat ra rb s = .ok key s)
    (hr : s.sessionFind key = some i) : slookBody t rd ra rb s = .ok .seq (s.setG t.toNat rd (BitVec.ofNat 64 i)) := by
  simp only [slookBody, look, bind, EStateM.bind, hk, hr, annexEnd_nil rd _ hm hs]

theorem slookBody_absent (hm : (s.thr t.toNat).mode = false) (hs : s.Sound) (hk : sessionKey t.toNat ra rb s = .ok key s)
    (hr : s.sessionFind key = none) : slookBody t rd ra rb s = .ok .seq (s.setG t.toNat rd (-1)) := by
  simp only [slookBody, look, bind, EStateM.bind, hk, hr, annexEnd_nil rd _ hm hs]

theorem sinsBody_found {i : Nat} (hm : (s.thr t.toNat).mode = false) (hs : s.Sound) (hk : sessionKey t.toNat ra rb s = .ok key s)
    (hr : s.sessionFind key = some i) : sinsBody t rd ra rb s = .ok .seq (s.setG t.toNat rd (BitVec.ofNat 64 i)) := by
  simp only [sinsBody, look, bind, EStateM.bind, hk, hr, annexEnd_nil rd _ hm hs]

theorem sinsBody_full (hm : (s.thr t.toNat).mode = false) (hs : s.Sound) (hk : sessionKey t.toNat ra rb s = .ok key s)
    (hr : s.sessionFind key = none)
    (hfree : (sessionBucket key).find? (fun i => !s.sessionBad i && !(s.byte (sessionArea i)).getLsbD 0) = none) :
    sinsBody t rd ra rb s = .ok .seq (s.setG t.toNat rd (-1)) := by
  simp only [sinsBody, look, bind, EStateM.bind, hk, hr, hm, Bool.false_eq_true, if_false, State.sessionInsert_none _ hfree,
    annexEnd_nil rd _ hm hs]

theorem sinsBody_new {i : Nat} (hm : (s.thr t.toNat).mode = false) (hs : s.Sound) (hk : sessionKey t.toNat ra rb s = .ok key s)
    (hr : s.sessionFind key = none)
    (hfree : (sessionBucket key).find? (fun i => !s.sessionBad i && !(s.byte (sessionArea i)).getLsbD 0) = some i) :
    sinsBody t rd ra rb s = .ok .seq ((s.storeAll t.toNat (sessionStores i key)).setG t.toNat rd (BitVec.ofNat 64 (i + 65536))) := by
  have hm' : ((s.storeAll t.toNat (sessionStores i key)).thr t.toNat).mode = false := by
    rw [State.storeAll_thr]
    exact hm
  simp only [sinsBody, look, change, bind, EStateM.bind, hk, hr, hm, Bool.false_eq_true, if_false,
    State.sessionInsert_eq t.toNat hfree, annexEnd_nil rd _ hm' (hs.storeAll t.toNat)]

theorem sdelBody_absent (hm : (s.thr t.toNat).mode = false) (hs : s.Sound) (hk : sessionKey t.toNat ra rb s = .ok key s)
    (hr : s.sessionFind key = none) : sdelBody t rd ra rb s = .ok .seq (s.setG t.toNat rd 1) := by
  simp only [sdelBody, look, bind, EStateM.bind, hk, hr, annexEnd_nil rd _ hm hs]

theorem sdelBody_found {i : Nat} (hm : (s.thr t.toNat).mode = false) (hs : s.Sound) (hk : sessionKey t.toNat ra rb s = .ok key s)
    (hr : s.sessionFind key = some i) : sdelBody t rd ra rb s = .ok .seq
      ((s.storeAll t.toNat [⟨0, sessionArea i, [s.byte (sessionArea i) &&& 0xFE]⟩]).setG t.toNat rd 0) := by
  have hm' : ((s.sessionRemove (some t.toNat) i).thr t.toNat).mode = false := by
    rw [State.sessionRemove, State.store_thr]
    exact hm
  have hs' : (s.sessionRemove (some t.toNat) i).Sound := hs.store ..
  simp only [sdelBody, look, change, bind, EStateM.bind, hk, hr, hm, Bool.false_eq_true, if_false, annexEnd_nil rd _ hm' hs']
  rfl

end

end Sys2Proof.Machine

namespace Sys2Proof.Says

open Sys2Proof.Machine

theorem sessionHolds_worded (s : State) (t : Tid) (th : Thread) (i : Nat) (key : List Byte) :
    (worded s t th).sessionHolds i key = s.sessionHolds i key := by
  obtain ⟨a, e⟩ := worded_eq s t th
  rw [State.sessionHolds, State.sessionHolds, State.bytes_congr (worded_mem s t th), e]
  rfl

/-- Settles O28: a lookup finds the first way that the key's test holds of; what an insert stored is read back by that test. -/
theorem sessionWords : Obligations.SessionWords := by
  intro s t rd ra rb p n hr hf he hc hmem hn h1 h32 hp ho key bucket free
  have hm : (s.thr t.toNat).mode = false := he
  have hkey : sessionKey t.toNat ra rb s = .ok key s := sessionKey_place hf hm hc.sound hn.symm h1 h32 hp ho
  have hklen : key.length = n := State.bytes_length ..
  refine ⟨fun hno => ?_, fun k i hk hhold hfirst => ?_⟩
  · have hfind : s.sessionFind key = none := List.find?_eq_none.mpr fun i hi => by rw [hno i hi]; decide
    refine ⟨runWord_answers _ hr he (slookBody_absent hm hc.sound hkey hfind),
      runWord_answers _ hr he (sdelBody_absent hm hc.sound hkey hfind), fun hfull => ?_, fun k i hk hfree hfirst => ?_⟩
    · exact runWord_answers _ hr he (sinsBody_full hm hc.sound hkey hfind
        (List.find?_eq_none.mpr fun i hi => by rw [show (!s.sessionBad i && _) = false from hfull i hi]; decide))
    · have hway := find?_first hk hfree hfirst
      have hb := sinsBody_new (rd := rd) hm hc.sound hkey hfind hway
      obtain ⟨hop, -⟩ := operated_within (.sins t rd ra rb) hr he hb [(sessionArea i, 48)] (fun w hw => by
        refine ⟨_, .head _, ?_⟩
        rcases List.mem_cons.mp hw with rfl | hw
        · exact ⟨Nat.le_refl _, by simp⟩
        · obtain rfl := List.mem_singleton.mp hw
          refine ⟨Nat.le_add_right _ _, ?_⟩
          change sessionArea i + 16 + (key ++ List.replicate (32 - key.length) (0 : Byte)).length ≤ sessionArea i + 48
          rw [List.length_append, List.length_replicate]
          omega)
      refine ⟨_, rfl, hop, ?_⟩
      have hrow : s.rowGone (sessionArea i) = false := by
        rw [← hc.sound.sessionBad]
        simpa using (Bool.and_eq_true_iff.mp hfree).1
      rw [runWord_outputs (.sins t rd ra rb) hr he hb, sessionHolds_worded]
      exact State.sessionHolds_stored t.toNat i hc.sound hmem (by omega) hrow
  · have hfind : s.sessionFind key = some i := find?_first hk hhold hfirst
    refine ⟨runWord_answers _ hr he (slookBody_found hm hc.sound hkey hfind),
      runWord_answers _ hr he (sinsBody_found hm hc.sound hkey hfind), ?_⟩
    obtain ⟨hop, hm'⟩ := operated (.sdel t rd ra rb) hr he (sdelBody_found (rd := rd) hm hc.sound hkey hfind) [(sessionArea i, 1)]
      (fun w hw => by
        obtain rfl := List.mem_singleton.mp hw
        exact .head _)
    refine ⟨_, rfl, hop, ?_⟩
    have hb := s.store_bytes (some t.toNat) (sessionArea i) [s.byte (sessionArea i) &&& 0xFE] hmem
    exact (congrArg (fun m => memGet m (sessionArea i)) hm').trans (List.cons.inj hb).1

end Sys2Proof.Says

/-! PROOF. Lengths and inverses of the cipher's functions, and what stored outputs read back as (03 R101 to R103). -/

namespace Sys2Proof.Machine

/-! ### Parts of byte lists -/

theorem slice_length {bs : List Byte} {i n : Nat} (h : i + n ≤ bs.length) : (slice bs i n).length = n := by
  rw [slice, List.length_take, List.length_drop]
  omega

/-- A part that begins in the second of two lists. -/
theorem slice_right {x : List Byte} (y : List Byte) {m : Nat} (hm : x.length = m) (o k : Nat) :
    slice (x ++ y) (m + o) k = slice y o k := by
  rw [slice, ← hm, List.drop_append, List.drop_eq_nil_of_le (Nat.le_add_right _ _), List.nil_append, Nat.add_sub_cancel_left, slice]

/-- A part that ends in the first of two lists. -/
theorem slice_left {x : List Byte} (y : List Byte) {i k : Nat} (h : i + k ≤ x.length) : slice (x ++ y) i k = slice x i k := by
  rw [slice, List.drop_append_of_le_length (by omega), List.take_append_of_le_length (by rw [List.length_drop]; omega), slice]

theorem slice_all {x : List Byte} {n : Nat} (h : x.length = n) : slice x 0 n = x := by
  rw [slice, List.drop_zero, ← h, List.take_length]

theorem slice_zeros {n i k : Nat} (h : i + k ≤ n) : slice (List.replicate n 0) i k = List.replicate k 0 := by
  rw [slice, List.drop_replicate, List.take_replicate, Nat.min_eq_left (by omega)]

theorem byteAt_bytes (s : State) {p n i : Nat} (h : i < n) : byteAt (s.bytes p n) i = s.byte (p + i) := by
  rw [byteAt, State.bytes_eq, List.getD_eq_getElem _ _ (by simpa using h), List.getElem_map, List.getElem_range]

/-! ### Blocks -/

theorem beNat_reverse (bs : List Byte) : beNat bs.reverse = leNat bs := by
  induction bs with
  | nil => rfl
  | cons b bs ih =>
    rw [beNat] at ih ⊢
    rw [List.reverse_cons, List.foldl_append, ih, leNat, List.foldl_cons, List.foldl_nil]
    omega

theorem beBytes_length (n v : Nat) : (beBytes n v).length = n := by rw [beBytes, List.length_reverse, leBytes_length]

theorem blkBytes_length (b : Blk) : (blkBytes b).length = 16 := beBytes_length ..

/-- The bytes of a block give the block back. -/
theorem blkOf_blkBytes (b : Blk) : blkOf (blkBytes b) = b := by
  rw [blkOf, blkBytes, beBytes, beNat_reverse, leNat_leBytes, show 256 ^ 16 = 2 ^ 128 from rfl, Nat.mod_eq_of_lt b.isLt,
    BitVec.ofNat_toNat, BitVec.setWidth_eq]

theorem blkOf_zeros : blkOf (List.replicate 16 0) = 0 := by decide

/-! ### The mask of the opaque bytes -/

theorem maskOpaque_length (bs : List Byte) : (maskOpaque bs).length = bs.length := by
  rw [maskOpaque, List.length_map, List.length_range]

/-- The mask undoes itself. -/
theorem maskOpaque_maskOpaque (bs : List Byte) : maskOpaque (maskOpaque bs) = bs := by
  refine List.ext_getElem (by rw [maskOpaque_length, maskOpaque_length]) fun i h1 h2 => ?_
  have hat : ∀ (l : List Byte) (h : i < l.length), byteAt l i = l[i] := fun l h => List.getD_eq_getElem _ _ h
  have hmask : ∀ (l : List Byte) (h : i < (maskOpaque l).length) (h' : i < l.length), (maskOpaque l)[i] = l[i] ^^^ Config.aesMask i :=
    fun l h h' => by
      simp only [maskOpaque, List.getElem_map, List.getElem_range, hat l h']
  rw [hmask _ h1 (by rw [maskOpaque_length]; exact h2), hmask _ (by rw [maskOpaque_length]; exact h2) h2, BitVec.xor_assoc,
    BitVec.xor_self, BitVec.xor_zero]

/-! ### Lengths -/

theorem xorBytes_length (a b : List Byte) : (xorBytes a b).length = min a.length b.length := List.length_zipWith

theorem keyWord_length {nk i : Nat} {rc : Byte} {last : List Byte} (h : last.length = 4) : (keyWord nk i rc last).length = 4 := by
  unfold keyWord
  split
  · rw [xorBytes_length, List.length_map, List.length_append, List.length_drop, List.length_take, h]
    rfl
  · split
    · rw [List.length_map, h]
    · exact h

theorem expandKey_length {nk : Nat} (h0 : 0 < nk) (k : Nat) : ∀ (i : Nat) (rc : Byte) (ks : List Byte), nk ≤ i → ks.length = 4 * i →
    (expandKey nk k i rc ks).length = 4 * (i + k) := by
  induction k with
  | zero => exact fun i rc ks _ h => h
  | succ k ih =>
    intro i rc ks hi h
    have hw : (xorBytes (slice ks (4 * (i - nk)) 4) (keyWord nk i rc (slice ks (4 * (i - 1)) 4))).length = 4 := by
      rw [xorBytes_length, slice_length (by omega), keyWord_length (slice_length (by omega)), Nat.min_self]
    rw [expandKey, ih (i + 1) _ _ (by omega) (by rw [List.length_append, hw, h]; omega)]
    omega

/-- The schedule has a block for each round, and one more. -/
theorem aesSchedule_length {key : List Byte} {n : Nat} (hk : key.length = n) (hn : n = 16 ∨ n = 32) :
    (aesSchedule key).length = 16 * (n / 4 + 7) := by
  rcases hn with rfl | rfl <;>
    rw [aesSchedule, expandKey_length (by rw [hk]; decide) _ _ _ _ (Nat.le_refl _) (by rw [hk]), hk]

theorem subShift_length (st : List Byte) : (subShift st).length = 16 := by rw [subShift, List.length_map, List.length_range]

theorem mixColumns_length (st : List Byte) : (mixColumns st).length = 16 := by
  simp [mixColumns, mixColumn, List.length_flatMap]

theorem aesRounds_length {ks : List Byte} (k i : Nat) (st : List Byte) : st.length = 16 → 16 * (i + k) ≤ ks.length →
    (aesRounds ks k i st).length = 16 := by
  induction k, i, st using aesRounds.induct (ks := ks) with
  | case1 i st => exact fun h _ => h
  | case2 i st =>
    intro _ hk
    rw [aesRounds, xorBytes_length, subShift_length, slice_length (by omega), Nat.min_self]
  | case3 k i st ih =>
    intro _ hk
    rw [aesRounds]
    exact ih (by rw [xorBytes_length, mixColumns_length, slice_length (by omega), Nat.min_self]) (by omega)

theorem aesEncrypt_length {rounds : Nat} {ks blk : List Byte} (hb : blk.length = 16) (hk : 16 * (rounds + 1) ≤ ks.length) :
    (aesEncrypt rounds ks blk).length = 16 := by
  refine aesRounds_length _ _ _ ?_ (by omega)
  rw [xorBytes_length, List.length_take, hb]
  omega

theorem AesCtx.blockLen_pos (c : AesCtx) : 0 < c.blockLen := by
  unfold AesCtx.blockLen
  split
  · decide
  · split
    · omega
    · omega

theorem AesCtx.blockLen_le (c : AesCtx) : c.blockLen ≤ 16 := by
  unfold AesCtx.blockLen
  split
  · decide
  · split
    · omega
    · omega

/-! ### What stored outputs read back as -/

/-- Two outputs have no byte in common. -/
def Output.Apart (v w : Output) : Prop := v.place + v.bytes.length ≤ w.place ∨ w.place + w.bytes.length ≤ v.place

theorem State.storeAll_bytes_apart (s : State) (t : Nat) {ws : List Output} {x n : Nat}
    (h : ∀ w ∈ ws, x + n ≤ w.place ∨ w.place + w.bytes.length ≤ x) : (s.storeAll t ws).bytes x n = s.bytes x n := by
  rw [State.bytes_eq, State.bytes_eq]
  exact List.map_congr_left fun i hi => by
    rw [List.mem_range] at hi
    exact State.storeAll_byte_outside ws s t fun w hw => by
      have := h w hw
      omega

/-- A part of an output reads back, where the outputs are apart. -/
theorem State.storeAll_bytes {w : Output} {o k : Nat} (t : Nat) (hk : o + k ≤ w.bytes.length) (ws : List Output) :
    ∀ s : State, s.memCanonical → ws.Pairwise Output.Apart → w ∈ ws →
      (s.storeAll t ws).bytes (w.place + o) k = slice w.bytes o k := by
  induction ws with
  | nil => exact fun s _ _ h => nomatch h
  | cons v vs ih =>
    intro s hmem hp hw
    obtain ⟨hv, hvs⟩ := List.pairwise_cons.mp hp
    rcases List.mem_cons.mp hw with rfl | hw
    · rw [State.storeAll, State.storeAll_bytes_apart _ _ (fun u hu => by
        have := hv u hu
        unfold Output.Apart at this
        omega)]
      have hs := (s.store (some t) w.place w.bytes).bytes_slice (a := w.place) hk
      rw [s.store_bytes (some t) w.place w.bytes hmem] at hs
      exact hs.symm
    · exact ih _ (s.store_wf _ _ _ hmem) hvs hw

end Sys2Proof.Machine

/-! PROOF. The words that build, use and close an AES context (03 R101 to R103). -/

namespace Sys2Proof.Machine

open Sys2Proof.Says (ctxAt placeOf annexFree)

/-! ### A context in memory -/

theorem ctxAt_slice (s : State) (p : Nat) {i k : Nat} (h : i + k ≤ 512) : slice (ctxAt s p).raw i k = s.bytes (p + i) k :=
  s.bytes_slice h

theorem ctxAt_code (s : State) (p : Nat) : (ctxAt s p).code = leNat (s.bytes (p + 0x180) 8) :=
  congrArg leNat (ctxAt_slice s p (by decide))

theorem ctxAt_sched (s : State) (p : Nat) : (ctxAt s p).sched = maskOpaque (s.bytes p 384) :=
  congrArg maskOpaque (ctxAt_slice s p (by decide))

theorem ctxAt_aad (s : State) (p : Nat) : (ctxAt s p).aad = leNat (s.bytes (p + 0x188) 8) :=
  congrArg leNat (ctxAt_slice s p (by decide))

theorem ctxAt_text (s : State) (p : Nat) : (ctxAt s p).text = leNat (s.bytes (p + 0x190) 8) :=
  congrArg leNat (ctxAt_slice s p (by decide))

theorem ctxAt_part (s : State) (p : Nat) : (ctxAt s p).part = (s.byte (p + 0x198)).toNat :=
  congrArg BitVec.toNat (byteAt_bytes s (by decide))

theorem ctxAt_j0 (s : State) (p : Nat) : (ctxAt s p).j0 = blkOf (s.bytes (p + 0x1A0) 16) :=
  congrArg blkOf (ctxAt_slice s p (by decide))

theorem ctxAt_ctr (s : State) (p : Nat) : (ctxAt s p).ctr = blkOf (s.bytes (p + 0x1B0) 16) :=
  congrArg blkOf (ctxAt_slice s p (by decide))

theorem ctxAt_acc (s : State) (p : Nat) : (ctxAt s p).acc = blkOf (s.bytes (p + 0x1C0) 16) :=
  congrArg blkOf (ctxAt_slice s p (by decide))

theorem ctxAt_chain (s : State) (p : Nat) : (ctxAt s p).chain = blkOf (s.bytes (p + 0x1D0) 16) :=
  congrArg blkOf (ctxAt_slice s p (by decide))

theorem ctxAt_k1 (s : State) (p : Nat) : (ctxAt s p).k1 = blkOf (s.bytes (p + 0x1E0) 16) :=
  congrArg blkOf (ctxAt_slice s p (by decide))

theorem ctxAt_k2 (s : State) (p : Nat) : (ctxAt s p).k2 = blkOf (s.bytes (p + 0x1F0) 16) :=
  congrArg blkOf (ctxAt_slice s p (by decide))

theorem ctxStatus_ok {c : AesCtx} {limit seqErr : Bool} (hv : c.valid = true) (hl : limit = false) (hs : seqErr = false) :
    ctxStatus c limit seqErr = 0 := by
  simp [ctxStatus, hv, hl, hs]

theorem ctxStatus_invalid {c : AesCtx} (limit seqErr : Bool) (hv : c.valid = false) : ctxStatus c limit seqErr = 1 := by
  simp [ctxStatus, hv]

/-! ### What the words write -/

/-- The encryption of the zero block, from which a key's subkeys come. -/
def keyZero (n : Nat) (key : List Byte) : List Byte := aesEncrypt (n / 4 + 6) (aesSchedule key) (List.replicate 16 0)

/-- The opaque bytes of a key's context, before the mask. -/
def keyOpaque (n : Nat) (key : List Byte) : List Byte :=
  aesSchedule key ++ List.replicate (240 - (aesSchedule key).length) 0 ++ keyZero n key ++ List.replicate 128 0

/-- The code of a valid context. -/
def keyCode (n : Nat) : Nat := if n = 16 then 0x81 else 0x82

/-- The outputs of AKEY128 and AKEY256 to a context at address `a` and place `p`. -/
def keyOutputs (a p n : Nat) (key : List Byte) : List Output :=
  [⟨a, p, maskOpaque (keyOpaque n key) ++ leBytes 8 (keyCode n) ++ List.replicate 16 0⟩,
   ⟨a + 0x199, p + 0x199, List.replicate 7 0⟩,
   ⟨a + 0x1C0, p + 0x1C0, List.replicate 32 0 ++ blkBytes (dblBlk (blkOf (keyZero n key))) ++
     blkBytes (dblBlk (dblBlk (blkOf (keyZero n key))))⟩]

/-- The counter block that GCMENC and GCMDEC encrypt. -/
def AesCtx.nextCtr (c : AesCtx) : Blk := inc32 (if c.text = 0 then c.j0 else c.ctr)

/-- The output of GCMENC and GCMDEC for an input. -/
def AesCtx.stream (c : AesCtx) (inp : List Byte) : List Byte := xorBytes inp (blkBytes (c.enc c.nextCtr))

/-- The outputs of GCMENC and GCMDEC. -/
def gcmOutputs (a p b q : Nat) (c : AesCtx) (dec : Bool) (inp : List Byte) : List Output :=
  [⟨a + 0x190, p + 0x190, leBytes 8 (c.text + c.blockLen)⟩,
   ⟨a + 0x1B0, p + 0x1B0, blkBytes c.nextCtr ++ blkBytes (c.absorb (blkOf (padZero (if dec then inp else c.stream inp))))⟩,
   ⟨b, q, c.stream inp⟩]

/-- The outputs of GHASH. -/
def ghashOutputs (a p : Nat) (c : AesCtx) (inp : List Byte) : List Output :=
  [⟨a + 0x188, p + 0x188, leBytes 8 (c.aad + c.blockLen)⟩, ⟨a + 0x1C0, p + 0x1C0, blkBytes (c.absorb (blkOf (padZero inp)))⟩]

theorem keyZero_length {n : Nat} {key : List Byte} (hk : key.length = n) (hn : n = 16 ∨ n = 32) : (keyZero n key).length = 16 :=
  aesEncrypt_length (List.length_replicate ..) (by rw [aesSchedule_length hk hn])

theorem keyOpaque_length {n : Nat} {key : List Byte} (hk : key.length = n) (hn : n = 16 ∨ n = 32) :
    (keyOpaque n key).length = 384 := by
  rw [keyOpaque, List.length_append, List.length_append, List.length_append, List.length_replicate, List.length_replicate,
    keyZero_length hk hn, aesSchedule_length hk hn]
  rcases hn with rfl | rfl <;> rfl

/-! ### The bodies -/

section

variable {s : State} {t : Tid} {rd ra rb : RegNo} {a b p q n : Nat}

/-- The first bytes of an area lie where the area lies. -/
theorem placeOf_prefix {k : Nat} (h : placeOf s t a n = some p) (hk : k ≤ n) (h0 : 0 < n) : placeOf s t a k = some p :=
  placeOf_part h (o := 0) (by rwa [Nat.zero_add]) h0

theorem readCtx_place (wr wb : Bool) (hf : annexFree s t) (hm : (s.thr t.toNat).mode = false) (hs : s.Sound) (hal : a % 8 = 0)
    (hp : placeOf s t a 512 = some p) (hb : placeOf s t b n = some q) :
    readCtx t.toNat a wr b n wb s = .ok (ctxAt s p) s := by
  simp only [readCtx, bind, EStateM.bind, aligned8_ok hal,
    annexStart_free (bs := [(a, 512, wr), (b, n, wb)]) hf (show 0 < 8 by decide) ((Answer.nil.cons hb).cons hp),
    blockRead_place hm hs hp]
  rfl

theorem akeyBody_place (hf : annexFree s t) (hm : (s.thr t.toNat).mode = false) (hs : s.Sound)
    (ha : ((s.thr t.toNat).get ra).toNat = a) (hb : ((s.thr t.toNat).get rb).toNat = b) (hal : a % 8 = 0) (hn : n = 16 ∨ n = 32)
    (hp : placeOf s t a 512 = some p) (hq : placeOf s t b n = some q) :
    akeyBody t rd ra rb n s = .ok .seq ((s.storeAll t.toNat (keyOutputs a p n (s.bytes q n))).setG t.toNat rd 0) := by
  have hend := annexEnd_places rd 0 (keyOutputs a p n (s.bytes q n)) hm hs (List.forall_mem_cons.mpr ⟨?_,
    List.forall_mem_cons.mpr ⟨?_, List.forall_mem_singleton.mpr ?_⟩⟩)
  · simp only [akeyBody, look, bind, EStateM.bind, ha, hb, aligned8_ok hal,
      annexStart_free (bs := [(a, 512, true), (b, n, false)]) hf (show 0 < 8 by decide) ((Answer.nil.cons hq).cons hp),
      blockRead_place hm hs hq]
    exact hend
  · have hlen : (maskOpaque (keyOpaque n (s.bytes q n)) ++ leBytes 8 (keyCode n) ++ List.replicate 16 0).length = 408 := by
      rw [List.length_append, List.length_append, maskOpaque_length, keyOpaque_length (State.bytes_length ..) hn, leBytes_length,
        List.length_replicate]
    rw [hlen]
    exact placeOf_prefix hp (by decide) (by decide)
  · rw [List.length_replicate]
    exact placeOf_part hp (by decide) (by decide)
  · rw [List.length_append, List.length_append, List.length_replicate, blkBytes_length, blkBytes_length]
    exact placeOf_part hp (by decide) (by decide)

theorem AesCtx.stream_length (c : AesCtx) {inp : List Byte} (h : inp.length = c.blockLen) : (c.stream inp).length = c.blockLen := by
  rw [AesCtx.stream, xorBytes_length, h, blkBytes_length, Nat.min_eq_left c.blockLen_le]

/-- A block of the context's length lies within the block of 16 bytes at its place. -/
theorem placeOf_block (c : AesCtx) (hq : placeOf s t b 16 = some q) : placeOf s t b c.blockLen = some q :=
  placeOf_prefix hq c.blockLen_le (by decide)

theorem gcmBody_place (dec : Bool) (hf : annexFree s t) (hm : (s.thr t.toNat).mode = false) (hs : s.Sound)
    (ha : ((s.thr t.toNat).get ra).toNat = a) (hb : ((s.thr t.toNat).get rb).toNat = b) (hal : a % 8 = 0)
    (hp : placeOf s t a 512 = some p) (hq : placeOf s t b 16 = some q) (hv : (ctxAt s p).valid = true)
    (htext : (ctxAt s p).text % 16 = 0) (hlim : ((ctxAt s p).text + 15) / 16 < 2 ^ 32 - 2) :
    gcmBody t rd ra rb dec s = .ok .seq
      ((s.storeAll t.toNat (gcmOutputs a p b q (ctxAt s p) dec (s.bytes q (ctxAt s p).blockLen))).setG t.toNat rd 0) := by
  have hctx := readCtx_place true true hf hm hs hal hp (placeOf_prefix hq (k := 1) (by decide) (by decide))
  generalize ctxAt s p = c at hctx hv htext hlim ⊢
  have hst : ctxStatus c (decide (2 ^ 32 - 2 ≤ (c.text + 15) / 16)) c.textClosed = 0 :=
    ctxStatus_ok hv (decide_eq_false (Nat.not_le.mpr hlim)) (by simp [AesCtx.textClosed, htext])
  have hend := annexEnd_places rd 0 (gcmOutputs a p b q c dec (s.bytes q c.blockLen)) hm hs (List.forall_mem_cons.mpr ⟨?_,
    List.forall_mem_cons.mpr ⟨?_, List.forall_mem_singleton.mpr ?_⟩⟩)
  · simp only [gcmBody, look, bind, EStateM.bind, ha, hb, hctx, hst, ne_eq, not_true_eq_false, if_false,
      blockRead_place hm hs (placeOf_block c hq)]
    exact hend
  · rw [leBytes_length]
    exact placeOf_part hp (by decide) (by decide)
  · rw [List.length_append, blkBytes_length, blkBytes_length]
    exact placeOf_part hp (by decide) (by decide)
  · rw [c.stream_length (State.bytes_length ..)]
    exact placeOf_block c hq

theorem ghashBody_place (hf : annexFree s t) (hm : (s.thr t.toNat).mode = false) (hs : s.Sound)
    (ha : ((s.thr t.toNat).get ra).toNat = a) (hb : ((s.thr t.toNat).get rb).toNat = b) (hal : a % 8 = 0)
    (hp : placeOf s t a 512 = some p) (hq : placeOf s t b 16 = some q) (hv : (ctxAt s p).valid = true)
    (htext : (ctxAt s p).text = 0) (haad : (ctxAt s p).aad % 16 = 0) :
    ghashBody t rd ra rb s = .ok .seq
      ((s.storeAll t.toNat (ghashOutputs a p (ctxAt s p) (s.bytes q (ctxAt s p).blockLen))).setG t.toNat rd 0) := by
  have hctx := readCtx_place true false hf hm hs hal hp (placeOf_prefix hq (k := 1) (by decide) (by decide))
  generalize ctxAt s p = c at hctx hv htext haad ⊢
  have hst : ctxStatus c false (decide (¬ c.text = 0) || c.aadClosed) = 0 :=
    ctxStatus_ok hv rfl (by simp [AesCtx.aadClosed, htext, haad])
  have hend := annexEnd_places rd 0 (ghashOutputs a p c (s.bytes q c.blockLen)) hm hs (List.forall_mem_cons.mpr ⟨?_,
    List.forall_mem_singleton.mpr ?_⟩)
  · simp only [ghashBody, look, bind, EStateM.bind, ha, hb, hctx, ne_eq, hst, not_true_eq_false, if_false,
      blockRead_place hm hs (placeOf_block c hq)]
    exact hend
  · rw [leBytes_length]
    exact placeOf_part hp (by decide) (by decide)
  · rw [blkBytes_length]
    exact placeOf_part hp (by decide) (by decide)

theorem cmacBody_place (hf : annexFree s t) (hm : (s.thr t.toNat).mode = false) (hs : s.Sound)
    (ha : ((s.thr t.toNat).get ra).toNat = a) (hb : ((s.thr t.toNat).get rb).toNat = b) (hal : a % 8 = 0)
    (hp : placeOf s t a 512 = some p) (hq : placeOf s t b 16 = some q) (hv : (ctxAt s p).valid = true)
    (htext : (ctxAt s p).text % 16 = 0) (haad : (ctxAt s p).aad % 16 = 0) :
    cmacBody t rd ra rb s = .ok .seq ((s.storeAll t.toNat [⟨a + 0x1D0, p + 0x1D0,
      blkBytes ((ctxAt s p).enc ((ctxAt s p).chain ^^^ blkOf (s.bytes q 16)))⟩]).setG t.toNat rd 0) := by
  have hctx := readCtx_place true false hf hm hs hal hp hq
  generalize ctxAt s p = c at hctx hv htext haad ⊢
  have hst : ctxStatus c false (c.aadClosed || c.textClosed) = 0 :=
    ctxStatus_ok hv rfl (by simp [AesCtx.aadClosed, AesCtx.textClosed, htext, haad])
  have hend := annexEnd_places rd 0 [⟨a + 0x1D0, p + 0x1D0, blkBytes (c.enc (c.chain ^^^ blkOf (s.bytes q 16)))⟩] hm hs
    (List.forall_mem_singleton.mpr (by rw [blkBytes_length]; exact placeOf_part hp (by decide) (by decide)))
  simp only [cmacBody, look, bind, EStateM.bind, ha, hb, hctx, hst, ne_eq, not_true_eq_false, if_false, blockRead_place hm hs hq]
  exact hend

/-- The tag that GCMTAG writes. -/
def AesCtx.tag (c : AesCtx) : Blk := c.absorb (blkOf (beBytes 8 (8 * c.aad) ++ beBytes 8 (8 * c.text))) ^^^ c.enc c.j0

/-- The bytes of the last block that CMACEND takes. -/
def AesCtx.lastLen (c : AesCtx) : Nat := if c.part = 0xFF then 0 else c.blockLen

/-- The tag that CMACEND writes over the last bytes. -/
def AesCtx.mac (c : AesCtx) (inp : List Byte) : Blk :=
  c.enc (c.chain ^^^ (if c.lastLen = 16 then blkOf inp ^^^ c.k1 else blkOf (padOne inp) ^^^ c.k2))

theorem gcmtagBody_place (hf : annexFree s t) (hm : (s.thr t.toNat).mode = false) (hs : s.Sound)
    (ha : ((s.thr t.toNat).get ra).toNat = a) (hb : ((s.thr t.toNat).get rb).toNat = b) (hal : a % 8 = 0)
    (hp : placeOf s t a 512 = some p) (hq : placeOf s t b 16 = some q) (hv : (ctxAt s p).valid = true) :
    gcmtagBody t rd ra rb s =
      .ok .seq ((s.storeAll t.toNat [⟨b, q, blkBytes (ctxAt s p).tag⟩]).setG t.toNat rd 0) := by
  have hctx := readCtx_place false true hf hm hs hal hp hq
  generalize ctxAt s p = c at hctx hv ⊢
  have hend := annexEnd_places rd 0 [⟨b, q, blkBytes c.tag⟩] hm hs
    (List.forall_mem_singleton.mpr (by rw [blkBytes_length]; exact hq))
  simp only [gcmtagBody, look, bind, EStateM.bind, ha, hb, hctx, ctxStatus_ok hv rfl rfl, ne_eq, not_true_eq_false, if_false]
  exact hend

theorem cmacendBody_place (hf : annexFree s t) (hm : (s.thr t.toNat).mode = false) (hs : s.Sound)
    (ha : ((s.thr t.toNat).get ra).toNat = a) (hb : ((s.thr t.toNat).get rb).toNat = b) (hal : a % 8 = 0)
    (hp : placeOf s t a 512 = some p) (hq : placeOf s t b 16 = some q) (hv : (ctxAt s p).valid = true) :
    cmacendBody t rd ra rb s = .ok .seq ((s.storeAll t.toNat
      [⟨b, q, blkBytes ((ctxAt s p).mac (s.bytes q (ctxAt s p).lastLen))⟩]).setG t.toNat rd 0) := by
  have hctx := readCtx_place false true hf hm hs hal hp hq
  generalize ctxAt s p = c at hctx hv ⊢
  have hend := annexEnd_places rd 0 [⟨b, q, blkBytes (c.mac (s.bytes q c.lastLen))⟩] hm hs
    (List.forall_mem_singleton.mpr (by rw [blkBytes_length]; exact hq))
  have hread : (if c.lastLen = 0 then pure [] else blockRead t.toNat b c.lastLen : M (List Byte)) s = .ok (s.bytes q c.lastLen) s := by
    have hle : c.lastLen ≤ 16 := by
      unfold AesCtx.lastLen
      split
      · decide
      · exact c.blockLen_le
    split
    · rename_i h0
      rw [h0]
      rfl
    · exact blockRead_place hm hs (placeOf_prefix hq hle (by decide))
  have hbody : cmacendBody t rd ra rb s = EStateM.bind (if c.lastLen = 0 then pure [] else blockRead t.toNat b c.lastLen : M (List Byte))
      (fun inp => annexEnd t.toNat rd [(b, blkBytes (c.mac inp))] 0) s := by
    simp only [cmacendBody, look, bind, EStateM.bind, ha, hb, hctx, ctxStatus_ok hv rfl rfl, ne_eq, not_true_eq_false, if_false]
    rfl
  rw [hbody]
  simp only [EStateM.bind, hread]
  exact hend

end

end Sys2Proof.Machine

/-! PROOF. The contexts that the AES words leave behind (03 R102, R103). -/

namespace Sys2Proof.Machine

open Sys2Proof.Says (ctxAt)

/-! ### A key's context -/

section

variable {s : State} {a p n : Nat} {key : List Byte} (t : Nat) (hk : key.length = n) (hn : n = 16 ∨ n = 32)

/-- The first output of a key's word: the opaque bytes, the code and the counts. -/
def keyHead (n : Nat) (key : List Byte) : List Byte :=
  maskOpaque (keyOpaque n key) ++ leBytes 8 (keyCode n) ++ List.replicate 16 0

/-- Its last output: the accumulators and the CMAC subkeys. -/
def keyTail (n : Nat) (key : List Byte) : List Byte :=
  List.replicate 32 0 ++ blkBytes (dblBlk (blkOf (keyZero n key))) ++ blkBytes (dblBlk (dblBlk (blkOf (keyZero n key))))

theorem keyOutputs_eq (a p n : Nat) (key : List Byte) : keyOutputs a p n key =
    [⟨a, p, keyHead n key⟩, ⟨a + 0x199, p + 0x199, List.replicate 7 0⟩, ⟨a + 0x1C0, p + 0x1C0, keyTail n key⟩] := rfl

theorem keyTail_length (n : Nat) (key : List Byte) : (keyTail n key).length = 64 := by
  rw [keyTail, List.length_append, List.length_append, List.length_replicate, blkBytes_length, blkBytes_length]

include hk hn

theorem keyHead_length : (keyHead n key).length = 408 := by
  rw [keyHead, List.length_append, List.length_append, maskOpaque_length, keyOpaque_length hk hn, leBytes_length,
    List.length_replicate]

/-- A property of a key's outputs, one by one. -/
theorem forall_keyOutputs {f : Nat → Nat → Prop} (h1 : f p 408) (h2 : f (p + 0x199) 7) (h3 : f (p + 0x1C0) 64) :
    ∀ w ∈ keyOutputs a p n key, f w.place w.bytes.length := by
  rw [keyOutputs_eq, List.forall_mem_cons, List.forall_mem_cons, List.forall_mem_singleton]
  exact ⟨by rwa [keyHead_length hk hn], by rwa [List.length_replicate], by rwa [keyTail_length]⟩

theorem keyOutputs_apart : (keyOutputs a p n key).Pairwise Output.Apart := by
  rw [keyOutputs_eq, List.pairwise_cons, List.pairwise_cons, List.forall_mem_cons, List.forall_mem_singleton,
    List.forall_mem_singleton]
  unfold Output.Apart
  rw [keyHead_length hk hn, List.length_replicate, keyTail_length]
  exact ⟨⟨.inl (show p + 408 ≤ p + 409 by omega), .inl (show p + 408 ≤ p + 448 by omega)⟩,
    .inl (show p + 409 + 7 ≤ p + 448 by omega), List.pairwise_singleton _ _⟩

theorem keyHead_read (hmem : s.memCanonical) {o k : Nat} (h : o + k ≤ 408) :
    (s.storeAll t (keyOutputs a p n key)).bytes (p + o) k = slice (keyHead n key) o k :=
  State.storeAll_bytes (w := ⟨a, p, keyHead n key⟩) t (by rwa [keyHead_length hk hn]) _ s hmem (keyOutputs_apart hk hn) (.head _)

theorem keyTail_read (hmem : s.memCanonical) {o k : Nat} (h : o + k ≤ 64) :
    (s.storeAll t (keyOutputs a p n key)).bytes (p + (0x1C0 + o)) k = slice (keyTail n key) o k := by
  rw [← Nat.add_assoc]
  exact State.storeAll_bytes (w := ⟨a + 0x1C0, p + 0x1C0, keyTail n key⟩) t (by rwa [keyTail_length]) _ s hmem
    (keyOutputs_apart hk hn) (.tail _ (.tail _ (.head _)))

/-- Bytes between a key's outputs stay. -/
theorem keySpare_read {o k : Nat} (h : 408 ≤ o ∧ o + k ≤ 409 ∨ 416 ≤ o ∧ o + k ≤ 448) :
    (s.storeAll t (keyOutputs a p n key)).bytes (p + o) k = s.bytes (p + o) k :=
  State.storeAll_bytes_apart s t (forall_keyOutputs hk hn (f := fun q l => p + o + k ≤ q ∨ q + l ≤ p + o)
    (by omega) (by omega) (by omega))

theorem key_code (hmem : s.memCanonical) : (ctxAt (s.storeAll t (keyOutputs a p n key)) p).code = keyCode n := by
  have hs := slice_middle (maskOpaque (keyOpaque n key)) (leBytes 8 (keyCode n)) (List.replicate 16 0)
  rw [maskOpaque_length, keyOpaque_length hk hn, leBytes_length] at hs
  rw [ctxAt_code, keyHead_read t hk hn hmem (by decide), keyHead, hs, leNat_leBytes]
  rcases hn with rfl | rfl <;> rfl

theorem key_sched (hmem : s.memCanonical) : (ctxAt (s.storeAll t (keyOutputs a p n key)) p).sched = keyOpaque n key := by
  have hlen := keyOpaque_length hk hn
  have hr := keyHead_read (s := s) (a := a) (p := p) t hk hn hmem (o := 0) (k := 384) (by decide)
  rw [Nat.add_zero] at hr
  rw [ctxAt_sched, hr, keyHead, List.append_assoc, slice_left _ (by rw [maskOpaque_length, hlen]),
    slice_all (by rw [maskOpaque_length, hlen]), maskOpaque_maskOpaque]

theorem key_sched_take (hmem : s.memCanonical) :
    (ctxAt (s.storeAll t (keyOutputs a p n key)) p).sched.take (aesSchedule key).length = aesSchedule key := by
  rw [key_sched t hk hn hmem, keyOpaque, List.append_assoc, List.append_assoc, List.take_left]

theorem key_hkey (hmem : s.memCanonical) : (ctxAt (s.storeAll t (keyOutputs a p n key)) p).hkey = blkOf (keyZero n key) := by
  have hpre : (aesSchedule key ++ List.replicate (240 - (aesSchedule key).length) 0).length = 240 := by
    rw [List.length_append, List.length_replicate, aesSchedule_length hk hn]
    rcases hn with rfl | rfl <;> rfl
  have hs := slice_middle (aesSchedule key ++ List.replicate (240 - (aesSchedule key).length) 0) (keyZero n key)
    (List.replicate 128 0)
  rw [hpre, keyZero_length hk hn] at hs
  rw [AesCtx.hkey, key_sched t hk hn hmem, keyOpaque, hs]

/-- The counts of a new context are 0. -/
theorem key_counts (hmem : s.memCanonical) : (ctxAt (s.storeAll t (keyOutputs a p n key)) p).aad = 0 ∧
    (ctxAt (s.storeAll t (keyOutputs a p n key)) p).text = 0 := by
  have hlen : (maskOpaque (keyOpaque n key) ++ leBytes 8 (keyCode n)).length = 392 := by
    rw [List.length_append, maskOpaque_length, keyOpaque_length hk hn, leBytes_length]
  rw [ctxAt_aad, ctxAt_text, keyHead_read t hk hn hmem (by decide), keyHead_read t hk hn hmem (by decide), keyHead]
  rw [show (0x188 : Nat) = 392 + 0 from rfl, show (0x190 : Nat) = 392 + 8 from rfl, slice_right _ hlen, slice_right _ hlen,
    slice_zeros (by decide), slice_zeros (by decide), leNat_zeros]
  exact ⟨rfl, rfl⟩

/-- Its accumulators are 0. -/
theorem key_accumulators (hmem : s.memCanonical) : (ctxAt (s.storeAll t (keyOutputs a p n key)) p).acc = 0 ∧
    (ctxAt (s.storeAll t (keyOutputs a p n key)) p).chain = 0 := by
  have h0 := keyTail_read (s := s) (a := a) (p := p) t hk hn hmem (o := 0) (k := 16) (by decide)
  have h1 := keyTail_read (s := s) (a := a) (p := p) t hk hn hmem (o := 16) (k := 16) (by decide)
  rw [keyTail, List.append_assoc, slice_left _ (by simp), slice_zeros (by decide)] at h0 h1
  exact ⟨(ctxAt_acc ..).trans ((congrArg blkOf h0).trans blkOf_zeros), (ctxAt_chain ..).trans ((congrArg blkOf h1).trans blkOf_zeros)⟩

/-- Its CMAC subkeys come from the encrypted zero block. -/
theorem key_subkeys (hmem : s.memCanonical) :
    (ctxAt (s.storeAll t (keyOutputs a p n key)) p).k1 = dblBlk (blkOf (keyZero n key)) ∧
    (ctxAt (s.storeAll t (keyOutputs a p n key)) p).k2 = dblBlk (dblBlk (blkOf (keyZero n key))) := by
  generalize hb : dblBlk (blkOf (keyZero n key)) = b
  have h0 := keyTail_read (s := s) (a := a) (p := p) t hk hn hmem (o := 32) (k := 16) (by decide)
  have h1 := keyTail_read (s := s) (a := a) (p := p) t hk hn hmem (o := 48) (k := 16) (by decide)
  have hm := slice_middle (List.replicate 32 0) (blkBytes b) (blkBytes (dblBlk b))
  have he := slice_end (List.replicate 32 0 ++ blkBytes b) (blkBytes (dblBlk b))
  rw [List.length_replicate, blkBytes_length] at hm
  rw [List.length_append, List.length_replicate, blkBytes_length, blkBytes_length] at he
  rw [keyTail, hb] at h0 h1
  exact ⟨(ctxAt_k1 ..).trans ((congrArg blkOf (h0.trans hm)).trans (blkOf_blkBytes _)),
    (ctxAt_k2 ..).trans ((congrArg blkOf (h1.trans he)).trans (blkOf_blkBytes _))⟩

/-- PARTLEN, J0 and the counter block keep their bytes. -/
theorem key_kept : (ctxAt (s.storeAll t (keyOutputs a p n key)) p).part = (ctxAt s p).part ∧
    (ctxAt (s.storeAll t (keyOutputs a p n key)) p).j0 = (ctxAt s p).j0 ∧
    (ctxAt (s.storeAll t (keyOutputs a p n key)) p).ctr = (ctxAt s p).ctr := by
  have hpart := keySpare_read (s := s) (a := a) (p := p) t hk hn (o := 0x198) (k := 1) (by decide)
  rw [ctxAt_part, ctxAt_part, ctxAt_j0, ctxAt_j0, ctxAt_ctr, ctxAt_ctr, keySpare_read t hk hn (by decide),
    keySpare_read t hk hn (by decide), (List.cons.inj hpart).1]
  exact ⟨rfl, rfl, rfl⟩

end

end Sys2Proof.Machine

namespace Sys2Proof.Says

open Sys2Proof.Machine

/-- Contexts are read from memory alone. -/
theorem ctxAt_congr {s u : State} (h : u.mem = s.mem) (p : Nat) : ctxAt u p = ctxAt s p :=
  congrArg AesCtx.mk (State.bytes_congr h p 512)

theorem keyContexts : KeyContexts := by
  intro s t rd ra rb p q n i hr hf he hc hmem hi hal hp hq ks h
  have hn : n = 16 ∨ n = 32 := hi.imp And.left And.left
  have hk : (s.bytes q n).length = n := State.bytes_length ..
  have hexec : exec i s = .next (runWord t i false (akeyBody t rd ra rb n) s) := by
    rcases hi with ⟨rfl, rfl⟩ | ⟨rfl, rfl⟩ <;> rfl
  obtain ⟨hop, hm⟩ := operated_within i hr he (akeyBody_place hf he hc.sound rfl rfl hal hn hp hq) [(p, 512)]
    (forall_keyOutputs hk hn (f := fun x l => ∃ r ∈ [(p, 512)], r.1 ≤ x ∧ x + l ≤ r.1 + r.2)
      ⟨_, .head _, Nat.le_refl _, show p + 408 ≤ p + 512 by omega⟩
      ⟨_, .head _, Nat.le_add_right _ _, show p + 0x199 + 7 ≤ p + 512 by omega⟩
      ⟨_, .head _, Nat.le_add_right _ _, show p + 0x1C0 + 64 ≤ p + 512 by omega⟩)
  have hcode := key_code (s := s) (a := ((s.thr t.toNat).get ra).toNat) (p := p) t.toNat hk hn hmem
  obtain ⟨haad, htext⟩ := key_counts (s := s) (a := ((s.thr t.toNat).get ra).toNat) (p := p) t.toNat hk hn hmem
  obtain ⟨hacc, hchain⟩ := key_accumulators (s := s) (a := ((s.thr t.toNat).get ra).toNat) (p := p) t.toNat hk hn hmem
  obtain ⟨hk1, hk2⟩ := key_subkeys (s := s) (a := ((s.thr t.toNat).get ra).toNat) (p := p) t.toNat hk hn hmem
  obtain ⟨hpart, hj0, hctr⟩ := key_kept (s := s) (a := ((s.thr t.toNat).get ra).toNat) (p := p) t.toNat hk hn
  refine ⟨_, hexec, hop, ?_⟩
  rw [ctxAt_congr hm]
  refine ⟨?_, ?_, key_sched_take t.toNat hk hn hmem, key_hkey t.toNat hk hn hmem, haad, htext, hacc, hchain, hk1, hk2, hpart, hj0,
    hctr⟩
  · rw [AesCtx.valid, hcode]
    rcases hn with rfl | rfl <;> rfl
  · rw [AesCtx.rounds, hcode]
    rcases hn with rfl | rfl <;> rfl

end Sys2Proof.Says

/-! PROOF. The block operations of an AES context and its tags (03 R102, R103). -/

namespace Sys2Proof.Machine

open Sys2Proof.Says (ctxAt placeOf annexFree)

/-- A whole output reads back, where the outputs are apart. -/
theorem State.storeAll_whole {s : State} {ws : List Output} {w : Output} {n : Nat} (t : Nat) (hmem : s.memCanonical)
    (hp : ws.Pairwise Output.Apart) (hw : w ∈ ws) (hn : w.bytes.length = n) : (s.storeAll t ws).bytes w.place n = w.bytes := by
  have h := State.storeAll_bytes (o := 0) (k := n) t (by rw [hn, Nat.zero_add]) ws s hmem hp hw
  rwa [Nat.add_zero, slice_all hn] at h

theorem storeOne_bytes (s : State) (t a p : Nat) {bs : List Byte} {n : Nat} (hmem : s.memCanonical) (hn : bs.length = n) :
    (s.storeAll t [⟨a, p, bs⟩]).bytes p n = bs :=
  State.storeAll_whole (w := ⟨a, p, bs⟩) t hmem (List.pairwise_singleton _ _) (.head _) hn

section

variable {s : State} {a b p q : Nat} {c : AesCtx} {dec : Bool} {inp : List Byte} (t : Nat)

theorem gcmOutputs_apart (hap : Says.apart p 512 q 16) (hi : inp.length = c.blockLen) :
    (gcmOutputs a p b q c dec inp).Pairwise Output.Apart := by
  have hle := c.blockLen_le
  rw [gcmOutputs, List.pairwise_cons, List.pairwise_cons, List.forall_mem_cons, List.forall_mem_singleton,
    List.forall_mem_singleton]
  simp only [Output.Apart, leBytes_length, List.length_append, blkBytes_length, c.stream_length hi]
  unfold Says.apart at hap
  exact ⟨⟨by omega, by omega⟩, by omega, List.pairwise_singleton _ _⟩

/-- What GCMENC and GCMDEC leave: the output block, the count, the counter block and the accumulator. -/
theorem gcm_left (hmem : s.memCanonical) (hap : Says.apart p 512 q 16) (hi : inp.length = c.blockLen)
    (hsum : c.text + c.blockLen < 2 ^ 64) :
    (s.storeAll t (gcmOutputs a p b q c dec inp)).bytes q c.blockLen = c.stream inp ∧
    (ctxAt (s.storeAll t (gcmOutputs a p b q c dec inp)) p).text = c.text + c.blockLen ∧
    (ctxAt (s.storeAll t (gcmOutputs a p b q c dec inp)) p).ctr = c.nextCtr ∧
    (ctxAt (s.storeAll t (gcmOutputs a p b q c dec inp)) p).acc =
      c.absorb (blkOf (padZero (if dec then inp else c.stream inp))) := by
  have hp := gcmOutputs_apart (a := a) (b := b) (dec := dec) hap hi
  generalize habs : c.absorb (blkOf (padZero (if dec then inp else c.stream inp))) = x
  have hws : gcmOutputs a p b q c dec inp = [⟨a + 0x190, p + 0x190, leBytes 8 (c.text + c.blockLen)⟩,
      ⟨a + 0x1B0, p + 0x1B0, blkBytes c.nextCtr ++ blkBytes x⟩, ⟨b, q, c.stream inp⟩] := by rw [gcmOutputs, habs]
  rw [hws] at hp ⊢
  have hlen : (blkBytes c.nextCtr ++ blkBytes x).length = 32 := by rw [List.length_append, blkBytes_length, blkBytes_length]
  have htext := State.storeAll_whole (w := ⟨a + 0x190, p + 0x190, leBytes 8 (c.text + c.blockLen)⟩) t hmem hp (.head _)
    (leBytes_length 8 _)
  have hout := State.storeAll_whole (w := ⟨b, q, c.stream inp⟩) t hmem hp (.tail _ (.tail _ (.head _))) (c.stream_length hi)
  have hctr := State.storeAll_bytes (w := ⟨a + 0x1B0, p + 0x1B0, blkBytes c.nextCtr ++ blkBytes x⟩) (o := 0) (k := 16) t
    (by rw [hlen]; decide) _ s hmem hp (.tail _ (.head _))
  have hacc := State.storeAll_bytes (w := ⟨a + 0x1B0, p + 0x1B0, blkBytes c.nextCtr ++ blkBytes x⟩) (o := 16) (k := 16) t
    (by rw [hlen]) _ s hmem hp (.tail _ (.head _))
  have hl := slice_left (i := 0) (k := 16) (blkBytes x) (x := blkBytes c.nextCtr) (by rw [blkBytes_length])
  rw [slice_all (blkBytes_length _)] at hl
  have hr := slice_end (blkBytes c.nextCtr) (blkBytes x)
  rw [blkBytes_length, blkBytes_length] at hr
  refine ⟨hout, ?_, ?_, ?_⟩
  · refine (ctxAt_text ..).trans ((congrArg leNat htext).trans ?_)
    rw [leNat_leBytes]
    exact Nat.mod_eq_of_lt hsum
  · exact (ctxAt_ctr ..).trans ((congrArg blkOf (hctr.trans hl)).trans (blkOf_blkBytes _))
  · exact (ctxAt_acc ..).trans ((congrArg blkOf (hacc.trans hr)).trans (blkOf_blkBytes _))

/-- What GHASH leaves: the count of additional data and the accumulator. -/
theorem ghash_left (hmem : s.memCanonical) :
    (ctxAt (s.storeAll t (ghashOutputs a p c inp)) p).aad = (c.aad + c.blockLen) % 2 ^ 64 ∧
    (ctxAt (s.storeAll t (ghashOutputs a p c inp)) p).acc = c.absorb (blkOf (padZero inp)) := by
  have hp : (ghashOutputs a p c inp).Pairwise Output.Apart := by
    rw [ghashOutputs, List.pairwise_cons, List.forall_mem_singleton]
    simp only [Output.Apart, leBytes_length, blkBytes_length]
    exact ⟨.inl (by omega), List.pairwise_singleton _ _⟩
  have haad := State.storeAll_whole (w := ⟨a + 0x188, p + 0x188, leBytes 8 (c.aad + c.blockLen)⟩) t hmem hp (.head _)
    (leBytes_length 8 _)
  have hacc := State.storeAll_whole (w := ⟨a + 0x1C0, p + 0x1C0, blkBytes (c.absorb (blkOf (padZero inp)))⟩) t hmem hp
    (.tail _ (.head _)) (blkBytes_length _)
  exact ⟨(ctxAt_aad ..).trans ((congrArg leNat haad).trans (leNat_leBytes 8 _)),
    (ctxAt_acc ..).trans ((congrArg blkOf hacc).trans (blkOf_blkBytes _))⟩

end

/-! ### An invalid context -/

section

variable {s : State} {t : Tid} {rd ra rb : RegNo} {a b p q : Nat}

/-- The six words that use a context answer 1 where it is not valid. -/
theorem ctxBody_invalid (hf : annexFree s t) (hm : (s.thr t.toNat).mode = false) (hs : s.Sound)
    (ha : ((s.thr t.toNat).get ra).toNat = a) (hb : ((s.thr t.toNat).get rb).toNat = b) (hal : a % 8 = 0)
    (hp : placeOf s t a 512 = some p) (hq : placeOf s t b 16 = some q) (hv : (ctxAt s p).valid = false) :
    gcmtagBody t rd ra rb s = .ok .seq (s.setG t.toNat rd 1) ∧ cmacendBody t rd ra rb s = .ok .seq (s.setG t.toNat rd 1) ∧
    (∀ dec, gcmBody t rd ra rb dec s = .ok .seq (s.setG t.toNat rd 1)) ∧ ghashBody t rd ra rb s = .ok .seq (s.setG t.toNat rd 1) ∧
    cmacBody t rd ra rb s = .ok .seq (s.setG t.toNat rd 1) := by
  have hq1 := placeOf_prefix hq (k := 1) (by decide) (by decide)
  have hread : ∀ wr wb, readCtx t.toNat a wr b 16 wb s = .ok (ctxAt s p) s := fun wr wb =>
    readCtx_place wr wb hf hm hs hal hp hq
  have hread1 : ∀ wr wb, readCtx t.toNat a wr b 1 wb s = .ok (ctxAt s p) s := fun wr wb =>
    readCtx_place wr wb hf hm hs hal hp hq1
  have hst : ∀ limit seqErr, ctxStatus (ctxAt s p) limit seqErr = 1 := fun _ _ => ctxStatus_invalid _ _ hv
  have hend : annexStatus t.toNat rd 1 s = .ok .seq (s.setG t.toNat rd 1) := annexEnd_nil rd 1 hm hs
  have h10 : (1 : Word) ≠ 0 := by decide
  refine ⟨?_, ?_, fun dec => ?_, ?_, ?_⟩
  · simp only [gcmtagBody, look, bind, EStateM.bind, ha, hb, hread, hst, if_pos h10, hend]
  · simp only [cmacendBody, look, bind, EStateM.bind, ha, hb, hread, hst, if_pos h10, hend]
  · simp only [gcmBody, look, bind, EStateM.bind, ha, hb, hread1, hst, if_pos h10, hend]
  · simp only [ghashBody, look, bind, EStateM.bind, ha, hb, hread1, hst, if_pos h10, hend]
  · simp only [cmacBody, look, bind, EStateM.bind, ha, hb, hread, hst, if_pos h10, hend]

end

end Sys2Proof.Machine

namespace Sys2Proof.Says

open Sys2Proof.Machine

theorem contextBlocks : ContextBlocks := by
  intro s t rd ra rb p q hr hf he hc hmem c n hal hp hq hap hv
  have hinp : (s.bytes q n).length = c.blockLen := State.bytes_length ..
  refine ⟨fun dec htext hlim => ?_, fun htext haad => ?_, fun htext haad => ?_⟩
  · have hexec : exec (if dec then .gcmdec t rd ra rb else .gcmenc t rd ra rb) s =
        .next (runWord t (if dec then .gcmdec t rd ra rb else .gcmenc t rd ra rb) false (gcmBody t rd ra rb dec) s) := by
      cases dec <;> rfl
    have hsum : c.text + c.blockLen < 2 ^ 64 := by
      have := c.blockLen_le
      omega
    obtain ⟨hop, hm⟩ := operated (if dec then .gcmdec t rd ra rb else .gcmenc t rd ra rb) hr he
      (gcmBody_place (rd := rd) dec hf he hc.sound rfl rfl hal hp hq hv htext hlim) [(p + 0x190, 8), (p + 0x1B0, 32), (q, n)] (by
        rw [gcmOutputs, List.forall_mem_cons, List.forall_mem_cons, List.forall_mem_singleton, leBytes_length, List.length_append,
          blkBytes_length, blkBytes_length, AesCtx.stream_length _ hinp]
        exact ⟨.head _, .tail _ (.head _), .tail _ (.tail _ (.head _))⟩)
    obtain ⟨hout, htext', hctr, hacc⟩ := gcm_left (a := ((s.thr t.toNat).get ra).toNat) (b := ((s.thr t.toNat).get rb).toNat)
      (dec := dec) t.toNat hmem hap hinp hsum
    refine ⟨_, hexec, hop, (State.bytes_congr hm _ _).trans hout, ?_⟩
    rw [ctxAt_congr hm]
    exact ⟨htext', hctr, hacc⟩
  · obtain ⟨hop, hm⟩ := operated (.ghash t rd ra rb) hr he
      (ghashBody_place (rd := rd) hf he hc.sound rfl rfl hal hp hq hv htext haad) [(p + 0x188, 8), (p + 0x1C0, 16)] (by
        rw [ghashOutputs, List.forall_mem_cons, List.forall_mem_singleton, leBytes_length, blkBytes_length]
        exact ⟨.head _, .tail _ (.head _)⟩)
    refine ⟨_, rfl, hop, ?_⟩
    rw [ctxAt_congr hm]
    exact ghash_left t.toNat hmem
  · obtain ⟨hop, hm⟩ := operated (.cmac t rd ra rb) hr he
      (cmacBody_place (rd := rd) hf he hc.sound rfl rfl hal hp hq hv htext haad) [(p + 0x1D0, 16)] (by
        rw [List.forall_mem_singleton, blkBytes_length]
        exact .head _)
    refine ⟨_, rfl, hop, ?_⟩
    rw [ctxAt_congr hm, ctxAt_chain]
    exact (congrArg blkOf (storeOne_bytes s t.toNat _ _ hmem (blkBytes_length _))).trans (blkOf_blkBytes _)

theorem contextTags : ContextTags := by
  intro s t rd ra rb p q hr hf he hc hmem c n hal hp hq
  have hone : ∀ x : Blk, ∀ w ∈ ([⟨((s.thr t.toNat).get rb).toNat, q, blkBytes x⟩] : List Output),
      (w.place, w.bytes.length) ∈ [(q, 16)] := fun x => by
    rw [List.forall_mem_singleton, blkBytes_length]
    exact .head _
  refine ⟨fun hv => ⟨?_, ?_⟩, fun hv i hi => ?_⟩
  · obtain ⟨hop, hm⟩ := operated (.gcmtag t rd ra rb) hr he (gcmtagBody_place (rd := rd) hf he hc.sound rfl rfl hal hp hq hv)
      [(q, 16)] (hone _)
    exact ⟨_, rfl, hop, (State.bytes_congr hm _ _).trans (storeOne_bytes s t.toNat _ _ hmem (blkBytes_length _))⟩
  · obtain ⟨hop, hm⟩ := operated (.cmacend t rd ra rb) hr he (cmacendBody_place (rd := rd) hf he hc.sound rfl rfl hal hp hq hv)
      [(q, 16)] (hone _)
    refine ⟨_, rfl, hop, (State.bytes_congr hm _ _).trans ((storeOne_bytes s t.toNat _ _ hmem (blkBytes_length _)).trans ?_)⟩
    refine congrArg blkBytes ?_
    change c.mac (s.bytes q n) = c.enc (c.chain ^^^
      (if n = 16 then blkOf (s.bytes q 16) ^^^ c.k1 else blkOf (padOne (s.bytes q n)) ^^^ c.k2))
    rw [AesCtx.mac, show c.lastLen = n from rfl]
    by_cases h16 : n = 16
    · rw [if_pos h16, if_pos h16, h16]
    · rw [if_neg h16, if_neg h16]
  · obtain ⟨htag, hmac, hgcm, hghash, hcmac⟩ := ctxBody_invalid (rd := rd) hf he hc.sound rfl rfl hal hp hq hv
    rcases hi with rfl | rfl | rfl | rfl | rfl | rfl
    · exact runWord_answers _ hr he htag
    · exact runWord_answers _ hr he hmac
    · exact runWord_answers _ hr he (hgcm false)
    · exact runWord_answers _ hr he (hgcm true)
    · exact runWord_answers _ hr he hghash
    · exact runWord_answers _ hr he hcmac

/-- Settles O26: each word's outputs lie apart, so that every part of the context reads back as its word stored it. -/
theorem cipherWords : Obligations.CipherWords := ⟨keyContexts, contextBlocks, contextTags⟩

end Sys2Proof.Says

/-! PROOF. The state after reset (04 R130, R136; 13 R413, R414). -/

namespace Sys2Proof.Machine

/-- After reset every thread is as PORST_N leaves it. -/
theorem reset_thr (t : Nat) : State.reset.thr t = Thread.initial t := rfl

theorem initial_other {t : Nat} (h : t ≠ steward) : Thread.initial t = {} := if_neg h

/-- PORST_N leaves every general register 0. -/
theorem initial_get (t : Nat) (r : RegNo) : (Thread.initial t).get r = 0 := by
  have hregs : (Thread.initial t).regs = Vector.replicate 32 0 := by
    unfold Thread.initial
    split <;> rfl
  rw [Thread.get, hregs]
  split
  · rfl
  · exact Vector.getElem_replicate _

end Sys2Proof.Machine

namespace Sys2Proof.Says

open Sys2Proof.Machine

/-- Settles O6, by the thread that PORST_N leaves: the steward's ST is 8, every other thread is the default. -/
theorem resetState : Obligations.ResetState := by
  have hst : (State.reset.thr steward).st = 8#32 := rfl
  refine ⟨reset_mem_wf, rfl, rfl, fun t h => ?_, ?_, ?_, ?_, fun t r => ?_⟩
  · rw [reset_thr, initial_other h]
  · rw [Thread.priv, hst]
    decide
  · rw [Thread.mode, hst]
    decide
  · rw [Thread.il, hst]
    decide
  · rw [reset_thr, initial_get]

end Sys2Proof.Says

/-! PROOF. Places of registers that the device does not write of itself, and what a pair's end of run leaves
(08 R268, R273, R274). -/

namespace Sys2Proof.Machine

/-! ### Registers of the cores and of the Assay -/

/-- The registers of the regions and of the cores are written by commands only. -/
theorem high_notSelf {a : Nat} (h : 0x180000 ≤ a) : ¬ SelfReg a ∧ a ≠ Reg.AS_STS := by
  simp only [Reg.AS_STS]
  refine ⟨fun hs => ?_, by omega⟩
  have := hs.place
  simp only [List.mem_cons, List.not_mem_nil, or_false] at this
  omega

/-- The device writes no register of the Assay but AS_STS of itself. -/
theorem assay_notSelf {a : Nat} (h : a / 0x10000 = 8) : ¬ SelfReg a := by
  intro hs
  have := hs.place
  simp only [List.mem_cons, List.not_mem_nil, or_false] at this
  omega

namespace Settled

variable {s t u : State}

theorem trans (h : Settled s t) (k : Settled t u) : Settled s u where
  pending := k.pending.trans h.pending
  mem := k.mem.trans h.mem
  eccC := k.eccC.trans h.eccC
  eccU := k.eccU.trans h.eccU
  reg := fun a n m => (k.reg a n m).trans (h.reg a n m)
  eff := fun a n => (k.eff a n).trans (h.eff a n)
  hold := k.hold.trans h.hold
  snap := k.snap.trans h.snap
  thr := fun n => by
    obtain ⟨_, e⟩ := h.thr n
    obtain ⟨m, e'⟩ := k.thr n
    exact ⟨m, by rw [e', e]⟩
  cores := k.cores.trans h.cores
  caches := k.caches.trans h.caches
  resvs := k.resvs.trans h.resvs
  pairs := k.pairs.trans h.pairs
  bellows := k.bellows.trans h.bellows
  arbs := k.arbs.trans h.arbs
  boot := k.boot.trans h.boot
  ledger := k.ledger.trans h.ledger
  tb := k.tb.trans h.tb
  pins := k.pins.trans h.pins

theorem pair (h : Settled s t) (p : Nat) : t.pair p = s.pair p := by rw [State.pair, h.pairs, State.pair]

theorem tstate (h : Settled s t) (n : Nat) : (t.thr n).tstate = (s.thr n).tstate := by
  obtain ⟨m, e⟩ := h.thr n
  rw [e]

end Settled

/-! ### A run's end -/

theorem State.clearRun_core (s : State) (c : Nat) : (s.clearRun c).core c =
    { s.core c with cbuf := [], scHit := [], beats := 0, late := 0, doneAt := none, overrun := false } := State.core_setCore_same ..

theorem State.clearRun_core_other (s : State) {c d : Nat} (h : d ≠ c) : (s.clearRun c).core d = s.core d :=
  State.core_setCore_other _ _ h

/-- A Twin's return to Metered idle, but for the thread-halt source of its cluster. -/
def State.twinIdled (s : State) (c : Nat) : State :=
  s.modThr (4 * c) (fun th => { th with tstate := .meteredIdle, cur := none, resume := none })

theorem idleTwin_settled (s : State) (c : Nat) : Settled (s.twinIdled c) (s.idleTwin c) := .ofCalm ((Calm.refl _).level _ _)

theorem idleTwin_tstate (s : State) (c : Nat) : ((s.idleTwin c).thr (4 * c)).tstate = .meteredIdle := by
  rw [(idleTwin_settled s c).tstate, State.twinIdled, State.thr_modThr_same]

theorem idleTwin_tstate_other (s : State) {c d : Nat} (h : d ≠ c) :
    ((s.idleTwin c).thr (4 * d)).tstate = (s.thr (4 * d)).tstate := by
  rw [(idleTwin_settled s c).tstate, State.twinIdled, State.thr_modThr_other _ _ (by omega)]

/-- The return to Metered idle changes no core. -/
theorem idleTwin_core (s : State) (c d : Nat) : (s.idleTwin c).core d = s.core d := (idleTwin_settled s c).core d

end Sys2Proof.Machine

namespace Sys2Proof.Says

open Sys2Proof.Machine

/-! ### A pair's return to Metered idle -/

theorem PairIdle.settled {u w : State} {p : Nat} (h : PairIdle u p) (k : Settled u w) : PairIdle w p := by
  obtain ⟨hphase, hmsg, htwins⟩ := h
  refine ⟨by rw [k.pair, hphase], by rw [k.pair, hmsg], fun c hc => ?_⟩
  rw [k.tstate, k.core]
  exact htwins c hc

/-- A pair whose buffers are discarded and whose Twins return to Metered idle. -/
theorem pairIdle_idle (s : State) (p : Nat) : PairIdle ((s.discardBuffers p).pairIdle p) p := by
  have hne := pairCores_ne p
  have hcore : ∀ c, c = (pairCores p).1 ∨ c = (pairCores p).2 → ((s.discardBuffers p).core c).cbuf = [] ∧
      ((s.discardBuffers p).core c).beats = 0 ∧ ((s.discardBuffers p).core c).doneAt = none := by
    rintro c (rfl | rfl)
    · rw [State.discardBuffers, State.clearRun_core_other _ hne, State.clearRun_core]
      exact ⟨rfl, rfl, rfl⟩
    · rw [State.discardBuffers, State.clearRun_core]
      exact ⟨rfl, rfl, rfl⟩
  have hpair := State.pair_setPair_same (((s.discardBuffers p).idleTwin (pairCores p).1).idleTwin (pairCores p).2) p
  refine ⟨congrArg Pair.phase (hpair _), congrArg Pair.msg (hpair _), fun c hc => ⟨?_, ?_⟩⟩
  · rcases hc with rfl | rfl
    · exact (idleTwin_tstate_other _ hne).trans (idleTwin_tstate _ _)
    · exact idleTwin_tstate _ _
  · have e : ((s.discardBuffers p).pairIdle p).core c = (s.discardBuffers p).core c :=
      (idleTwin_core ..).trans (idleTwin_core ..)
    rw [e]
    exact hcore c hc

/-- The final discard of a run leaves its pair idle. -/
theorem finalDiscard_idle (s : State) (p : Nat) : PairIdle (s.finalDiscard p) p := by
  unfold State.finalDiscard
  dsimp only
  split
  · exact (pairIdle_idle s p).settled (.ofCalm ((Calm.refl _).toFallback _))
  · exact pairIdle_idle s p

/-- The final discard writes no register but those that the device writes of itself. -/
theorem finalDiscard_reg (s : State) (p : Nat) {a : Nat} (h : ¬ SelfReg a) (hs : a ≠ Reg.AS_STS) :
    (s.finalDiscard p).reg a = s.reg a := by
  have hidle : ((s.discardBuffers p).pairIdle p).reg a = s.reg a :=
    ((idleTwin_settled _ _).reg a h hs).trans ((idleTwin_settled (s.discardBuffers p) _).reg a h hs)
  unfold State.finalDiscard
  dsimp only
  split
  · exact (((Calm.refl _).toFallback _).reg a h).trans hidle
  · exact hidle

end Sys2Proof.Says

/-! PROOF. What ends a Metered run (04 R149; 08 R268, R272 to R274). -/

namespace Sys2Proof.Machine

/-! ### A first report to the Assay -/

/-- The state `t` differs from `s` neither in a pair nor in the registers that describe a disagreement. -/
structure AccordKept (s t : State) : Prop where
  pairs : t.pairs = s.pairs
  reg   : ∀ a, Reg.AS_ACCLOG0 ≤ a → a ≤ Reg.AS_ACCT_HI → t.reg a = s.reg a

namespace AccordKept

variable {s t u : State}

theorem refl (s : State) : AccordKept s s := ⟨rfl, fun _ _ _ => rfl⟩

theorem trans (h : AccordKept s t) (k : AccordKept t u) : AccordKept s u :=
  ⟨k.pairs.trans h.pairs, fun a h1 h2 => (k.reg a h1 h2).trans (h.reg a h1 h2)⟩

theorem setReg (h : AccordKept s t) {b : Nat} (v : Word32) (hb : b < Reg.AS_ACCLOG0 ∨ Reg.AS_ACCT_HI < b) :
    AccordKept s (t.setReg b v) :=
  h.trans ⟨rfl, fun a h1 h2 => State.reg_setReg_other _ _ (by omega)⟩

theorem put (h : AccordKept s t) (f : FieldRef) (v off : Nat) (hb : f.reg + off < Reg.AS_ACCLOG0 ∨ Reg.AS_ACCT_HI < f.reg + off) :
    AccordKept s (t.put f v off) := h.setReg _ hb

theorem settled (h : AccordKept s t) (k : Settled t u) : AccordKept s u :=
  h.trans ⟨k.pairs, fun a h1 h2 => by
    simp only [Reg.AS_ACCLOG0, Reg.AS_ACCT_HI] at h1 h2
    exact k.reg a (assay_notSelf (by omega)) (by simp only [Reg.AS_STS]; omega)⟩

theorem calm (h : AccordKept s t) (k : Calm t u) : AccordKept s u := h.settled (.ofCalm k)

/-- A change of other parts. -/
theorem free (h : AccordKept s t) (hp : u.pairs = t.pairs) (hr : u.regs = t.regs) : AccordKept s u :=
  h.trans ⟨hp, fun a _ _ => by rw [State.reg, hr, State.reg]⟩

theorem modAssay (h : AccordKept s t) (f : Assay → Assay) : AccordKept s (t.modAssay f) := h.free rfl rfl

/-- The log's entries lie above. -/
theorem setLog (h : AccordKept s t) {a : Nat} (n : Nat) (v : Word32) (ha : 0x80100 ≤ a) : AccordKept s (t.setReg (a + n) v) :=
  h.setReg v (.inr (by simp only [Reg.AS_ACCT_HI]; omega))

theorem assaySts (h : AccordKept s t) : AccordKept s t.assaySts := (h.put _ _ _ (by decide)).put _ _ _ (by decide)

theorem countCause (h : AccordKept s t) (c : Nat) : AccordKept s (t.countCause c) := by
  unfold State.countCause
  split
  · exact h.put _ _ _ (by decide)
  · exact h.put _ _ _ (by decide)
  · exact h.put _ _ _ (by decide)
  · exact h

theorem openWindow (h : AccordKept s t) : AccordKept s t.openWindow := by
  have hc : AccordKept s t.closeWindow := by
    unfold State.closeWindow
    split
    · exact (h.modAssay _).put _ _ _ (by decide)
    · exact h
  unfold State.openWindow
  dsimp only
  split
  · exact hc
  · exact put (hc.free (by rfl) (by rfl)) _ _ _ (by decide)

theorem logEntry (h : AccordKept s t) (unit c d : Nat) (b : Bool) : AccordKept s (t.logEntry unit c d b).2 := by
  unfold State.logEntry
  dsimp only
  refine calm ?_ (((Calm.refl _).edge 0).record ..)
  refine put (modAssay (put ?_ _ _ _ (by decide)) _) _ _ _ (by decide)
  exact setLog (setLog (setLog (setLog h _ _ (by decide)) _ _ (by decide)) _ _ (by decide)) _ _ (by decide)

end AccordKept

theorem countCause_assay (s : State) (c : Nat) : (s.countCause c).assay = s.assay := by
  unfold State.countCause
  split <;> rfl

theorem logEntry_assay (s : State) (unit c d : Nat) (b : Bool) :
    (s.logEntry unit c d b).2.assay = { s.assay with count := s.assay.count + 1 } := by
  unfold State.logEntry
  exact (((Calm.refl _).edge 0).record ..).assay

/-- The window that a report opens, or finds open, has no more faults than there were. -/
theorem openWindow_noFaults {s : State} (h : Says.NoFaults s) : Says.NoFaults s.openWindow := by
  have hc : Says.NoFaults s.closeWindow := by
    unfold State.closeWindow
    split
    · exact ⟨rfl, h.2⟩
    · exact h
  unfold State.openWindow
  dsimp only
  split
  · exact hc
  · exact ⟨rfl, hc.2⟩

/-- A first fault's report is logged and queued for its test. -/
theorem report_first {s : State} {unit : Nat} (c d : Nat) (h : Says.NoFaults s) (hu : unitClass unit = 15) :
    AccordKept s (s.report unit c d) := by
  have hk := ((AccordKept.refl s).countCause c).openWindow.logEntry unit c d false
  have ho : Says.NoFaults (s.countCause c).openWindow := openWindow_noFaults (by
    rw [Says.NoFaults, countCause_assay]
    exact h)
  have ha := logEntry_assay (s.countCause c).openWindow unit c d false
  obtain ⟨hfaults, hrun, hret, hqueue⟩ := ho
  have hret' : ((s.countCause c).openWindow.logEntry unit c d false).2.assay.retiring = [] := by rw [ha, hret]
  have hqueue' : ¬ 64 ≤ ((s.countCause c).openWindow.logEntry unit c d false).2.assay.queue.length := by
    rw [ha]
    exact Nat.not_le.mpr hqueue
  have hsh : s.shadowed unit = false := by simp [State.shadowed, hu]
  have hother : otherTwin unit = none := by simp [otherTwin, hu]
  unfold State.report
  simp only [hsh, hfaults, hret', hother, Bool.false_eq_true, if_false, List.isEmpty_nil, Bool.not_true, Bool.false_and,
    List.any_nil, Bool.or_false, Bool.and_false]
  unfold State.enqueueFault
  rw [if_neg hqueue']
  exact AccordKept.assaySts (hk.free rfl rfl)

/-! ### The first disagreement of a run -/

/-- The first disagreement of a run, recorded, and its run stopped: what is then reported to the Assay (08 R272). -/
def State.runStopped (s : State) (p kind entry beats : Nat) : State :=
  ((((((s.setReg Reg.AS_ACCLOG0 (BitVec.ofNat 32
    (p + (((s.pair p).msg.map (·.group)).getD 0) * 64 + b2n false * 1024 + kind * 2048 + entry * 8192))).setReg
    Reg.AS_ACCLOG1 (BitVec.ofNat 32 (beats % 8192))).setReg Reg.AS_ACCT_LO (s.tb.now.setWidth 32)).setReg
    Reg.AS_ACCT_HI ((s.tb.now >>> 32).setWidth 32)).discardBuffers p).modPair p
    (fun x => { x with phase := .stopped, endAt := s.now }))

theorem disagree_eq {s : State} {p : Nat} (kind entry beats : Nat) (h : (s.pair p).second = false) :
    s.disagree p kind entry beats = (s.runStopped p kind entry beats).report (unitOf 15 p) 2 0 := by
  unfold State.disagree
  simp only [h, Bool.false_eq_true, if_false]
  rfl

theorem runStopped_phase (s : State) (p kind entry beats : Nat) : ((s.runStopped p kind entry beats).pair p).phase = .stopped :=
  congrArg Pair.phase (State.pair_setPair_same ..)

theorem runStopped_accLog0 (s : State) (p kind entry beats : Nat) : (s.runStopped p kind entry beats).reg Reg.AS_ACCLOG0 =
    BitVec.ofNat 32 (p + (((s.pair p).msg.map (·.group)).getD 0) * 64 + b2n false * 1024 + kind * 2048 + entry * 8192) := by
  refine (State.reg_setReg_other _ _ (by decide)).trans ((State.reg_setReg_other _ _ (by decide)).trans
    ((State.reg_setReg_other _ _ (by decide)).trans ?_))
  exact State.reg_setReg_same ..

theorem runStopped_accLog1 (s : State) (p kind entry beats : Nat) :
    (s.runStopped p kind entry beats).reg Reg.AS_ACCLOG1 = BitVec.ofNat 32 (beats % 8192) := by
  refine (State.reg_setReg_other _ _ (by decide)).trans ((State.reg_setReg_other _ _ (by decide)).trans ?_)
  exact State.reg_setReg_same ..

/-- The first disagreement of a run in an Assay without faults: what its record holds stands once it is reported. -/
theorem disagree_kept {s : State} {p : Nat} (kind entry beats : Nat) (hp : p < 64) (h : (s.pair p).second = false)
    (hf : Says.NoFaults s) : AccordKept (s.runStopped p kind entry beats) (s.disagree p kind entry beats) := by
  rw [disagree_eq kind entry beats h]
  exact report_first 2 0 hf (by simp only [unitClass, unitOf]; omega)

end Sys2Proof.Machine

namespace Sys2Proof.Says

open Sys2Proof.Machine

theorem budget_flagged {s : State} {c : CoreId} (hrun : (s.thr (4 * c.toNat)).tstate = .meteredRun)
    (hb : (s.core c.toNat).budget < (s.core c.toNat).beats) :
    ∃ s', exec (.budget c) s = .next s' ∧ s'.mem = s.mem ∧ s'.get Fld.CO_STS_BUDGET (coOff c.toNat) = 1 := by
  have e : exec (.budget c) s = device ((s.put Fld.CO_STS_BUDGET 1 (coOff c.toNat)).condEvent 2) := by
    change execBudget c s = _
    simp only [execBudget, hrun, hb, BEq.rfl, decide_true, Bool.and_self, if_true]
  have k := (Settled.ofCalm ((Calm.refl (s.put Fld.CO_STS_BUDGET 1 (coOff c.toNat))).condEvent 2)).trans (.settle _)
  obtain ⟨hself, has⟩ := high_notSelf (a := Fld.CO_STS_BUDGET.reg + coOff c.toNat) (by simp only; omega)
  refine ⟨_, e, k.mem, ?_⟩
  rw [k.get _ _ hself has]
  exact State.get_put_same _ _ _ _ (by decide)

theorem doneTiming_stops {s : State} {p : PairId} {d : Nat × Word} (hphase : (s.pair p.toNat).phase = .running)
    (h2 : (s.pair p.toNat).second = false) (ha : (s.core (pairCores p.toNat).1).doneAt = some d)
    (hb : (s.core (pairCores p.toNat).2).doneAt = none) (hlate : d.1 + 8 ≤ (s.core (pairCores p.toNat).2).beats)
    (hf : NoFaults s) :
    ∃ s', exec (.doneTiming p) s = .next s' ∧ s'.mem = s.mem ∧ (s'.pair p.toNat).phase = .stopped ∧
      s'.reg Reg.AS_ACCLOG0 =
        BitVec.ofNat 32 (p.toNat + (((s.pair p.toNat).msg.map (·.group)).getD 0) * 64 + 2048) ∧
      s'.reg Reg.AS_ACCLOG1 = BitVec.ofNat 32 (d.1 % 8192) := by
  have hl : s.doneLate d.1 (pairCores p.toNat).2 (s.pair p.toNat) = true := by simp [State.doneLate, hlate]
  have e : exec (.doneTiming p) s = device (s.disagree p.toNat 1 0 d.1) := by
    change execDoneTiming p s = _
    simp only [execDoneTiming, hphase, ha, hb, hl, BEq.rfl, if_true]
  have k := (disagree_kept 1 0 d.1 p.isLt h2 hf).settled (.settle _)
  refine ⟨_, e, (((Steady.refl s).disagree ..).settle).mem, ?_, ?_, ?_⟩
  · rw [State.pair, k.pairs]
    exact runStopped_phase ..
  · rw [k.reg _ (by decide) (by decide), runStopped_accLog0]
    rfl
  · rw [k.reg _ (by decide) (by decide), runStopped_accLog1]

theorem runaway_discards {s : State} {p : PairId} (hphase : (s.pair p.toNat).phase = .running)
    (ha : (s.core (pairCores p.toNat).1).doneAt = none) (hb : (s.core (pairCores p.toNat).2).doneAt = none)
    (hlong : 4096 ≤ (s.core (pairCores p.toNat).1).beats) :
    ∃ s', exec (.runaway p) s = .next s' ∧ s'.mem = s.mem ∧ PairIdle s' p.toNat ∧ oneMore s s' Fld.AS_CNT_RUNAWAY_COUNT 0 := by
  have hl : s.runLong p.toNat = true := by simp [State.runLong, hlong]
  have e : exec (.runaway p) s = device ((s.bump Fld.AS_CNT_RUNAWAY_COUNT).finalDiscard p.toNat) := by
    change execRunaway p s = _
    simp only [execRunaway, hphase, ha, hb, hl, BEq.rfl, Option.isNone_none, Bool.and_self, if_true]
  have k := Settled.settle ((s.bump Fld.AS_CNT_RUNAWAY_COUNT).finalDiscard p.toNat)
  have hself := assay_notSelf (a := Fld.AS_CNT_RUNAWAY_COUNT.reg + 0) (by decide)
  refine ⟨_, e, k.mem.trans ((((Steady.refl s).bump ..).finalDiscard _).mem), (finalDiscard_idle ..).settled k, ?_⟩
  rw [oneMore, k.get _ _ hself (by decide), State.get, finalDiscard_reg _ _ hself (by decide)]
  exact State.get_bump_same s Fld.AS_CNT_RUNAWAY_COUNT 1 0 (by decide)

end Sys2Proof.Says

/-! PROOF. The dispatch state of a Twin pair (04 R143; 07 R246; 08 R272). -/

namespace Sys2Proof.Machine

/-! ### One Twin -/

/-- The registers of a message at entry (04 R143). -/
def Thread.withMessage (th : Thread) (m : PromptMsg) (b : Nat) : Thread :=
  (((({ th with regs := Vector.replicate 32 0 }.set 1 (m.hdr.session.setWidth 64)).set 2
    (BitVec.ofNat 64 (frameBase + m.hdr.fboff.toNat))).set 3 (m.hdr.len.setWidth 64)).set 4 (BitVec.ofNat 64 b)).set 30 0x8000

/-- A thread that enters a handler with a message, its beat budget and its entry (04 R143). -/
def Thread.entering (th : Thread) (m : PromptMsg) (b entry : Nat) : Thread :=
  { (th.withMessage m b).drop with
    held := 0, spin := none, st := 3, cur := some m.hdr, tstate := .meteredRun, resume := none, waitAt := none,
    lbCand := [], pc := BitVec.ofNat 32 (4 * entry) }

/-- A core whose run begins: its buffer and counters are empty. -/
def Core.starting (k : Core) (b : Nat) (t0 : BitVec 64) (at_ : Nat) : Core :=
  { k with cbuf := [], scHit := [], beats := 0, late := 0, doneAt := none, overrun := false, budget := b, runT0 := t0, runAt := at_ }

/-- A Twin's core and thread as its entry leaves them. -/
def State.twinSet (s : State) (c : Nat) (m : PromptMsg) : State :=
  (s.setCore c ((s.core c).starting (s.cfg Fld.PS_GENT_B (16 * m.group)) s.tb.now s.now)).setThr (4 * c)
    ((s.thr (4 * c)).entering m (s.cfg Fld.PS_GENT_B (16 * m.group)) (s.cfg Fld.PS_GENT_ENTRY (16 * m.group)))

/-- The last steps of a Twin's entry: its reservation, its thread, its loop buffer. -/
def State.enter (s : State) (c : Nat) (m : PromptMsg) (b : Nat) : State :=
  (((s.dropResv (4 * c)).modThr (4 * c) (fun th =>
    th.entering m b ((s.dropResv (4 * c)).cfg Fld.PS_GENT_ENTRY (16 * m.group)))).lbClear c).haltRefresh (c / 8)

theorem startTwin_eq (s : State) (c : Nat) (m : PromptMsg) : ∃ a r,
    s.startTwin c m = (State.lbClear { s.twinSet c m with arbs := a, resvs := r } c).haltRefresh (c / 8) := by
  have hcore : ∀ f g, (s.modCore c f).modCore c g = s.setCore c (g (f (s.core c))) := fun f g => by
    rw [State.modCore, State.modCore, State.setCore_setCore, State.core_setCore_same]
  obtain ⟨a, ha⟩ := State.leaveArbs_eq (s.setCore c ((s.core c).starting (s.cfg Fld.PS_GENT_B (16 * m.group)) s.tb.now s.now)) (4 * c)
  refine ⟨a, s.resvs.filter (fun r => decide (r.1 ≠ 4 * c)), ?_⟩
  unfold State.startTwin State.clearRun
  dsimp only
  rw [hcore]
  exact congrArg (fun x : State => x.enter c m (s.cfg Fld.PS_GENT_B (16 * m.group))) ha

/-- The loop buffer of a core is no part of what a run reads of its core. -/
theorem lbClear_core (s : State) (c d : Nat) : ∃ l, (s.lbClear c).core d = { s.core d with lb := l } := by
  unfold State.lbClear
  split
  · by_cases h : d = c
    · subst h
      exact ⟨none, State.core_setCore_same ..⟩
    · exact ⟨_, State.core_setCore_other _ _ h⟩
  · exact ⟨_, rfl⟩

/-- From `s` to `u` thread 0 of core `c` has entered the handler of `m`: its core and its thread alone have changed, beside
loop buffers, mailboxes and what the device writes of itself. -/
structure TwinStarted (s u : State) (c : Nat) (m : PromptMsg) : Prop where
  mem   : u.mem = s.mem
  pairs : u.pairs = s.pairs
  eff   : ∀ a, (∀ k, k < 2 → a ≠ Reg.PS_SPARE + 4 * k) → u.effReg a = s.effReg a
  thr   : ∀ n, ∃ b, u.thr n = { (s.twinSet c m).thr n with mailbox := b }
  core  : ∀ d, ∃ l, u.core d = { (s.twinSet c m).core d with lb := l }

theorem startTwin_started (s : State) (c : Nat) (m : PromptMsg) : TwinStarted s (s.startTwin c m) c m := by
  obtain ⟨a, r, e⟩ := startTwin_eq s c m
  have k : Calm (State.lbClear { s.twinSet c m with arbs := a, resvs := r } c) (s.startTwin c m) := by
    rw [e]
    exact (Calm.refl _).level _ _
  have hcore := lbClear_core { s.twinSet c m with arbs := a, resvs := r } c
  obtain ⟨x, hx⟩ := State.lbClear_eq { s.twinSet c m with arbs := a, resvs := r } c
  refine ⟨k.mem.trans ?_, k.pairs.trans ?_, fun a ha => (k.eff a ha).trans ?_, fun n => ?_, fun d => ?_⟩
  · rw [hx]
    rfl
  · rw [hx]
    rfl
  · rw [hx]
    rfl
  · obtain ⟨b, hb⟩ := k.thr n
    refine ⟨b, ?_⟩
    rw [hb, hx]
    rfl
  · obtain ⟨l, hl⟩ := hcore d
    refine ⟨l, ?_⟩
    rw [State.core, k.cores]
    exact hl

namespace TwinStarted

variable {s u : State} {c : Nat} {m : PromptMsg}

/-- Fields of commit category of the group table are in effect as they were. -/
theorem cfg (h : TwinStarted s u c m) (f : FieldRef) (g : Nat) (hl : f.lag = true) (hf : f.reg = Reg.PS_GENT) :
    u.cfg f (16 * g) = s.cfg f (16 * g) := by
  simp only [State.cfg, hl, if_true]
  rw [h.eff _ (fun k hk => by rw [hf]; simp only [Reg.PS_GENT, Reg.PS_SPARE]; omega)]

theorem thr_other (h : TwinStarted s u c m) {n : Nat} (hn : n ≠ 4 * c) : ∃ b, u.thr n = { s.thr n with mailbox := b } := by
  obtain ⟨b, e⟩ := h.thr n
  exact ⟨b, by rw [e, State.twinSet, State.thr_setThr_other _ _ hn]; rfl⟩

theorem core_other (h : TwinStarted s u c m) {d : Nat} (hd : d ≠ c) : ∃ l, u.core d = { s.core d with lb := l } := by
  obtain ⟨l, e⟩ := h.core d
  exact ⟨l, e.trans (congrArg (fun k : Core => { k with lb := l }) (State.core_setCore_other s _ hd))⟩

theorem entered (h : TwinStarted s u c m) : ∃ b, u.thr (4 * c) = { (s.thr (4 * c)).entering m
    (s.cfg Fld.PS_GENT_B (16 * m.group)) (s.cfg Fld.PS_GENT_ENTRY (16 * m.group)) with mailbox := b } := by
  obtain ⟨b, e⟩ := h.thr (4 * c)
  exact ⟨b, by rw [e, State.twinSet, State.thr_setThr_same]⟩

theorem started (h : TwinStarted s u c m) : ∃ l, u.core c =
    { (s.core c).starting (s.cfg Fld.PS_GENT_B (16 * m.group)) s.tb.now s.now with lb := l } := by
  obtain ⟨l, e⟩ := h.core c
  exact ⟨l, e.trans (congrArg (fun k : Core => { k with lb := l }) (State.core_setCore_same s c _))⟩

end TwinStarted

/-! ### The registers of the dispatch state -/

theorem withMessage_get (th : Thread) (m : PromptMsg) (b : Nat) :
    let x := th.withMessage m b
    x.get 1 = m.hdr.session.setWidth 64 ∧ x.get 2 = BitVec.ofNat 64 (frameBase + m.hdr.fboff.toNat) ∧
    x.get 3 = m.hdr.len.setWidth 64 ∧ x.get 4 = BitVec.ofNat 64 b ∧ x.get 30 = 0x8000 := by
  refine ⟨?_, ?_, ?_, ?_, ?_⟩ <;>
    simp (disch := decide) only [Thread.withMessage, Thread.get_set_same, Thread.get_set_other]

theorem withMessage_get_other (th : Thread) (m : PromptMsg) (b : Nat) {r : RegNo} (h : r ∉ [(1 : RegNo), 2, 3, 4, 30]) :
    (th.withMessage m b).get r = 0 := by
  simp only [List.mem_cons, List.not_mem_nil, or_false, not_or] at h
  obtain ⟨h1, h2, h3, h4, h30⟩ := h
  simp only [Thread.withMessage]
  rw [Thread.get_set_other _ _ h30, Thread.get_set_other _ _ h4, Thread.get_set_other _ _ h3, Thread.get_set_other _ _ h2,
    Thread.get_set_other _ _ h1, Thread.get]
  split
  · rfl
  · exact Vector.getElem_replicate _

end Sys2Proof.Machine

namespace Sys2Proof.Says

open Sys2Proof.Machine

/-- A Twin that has entered is in the dispatch state. -/
theorem dispatched_of_started {s u : State} {c : Nat} {m : PromptMsg} (h : TwinStarted s u c m) : Dispatched s u c m := by
  obtain ⟨b, ht⟩ := h.entered
  obtain ⟨l, hc⟩ := h.started
  obtain ⟨h1, h2, h3, h4, h30⟩ := withMessage_get (s.thr (4 * c)) m (s.cfg Fld.PS_GENT_B (16 * m.group))
  rw [Dispatched, ht, hc]
  exact ⟨rfl, h1, h2, h3, h4, h30, fun r hr => withMessage_get_other _ _ _ hr,
    (by decide : (bitsGet 3#32 0 1 == 1) = true), rfl, rfl, rfl, rfl, rfl, rfl⟩

/-- The dispatch state stays where the thread but its mailbox and the core but its loop buffer stay. -/
theorem Dispatched.carried {s r u w : State} {c : Nat} {m : PromptMsg} (h : Dispatched r u c m)
    (hb : r.cfg Fld.PS_GENT_B (16 * m.group) = s.cfg Fld.PS_GENT_B (16 * m.group))
    (he : r.cfg Fld.PS_GENT_ENTRY (16 * m.group) = s.cfg Fld.PS_GENT_ENTRY (16 * m.group))
    (ht : ∃ x, w.thr (4 * c) = { u.thr (4 * c) with mailbox := x }) (hc : ∃ l, w.core c = { u.core c with lb := l }) :
    Dispatched s w c m := by
  obtain ⟨x, ht⟩ := ht
  obtain ⟨l, hc⟩ := hc
  rw [Dispatched, hb, he] at h
  rw [Dispatched, ht, hc]
  exact h

theorem Dispatched.settled {s u w : State} {c : Nat} {m : PromptMsg} (h : Dispatched s u c m) (k : Settled u w) :
    Dispatched s w c m := h.carried rfl rfl (k.thr _) ⟨_, k.core c⟩

/-- Two Twins that enter one after the other. -/
theorem dispatched_both {s u v : State} {c d : Nat} {m : PromptMsg} (hne : c ≠ d) (h1 : TwinStarted s u c m)
    (h2 : TwinStarted u v d m) : Dispatched s v c m ∧ Dispatched s v d m :=
  ⟨(dispatched_of_started h1).carried rfl rfl (h2.thr_other (by omega)) (h2.core_other hne),
    (dispatched_of_started h2).carried (h1.cfg _ _ rfl rfl) (h1.cfg _ _ rfl rfl) ⟨_, rfl⟩ ⟨_, rfl⟩⟩

/-- Both Twins of a pair receive the dispatch state, and the pair runs. -/
theorem startPair_dispatched (s : State) (p : Nat) (m : PromptMsg) :
    (s.startPair p m).mem = s.mem ∧ (s.startPair p m).pair p = { s.pair p with phase := .running } ∧
      Dispatched s (s.startPair p m) (pairCores p).1 m ∧ Dispatched s (s.startPair p m) (pairCores p).2 m := by
  have h1 := startTwin_started s (pairCores p).1 m
  have h2 := startTwin_started (s.startTwin (pairCores p).1 m) (pairCores p).2 m
  obtain ⟨hd1, hd2⟩ := dispatched_both (pairCores_ne p) h1 h2
  have hmem := h2.mem.trans h1.mem
  have hpairs := h2.pairs.trans h1.pairs
  unfold State.startPair
  generalize (s.startTwin (pairCores p).1 m).startTwin (pairCores p).2 m = v at hd1 hd2 hmem hpairs ⊢
  refine ⟨hmem, ?_, hd1.carried rfl rfl ⟨_, rfl⟩ ⟨_, rfl⟩, hd2.carried rfl rfl ⟨_, rfl⟩ ⟨_, rfl⟩⟩
  rw [State.modPair, State.pair_setPair_same, State.pair, hpairs, State.pair]

/-! ### Runs entered again -/

theorem restart_enters {s : State} {p : PairId} {m : PromptMsg} (hphase : (s.pair p.toNat).phase = .stopped)
    (hmsg : (s.pair p.toNat).msg = some m) (hh : s.holding = false) :
    ∃ s', exec (.restart p) s = .next s' ∧ s'.mem = s.mem ∧ (s'.pair p.toNat).phase = .running ∧
      (s'.pair p.toNat).second = true ∧ (s'.pair p.toNat).msg = some m ∧
      Dispatched s s' (pairCores p.toNat).1 m ∧ Dispatched s s' (pairCores p.toNat).2 m := by
  have e : exec (.restart p) s =
      device ((s.setPair p.toNat { s.pair p.toNat with second := true }).startPair p.toNat m) := by
    change execRestart p s = _
    simp only [execRestart, hphase, hmsg, hh, Bool.false_eq_true, if_false]
  obtain ⟨hmem, hpair, hd1, hd2⟩ :=
    startPair_dispatched (s.setPair p.toNat { s.pair p.toNat with second := true }) p.toNat m
  have k := Settled.settle ((s.setPair p.toNat { s.pair p.toNat with second := true }).startPair p.toNat m)
  rw [State.pair_setPair_same] at hpair
  refine ⟨_, e, k.mem.trans hmem, ?_, ?_, ?_, hd1.settled k, hd2.settled k⟩
  · rw [k.pair, hpair]
  · rw [k.pair, hpair]
  · rw [k.pair, hpair]
    exact hmsg

/-- Settles O45: each event's own record, which the device's look at itself leaves alone. -/
theorem meteredRuns : Obligations.MeteredRuns := fun _ =>
  ⟨fun _ => budget_flagged, fun _ => ⟨fun _ => doneTiming_stops, fun _ => restart_enters, runaway_discards⟩⟩

end Sys2Proof.Says

/-! PROOF. What the device's look at itself leaves of the Prompt scheduler's registers: PS_STS but for RUN, and what events,
records and deliveries do not write (07 R241, R244). -/

namespace Sys2Proof.Machine

/-- The register `b`, where it is one of the Prompt scheduler, holds in `t` what it holds in `s`. -/
structure PsSame (b : Nat) (s t : State) : Prop where
  reg : b / 0x10000 = 0x0D → t.reg b = s.reg b

namespace PsSame

variable {b : Nat} {s t u : State}

theorem refl (s : State) : PsSame b s s := ⟨fun _ => rfl⟩

theorem trans (h : PsSame b s t) (k : PsSame b t u) : PsSame b s u :=
  ⟨fun hb => (k.reg hb).trans (h.reg hb)⟩

/-- A change of parts that are no registers. -/
theorem free (h : PsSame b s t) (e : u = { u with regs := t.regs }) : PsSame b s u := by
  rw [e]
  exact ⟨h.reg⟩

theorem setReg (h : PsSame b s t) {a : Nat} (v : Word32) (ha : b / 0x10000 = 0x0D → b ≠ a) : PsSame b s (t.setReg a v) :=
  ⟨fun hb => (State.reg_setReg_other t v (ha hb)).trans (h.reg hb)⟩

/-- A register of another block. -/
theorem setElse (h : PsSame b s t) {a : Nat} (v : Word32) (ha : a / 0x10000 ≠ 0x0D) : PsSame b s (t.setReg a v) :=
  h.setReg v (by rintro hb rfl; exact ha hb)

theorem put (h : PsSame b s t) (f : FieldRef) (v off : Nat) (ha : (f.reg + off) / 0x10000 ≠ 0x0D) :
    PsSame b s (t.put f v off) := h.setElse _ ha

theorem bump (h : PsSame b s t) (f : FieldRef) (n off : Nat) (ha : (f.reg + off) / 0x10000 ≠ 0x0D) :
    PsSame b s (t.bump f n off) := h.setElse _ ha

theorem ite (c : Prop) [Decidable c] {x y : State} (h : PsSame b s x) (k : PsSame b s y) :
    PsSame b s (if c then x else y) := by
  split
  · exact h
  · exact k

theorem foldl {α : Type} {f : State → α → State} (hf : ∀ u x, PsSame b s u → PsSame b s (f u x)) (l : List α) :
    ∀ u, PsSame b s u → PsSame b s (l.foldl f u) := by
  induction l with
  | nil => exact fun _ h => h
  | cons x r ih => exact fun u h => ih _ (hf u x h)

theorem foldN (h : PsSame b s t) {f : State → Nat → State} (hf : ∀ u x, PsSame b s u → PsSame b s (f u x)) (l : List Nat) :
    PsSame b s (Machine.foldN t l f) := foldl hf l t h

/-! ### The Crier -/

theorem sendLink (h : PsSame b s t) (e : Emit) (n : Option Nat) : PsSame b s (t.sendLink e n) :=
  .ite _ (h.free rfl) (h.free rfl)

theorem msixSend (h : PsSame b s t) (q : Nat) : PsSame b s (t.msixSend q) := .ite _ (h.free rfl) (sendLink (h.free rfl) _ _)

theorem askWake (h : PsSame b s t) (r : Nat) : PsSame b s (t.askWake r) := .ite _ (h.free rfl) h

theorem devNotice (h : PsSame b s t) (src : Nat) : PsSame b s (t.devNotice src) :=
  .ite _ ((h.put Fld.CR_HNOTE_DEVEVT 1 0 (by decide)).msixSend 0) h

theorem crierWake (h : PsSame b s t) (r : Nat) : PsSame b s (t.crierWake r) :=
  .ite _ h ((h.askWake r).bump _ _ _ (by decide))

theorem rescan (h : PsSame b s t) (k : Nat) : PsSame b s (t.rescan k) := by
  have h2 : ∀ (x : Src) (c : Prop) [Decidable c],
      PsSame b s (if c then (t.setSrc k x).bump Fld.CR_CNT_REROUTE_COUNT else t.setSrc k x) :=
    fun x c _ => .ite _ (bump (h.free rfl) _ _ _ (by decide)) (h.free rfl)
  unfold State.rescan
  refine .ite _ h ?_
  dsimp only
  split
  · exact .ite _ ((h2 ..).crierWake _) (h2 ..)
  · exact h2 ..

theorem crierScan (h : PsSame b s t) : PsSame b s t.crierScan :=
  foldl (fun _ _ h => h.rescan _) _ _ (.ite _ h (h.free rfl))

theorem countEvent (h : PsSame b s t) (k : Nat) : PsSame b s (t.countEvent k) := rescan (h.free rfl) k

theorem edge (h : PsSame b s t) (src : Nat) : PsSame b s (t.edge src) :=
  have hn := h.devNotice src
  .ite _ h ((PsSame.ite _ (hn.bump Fld.CR_CNT_MERGE_COUNT 1 0 (by decide)) hn).countEvent _)

theorem level (h : PsSame b s t) (k : Nat) (on : Bool) : PsSame b s (t.level k on) :=
  have hn : ∀ x n, PsSame b s ((t.setSrc k x).devNotice n) := fun _ _ => devNotice (h.free rfl) _
  .ite _ h (.ite _ (.ite _ (hn ..) ((hn ..).countEvent _)) (.ite _ (h.free rfl) (h.free rfl)))

theorem msgEvent (h : PsSame b s t) (n : Nat) : PsSame b s (t.msgEvent n) :=
  .ite _ (h.free rfl) (countEvent (h.free rfl) _)

/-! ### The Tally ring -/

theorem ring_else {a p : Nat} (ha : a = Reg.TY_LVL ∨ a = Reg.TY_LOST) (hp : p < 4) : (a + 4 * p) / 0x10000 ≠ 0x0D := by
  simp only [Reg.TY_LVL, Reg.TY_LOST] at ha
  omega

theorem ringLost (h : PsSame b s t) (p n : Nat) (hp : p < 4) : PsSame b s (t.ringLost p n) :=
  .ite _ h ((h.bump _ _ _ (ring_else (.inr rfl) hp)).edge _)

theorem ringDiscard (h : PsSame b s t) (p : Nat) (hp : p < 4) : PsSame b s (t.ringDiscard p) :=
  ringLost (.ite _ (h.free rfl) (h.free rfl)) p _ hp

theorem ringItems (h : PsSame b s t) (p : Nat) (hp : p < 4) (its : List (List Word32)) : PsSame b s (t.ringItems p its) := by
  have hf : ∀ (l : List (List Word32)) (acc : State × List (List Word32)), PsSame b s acc.1 →
      PsSame b s (l.foldl (fun acc it => acc.1.ringItem p acc.2 it) acc).1 := by
    intro l
    induction l with
    | nil => exact fun _ h => h
    | cons x r ih => exact fun acc h => ih _ (.ite _ (h.ringDiscard p hp) h)
  have hr := hf its (t, []) h
  exact (put (hr.free rfl) _ _ _ (ring_else (.inl rfl) hp)).level _ _

theorem record (h : PsSame b s t) (ty n : Nat) (body : List Byte) : PsSame b s (t.record ty n body) :=
  have hp : (t.route ty).2 < 4 := Nat.mod_lt _ (by decide)
  .ite _ h (.ite _ (h.ringLost _ _ hp) (h.ringItems _ hp _))

/-! ### Frames and headers -/

theorem port_else {a p : Nat} (ha : a = Reg.PT_STS ∨ a = Reg.PT_PFCTX) (hp : p < 8) : (a + ptOff p) / 0x10000 ≠ 0x0D := by
  simp only [Reg.PT_STS, Reg.PT_PFCTX, ptOff] at *
  omega

theorem sendPfc (h : PsSame b s t) (p q : Nat) (hp : p < 8) : PsSame b s (t.sendPfc p q) :=
  have hl : PsSame b s (if t.flag Fld.PT_STS_LPI (ptOff p) then t.put Fld.PT_STS_LPI 0 (ptOff p) else t) :=
    .ite _ (h.put _ _ _ (port_else (.inl rfl) hp)) h
  free (hl.bump Fld.PT_PFCTX_COUNT 1 (ptOff p) (port_else (.inr rfl) hp)) rfl

theorem pfcPort (h : PsSame b s t) (p : Nat) (hp : p < 8) : PsSame b s (t.pfcPort p) :=
  have hx : ∀ x v, PsSame b s ((t.setPort p x).put Fld.PT_STS_XOFF v (ptOff p)) :=
    fun x v => put (t := t.setPort p x) (h.free rfl) Fld.PT_STS_XOFF v (ptOff p) (port_else (.inl rfl) hp)
  .ite _ (.ite _ (hx ..) (.ite _ ((hx ..).sendPfc _ _ hp) h)) (.ite _ ((hx ..).sendPfc _ _ hp) h)

theorem pfcUpdate (h : PsSame b s t) : PsSame b s t.pfcUpdate := by
  have hf : ∀ (l : List Nat) (u : State), (∀ p ∈ l, p < 8) → PsSame b s u → PsSame b s (Machine.foldN u l State.pfcPort) := by
    intro l
    induction l with
    | nil => exact fun _ _ h => h
    | cons p r ih =>
      exact fun u hl h => ih _ (fun q hq => hl q (List.mem_cons_of_mem _ hq)) (h.pfcPort p (hl p List.mem_cons_self))
  exact hf _ _ (fun p hp => List.mem_range.mp hp) h

theorem purgeCells (h : PsSame b s t) : PsSame b s t.purgeCells := by
  refine .ite _ h (pfcUpdate (foldl (fun u x hu => ?_) _ _ (h.free rfl)))
  split
  · exact .ite _ (hu.free rfl) hu
  · exact hu

theorem dropHeader (h : PsSame b s t) (x : Header) (f : FieldRef) (hf : (f.reg + 0) / 0x10000 ≠ 0x0D) :
    PsSame b s (t.dropHeader x f) := purgeCells (free (h.bump f 1 0 hf) rfl)

theorem toThread (h : PsSame b s t) (n : Nat) (x : Header) : PsSame b s (t.toThread n x) := by
  have h1 : PsSame b s (if t.gated (regionOfThread n) then t.askWake (regionOfThread n) else t) := .ite _ (h.askWake _) h
  exact .ite _ (h1.dropHeader _ _ (by decide)) (.ite _ (h1.free rfl) (msgEvent (h1.free rfl) n))

theorem cqAllot (h : PsSame b s t) (q k : Nat) : PsSame b s (t.cqAllot q k).2 :=
  have hp := h.put Fld.HQ_CQPOS_TAIL ((t.get Fld.HQ_CQPOS_TAIL (32 * q) + k) % t.cqSize q) (32 * q) (by simp only; omega)
  .ite _ (hp.free rfl) hp

/-! ### The Lamplighter -/

theorem lampEvent (h : PsSame b s t) (c : Nat) : PsSame b s (t.lampEvent c) := by
  have h1 := (h.put Fld.LL_EVT_CODE c 0 (by decide)).bump Fld.LL_EVT_COUNT 1 0 (by decide)
  have h2 : ∀ (c' : Prop) [Decidable c'], PsSame b s (if c' then ((t.put Fld.LL_EVT_CODE c).bump Fld.LL_EVT_COUNT).edge 23
      else (t.put Fld.LL_EVT_CODE c).bump Fld.LL_EVT_COUNT) := fun _ _ => .ite _ (h1.edge _) h1
  exact .ite _ ((h2 _).free rfl) (h2 _)

theorem pmNext (h : PsSame b s t) : PsSame b s t.pmNext := by
  have hb : ∀ u, PsSame b s u → PsSame b s u.pmBusy := fun u hu => hu.put _ _ _ (by decide)
  have he : ∀ u x, PsSame b s u → PsSame b s (u.pmEmit x) := fun u x hu => .ite _ (hu.free rfl) hu
  unfold State.pmNext
  refine .ite _ (hb _ h) ?_
  split
  · exact hb _ (he _ _ (h.free rfl))
  · exact hb _ (he _ _ (h.free rfl))
  · exact hb _ h

theorem railSeq (h : PsSame b s t) (xs : List PmTxn) : PsSame b s (t.railSeq xs) := .ite _ (pmNext (h.free rfl)) h

theorem evalBanked (h : PsSame b s t) : PsSame b s t.evalBanked :=
  have hd : ∀ v f, PsSame b s ((t.put Fld.LL_STS_DSTATE v).modPower f) :=
    fun v _ => free (h.put Fld.LL_STS_DSTATE v 0 (by decide)) rfl
  .ite _ ((hd ..).railSeq _) (.ite _ ((hd ..).railSeq _) h)

theorem noteQuiet (h : PsSame b s t) : PsSame b s t.noteQuiet :=
  h.foldN (fun _ _ h => .ite _ (.ite _ h (h.free rfl)) (.ite _ (h.free rfl) h)) _

theorem holdFinish (h : PsSame b s t) : PsSame b s t.holdFinish := by
  unfold State.holdFinish
  split
  · refine .ite _ h ?_
    exact (((put (put (h.free rfl) _ _ _ (by decide)) _ _ _ (by decide)).edge 1).msixSend 0).lampEvent 5
  · exact h

end PsSame

/-! ### PS_STS -/

/-- PS_STS holds in `t` what it holds in `s`. -/
abbrev StsSame (s t : State) : Prop := PsSame Reg.PS_STS s t

namespace StsSame

variable {s t : State}

/-- Another register of the Prompt scheduler. -/
theorem putPs (h : StsSame s t) (f : FieldRef) (v : Nat) (hf : Reg.PS_STS ≠ f.reg + 0) : StsSame s (t.put f v) :=
  PsSame.setReg h _ (fun _ => hf)

theorem setCond (h : StsSame s t) (n : Nat) (on : Bool) : StsSame s (t.setCond n on) := by
  have hp : ∀ v, StsSame s (t.put Fld.PS_COND_COND v) := fun v => putPs h _ _ (by decide)
  have hl : ∀ v w, StsSame s (((t.put Fld.PS_COND_COND v).put Fld.PS_CONDLOG_COND w).edge 2) :=
    fun v w => PsSame.edge (putPs (hp v) _ _ (by decide)) 2
  unfold State.setCond
  dsimp only
  split
  · exact h
  · split
    · exact PsSame.record (hl ..) ..
    · exact PsSame.record (hp _) ..

theorem condEvent (h : StsSame s t) (n : Nat) : StsSame s (t.condEvent n) :=
  .ite _ (setCond (PsSame.free h rfl) _ _) (PsSame.free h rfl)

theorem evalConds (h : StsSame s t) : StsSame s t.evalConds := by
  have hfill : StsSame s t.fillPrompt := .ite _ h (PsSame.free h rfl)
  exact .ite _ (PsSame.foldN hfill (fun _ _ h => .ite _ (setCond h ..) (.ite _ h (setCond h ..))) _)
    (PsSame.foldN h (fun _ _ h => setCond h ..) _)

theorem deliver (fuel : Nat) : ∀ {t : State} (_ : StsSame s t) (code : Nat) (x : Header),
    StsSame s (State.deliver fuel t code x) := by
  induction fuel with
  | zero => exact fun h _ x => PsSame.dropHeader h _ _ (by decide)
  | succ n ih =>
    intro t h code x
    have hdrop : ∀ f : FieldRef, (f.reg + 0) / 0x10000 ≠ 0x0D → StsSame s (t.dropHeader x f) := fun f => PsSame.dropHeader h x f
    unfold State.deliver
    split
    · exact hdrop _ (by decide)
    · exact .ite _ (PsSame.toThread h ..) (ih h _ _)
    · split
      · exact PsSame.toThread h ..
      · exact hdrop _ (by decide)
    · exact .ite _ (condEvent (hdrop _ (by decide)) _) (PsSame.free h rfl)
    · exact .ite _ (.ite _ (PsSame.free (PsSame.cqAllot h ..) rfl) (condEvent (hdrop _ (by decide)) _))
        (.ite _ (PsSame.free h rfl) (ih h _ _))

theorem toFallback (h : StsSame s t) (m : PromptMsg) : StsSame s (t.toFallback m) :=
  deliver 3 (putPs h Fld.PS_FALLBK_COUNT _ (by decide)) _ _

theorem redirectHeld (h : StsSame s t) : StsSame s t.redirectHeld :=
  .ite _ h (PsSame.foldl (fun _ _ h => deliver 3 h _ _) _ _ (PsSame.free h rfl))

theorem fallbackScan (h : StsSame s t) : StsSame s t.fallbackScan :=
  .ite _ h (PsSame.foldl (fun _ _ h => toFallback h _) _ _ (PsSame.free h rfl))

theorem substituteOne (h : StsSame s t) (p : Nat) : StsSame s (t.substituteOne p) := by
  unfold State.substituteOne
  split
  · exact PsSame.setReg (PsSame.free (PsSame.setReg (a := Reg.PS_SPARE + 4 * _) h _ (fun _ => by
      simp only [Reg.PS_STS, Reg.PS_SPARE]; omega)) rfl) _ (fun _ => by simp only [Reg.PS_STS, Reg.PS_SUB]; omega)
  · exact h

theorem subScan (h : StsSame s t) : StsSame s t.subScan :=
  .ite _ (PsSame.foldN h (fun _ _ h => .ite _ (substituteOne h _) h) _) h

theorem copyPump (h : StsSame s t) : StsSame s t.copyPump := by
  have hr : ∀ u, StsSame s u → StsSame s u.reloadBusy := fun u hu => PsSame.put hu _ _ _ (by decide)
  have hb : ∀ u f, StsSame s u → StsSame s (((u.put Fld.AT_STS_MERR 1).modAttar f).reloadBusy) :=
    fun u f hu => hr _ (PsSame.free (PsSame.put hu _ _ _ (by decide)) rfl)
  have hl : ∀ u cl on, StsSame s u → StsSame s (u.setLoaded cl on) := fun u cl on hu =>
    PsSame.setElse hu _ (by simp only [Reg.AT_LOADED]; omega)
  unfold State.copyPump
  refine .ite _ h ?_
  split
  · exact h
  · have hk : ∀ ps, StsSame s (if t.meteredRole then Machine.foldN t ps State.substitute else t) := fun ps =>
      .ite _ (PsSame.foldN h (fun _ _ h => PsSame.foldN h (fun _ _ h => substituteOne h _) _) _) h
    refine .ite _ (hb _ _ h) (.ite _ (hr _ (PsSame.free h rfl)) ?_)
    dsimp only
    exact .ite _ (.ite _ (hb _ _ (PsSame.free (hk _) rfl)) (hr _ (hl _ _ _ (PsSame.free (hk _) rfl)))) (hk _)

end StsSame

/-- The device's look at itself leaves PS_STS alone but for RUN. -/
theorem settle_psSts (s : State) (f : FieldRef) (hr : f.reg + 0 = Reg.PS_STS) (hl : 1 ≤ f.lo) :
    s.settle.get f = s.get f := by
  have hget : ∀ {u v : State}, StsSame u v → v.get f = u.get f := fun {u v} h => by
    rw [State.get, hr, h.reg (by decide), State.get, hr]
  have h1 : StsSame s s.holdFinish.subScan.copyPump :=
    StsSame.copyPump (StsSame.subScan (PsSame.holdFinish (PsSame.refl s)))
  have h2 : ∀ u : State, u.runStop.get f = u.get f := fun u => by
    unfold State.runStop
    split
    · exact State.get_put_apart _ _ _ _ _ _ (by decide) (.inr (.inl hl))
    · rfl
  have h3 : ∀ u : State, StsSame u
      (((((u.fallbackScan).redirectHeld).pfcUpdate).evalConds).crierScan.noteQuiet).evalBanked := fun u =>
    PsSame.evalBanked (PsSame.noteQuiet (PsSame.crierScan (StsSame.evalConds (PsSame.pfcUpdate
      (StsSame.redirectHeld (StsSame.fallbackScan (PsSame.refl u)))))))
  calc s.settle.get f = s.holdFinish.subScan.copyPump.runStop.get f := hget (h3 _)
    _ = s.holdFinish.subScan.copyPump.get f := h2 _
    _ = s.get f := hget h1

end Sys2Proof.Machine

/-! PROOF. Slots, dispatch, the bank switch, the fallback and the conditions of the Prompt scheduler (07 R233 to R248). -/

namespace Sys2Proof.Machine

/-! ### Service runs -/

/-- The state once service runs (07 R241). -/
def State.served (s : State) : State := s.put Fld.PS_STS_RUN 1

theorem served_reg (s : State) {a : Nat} (h : a ≠ Reg.PS_STS) : s.served.reg a = s.reg a := State.reg_put_other _ _ _ _ h

theorem served_get (s : State) (f : FieldRef) (off : Nat) (h : f.reg + off ≠ Reg.PS_STS ∨ 1 ≤ f.lo) :
    s.served.get f off = s.get f off :=
  State.get_put_apart _ _ _ _ _ _ (by decide) (h.imp id .inl)

theorem served_holding (s : State) : s.served.holding = s.holding := by
  unfold State.holding State.safeHold State.flag
  rw [served_get _ _ _ (.inl (by decide))]
  rfl

theorem served_slotEntry (s : State) (i : Nat) : s.served.slotEntry s.served.activeBank i = s.slotEntry s.activeBank i := by
  have hb : s.served.activeBank = s.activeBank := served_get _ _ _ (.inr (by decide))
  have hr : ∀ bank, s.served.reg ((if bank = 0 then Reg.PS_BA else Reg.PS_BB) + 4 * (i / 2)) =
      s.reg ((if bank = 0 then Reg.PS_BA else Reg.PS_BB) + 4 * (i / 2)) := fun bank => served_reg _ (by
    simp only [Reg.PS_BA, Reg.PS_BB, Reg.PS_STS]
    split <;> omega)
  simp only [State.slotEntry, hb, hr]

theorem served_serving (s : State) (p : Nat) : s.served.serving p = s.serving p := by
  unfold State.serving
  rw [served_reg _ (by simp only [Reg.PS_SUB, Reg.PS_STS]; omega)]

theorem served_twinOk (s : State) {c : Nat} (hc : c < 512) : s.served.twinOk c = s.twinOk c := by
  have hret : s.served.coreRetired c = s.coreRetired c := by
    rw [State.coreRetired, served_reg _ (by simp only [Reg.AS_RETCORE, Reg.PS_STS]; omega), State.coreRetired]
  have hloaded : s.served.copyLoaded (c / 8) = s.copyLoaded (c / 8) := by
    rw [State.copyLoaded, served_get _ _ _ (.inl (by simp only [Reg.PS_STS]; omega)), State.copyLoaded]
  have hpower : s.served.pstate (c / 64) = s.pstate (c / 64) :=
    served_get _ _ _ (.inl (by simp only [rgOff, Reg.PS_STS]; omega))
  rw [State.twinOk, hret, hloaded, hpower]
  rfl

theorem served_pairFree (s : State) {p : Nat} (hp : p < 64) : s.served.pairFree p = s.pairFree p := by
  have hrole : s.served.meteredRole = s.meteredRole :=
    congrArg (· == 1) (served_get s Fld.PS_STS_METERED 0 (.inr (by decide)))
  have hs : s.served.pairServiceable p = s.pairServiceable p := by
    rw [State.pairServiceable, hrole, served_twinOk s (by simp only [pairCores]; omega),
      served_twinOk s (by simp only [pairCores]; omega), State.pairServiceable]
  rw [State.pairFree, hs]
  rfl

/-- The pair of a slot, and what serves it, is one of the 64 (07 R243, R252). -/
theorem serving_lt {s : State} {bank i p g : Nat} (h : s.slotEntry bank i = some (p, g)) (t : State) : t.serving p < 64 := by
  have hp : p < 64 := by
    simp only [State.slotEntry, Option.ite_none_right_eq_some, Option.some.injEq, Prod.mk.injEq] at h
    obtain ⟨-, rfl, -⟩ := h
    exact Nat.mod_lt _ (by decide)
  unfold State.serving
  dsimp only
  split
  · exact bitsGet_lt _ _ 6
  · exact hp

/-! ### What a slot dispatches -/

/-- A slot dispatches a message, counts as missed, or does nothing. -/
theorem slotDispatch_cases (s : State) (i : Nat) : s.slotDispatch i = s ∨ (∃ p m, s.slotDispatch i = s.dispatch p m) ∨
    s.slotDispatch i = s.bump Fld.PS_SLOTMISS_COUNT := by
  unfold State.slotDispatch
  split
  · exact .inl rfl
  · split
    · exact .inl rfl
    · split
      · exact .inl rfl
      · split
        · exact .inr (.inl ⟨_, _, rfl⟩)
        · exact .inr (.inr rfl)

/-- A slot's dispatch changes no memory and does not write PS_STS. -/
theorem slotDispatch_kept (s : State) (i : Nat) : (s.slotDispatch i).mem = s.mem ∧ StsSame s (s.slotDispatch i) := by
  have hput : ∀ {t : State}, StsSame s t → ∀ (f : FieldRef) v, Reg.PS_STS ≠ f.reg + 0 → StsSame s (t.put f v) :=
    fun h f v hf => StsSame.putPs h f v hf
  rcases slotDispatch_cases s i with e | ⟨p, m, e⟩ | e <;> rw [e]
  · exact ⟨rfl, .refl s⟩
  · exact ⟨rfl, hput ((PsSame.refl s).free rfl) _ _ (by decide)⟩
  · exact ⟨rfl, hput (.refl s) _ _ (by decide)⟩

/-- While service runs and nothing holds it, a slot does what its entry and its group's oldest header give. -/
theorem slotDispatch_runs {s : State} {i : Nat} (hrun : s.flag Fld.PS_STS_RUN = true) (hen : s.flag Fld.PS_CTL_EN = true)
    (hh : s.holding = false) : s.slotDispatch i = (match s.slotEntry s.activeBank i with
      | none => s
      | some (p, g) => match s.oldest g with
        | none => s
        | some m => if s.pairFree (s.serving p) then s.dispatch (s.serving p) m else s.bump Fld.PS_SLOTMISS_COUNT) := by
  unfold State.slotDispatch
  simp only [hrun, hen, hh, Bool.not_true, Bool.or_self, Bool.false_eq_true, if_false] <;> rfl

/-- The slot after slot `i` is the next of the table frame. -/
def State.slotEnds (s : State) (i : Nat) : State := s.modPrompt (fun x => { x with slot := (i + 1) % 256 })

theorem exec_slotBoundary {s : State} (h : s.prompt.seriesAt ≤ s.now * 1000) :
    exec .slotBoundary s = .next ((s.bankSwitch.runStart.slotDispatch s.prompt.slot).slotEnds s.prompt.slot).settle := by
  change execSlotBoundary s = _
  rw [execSlotBoundary, if_neg (Nat.not_lt.mpr h)]
  rfl

theorem bankSwitch_none {s : State} (h : s.prompt.slot = 0 → s.flag Fld.PS_STS_SWPEND = false) : s.bankSwitch = s := by
  unfold State.bankSwitch
  rw [if_neg]
  by_cases hs : s.prompt.slot = 0
  · simp [h hs]
  · simp [hs]

theorem runStart_served {s : State} (hen : s.flag Fld.PS_CTL_EN = true) (hrole : s.meteredRole = true)
    (hout : s.flag Fld.LG_STS_OUT = true) (hh : s.holding = false) : s.runStart = s.served := by
  unfold State.runStart
  simp only [hen, hrole, hout, hh, Bool.and_self, Bool.not_false, if_true]
  rfl

end Sys2Proof.Machine

namespace Sys2Proof.Says

open Sys2Proof.Machine

/-- Once service runs, a slot does what its entry gave before. -/
theorem served_dispatch {s : State} (hen : s.flag Fld.PS_CTL_EN = true) (hh : s.holding = false) (i : Nat) :
    s.served.slotDispatch i = (match s.slotEntry s.activeBank i with
      | none => s.served
      | some (p, g) => match s.oldest g with
        | none => s.served
        | some m => if s.served.pairFree (s.serving p) then s.served.dispatch (s.serving p) m
          else s.served.bump Fld.PS_SLOTMISS_COUNT) := by
  have hrun : s.served.flag Fld.PS_STS_RUN = true :=
    congrArg (· == 1) (State.get_put_same s Fld.PS_STS_RUN 1 0 (by decide))
  have hen' : s.served.flag Fld.PS_CTL_EN = true :=
    (congrArg (· == 1) (served_get s Fld.PS_CTL_EN 0 (.inl (by decide)))).trans hen
  rw [slotDispatch_runs hrun hen' ((served_holding s).trans hh), served_slotEntry]
  simp only [served_serving]
  rfl

section

variable {s : State} (hen : s.flag Fld.PS_CTL_EN = true) (hrole : s.meteredRole = true)
  (hout : s.flag Fld.LG_STS_OUT = true) (hh : s.holding = false) (hser : s.prompt.seriesAt ≤ s.now * 1000)
  (hsw : s.prompt.slot = 0 → s.flag Fld.PS_STS_SWPEND = false)

include hen hrole hout hh hser hsw

/-- A slot that begins while service may run: what its entry gives, once RUN is 1. -/
theorem slotBoundary_acts : Acts .slotBoundary s ((s.served.slotDispatch s.prompt.slot).slotEnds s.prompt.slot) := by
  rw [Acts, exec_slotBoundary hser, bankSwitch_none hsw, runStart_served hen hrole hout hh]

theorem slot_empty (he : s.slotEntry s.activeBank s.prompt.slot = none) :
    ∃ u, Acts .slotBoundary s u ∧ u.mem = s.mem ∧ u.get Fld.PS_STS_RUN = 1 ∧ u.prompt.slot = (s.prompt.slot + 1) % 256 := by
  refine ⟨_, slotBoundary_acts hen hrole hout hh hser hsw, ?_⟩
  rw [served_dispatch hen hh, he]
  exact ⟨rfl, State.get_put_same s Fld.PS_STS_RUN 1 0 (by decide), rfl⟩

theorem slot_dispatches {p g : Nat} {m : PromptMsg} (he : s.slotEntry s.activeBank s.prompt.slot = some (p, g))
    (hm : s.oldest g = some m) (hf : s.pairFree (s.serving p) = true) :
    ∃ u, Acts .slotBoundary s u ∧ u.mem = s.mem ∧ u.prompt.slot = (s.prompt.slot + 1) % 256 ∧
      u.prompt.waiting = s.prompt.waiting.erase m ∧ (u.pair (s.serving p)).phase = .dispatched ∧
      (u.pair (s.serving p)).msg = some m ∧ oneMore s u Fld.PS_DISP_COUNT 0 := by
  refine ⟨_, slotBoundary_acts hen hrole hout hh hser hsw, ?_⟩
  rw [served_dispatch hen hh, he]
  simp only [hm, served_pairFree s (serving_lt he s), hf, if_true]
  have hpair := State.pair_setPair_same (s.served.modPrompt (fun x => { x with waiting := x.waiting.erase m })) (s.serving p)
  refine ⟨rfl, rfl, rfl, congrArg Pair.phase (hpair _), congrArg Pair.msg (hpair _), ?_⟩
  refine (State.get_bump_same _ Fld.PS_DISP_COUNT 1 0 (by decide)).trans ?_
  exact congrArg (fun x => min (x + 1) _) (served_get s Fld.PS_DISP_COUNT 0 (.inl (by decide)))

theorem slot_missed {p g : Nat} {m : PromptMsg} (he : s.slotEntry s.activeBank s.prompt.slot = some (p, g))
    (hm : s.oldest g = some m) (hf : s.pairFree (s.serving p) = false) :
    ∃ u, Acts .slotBoundary s u ∧ u.mem = s.mem ∧ u.prompt.slot = (s.prompt.slot + 1) % 256 ∧
      u.prompt.waiting = s.prompt.waiting ∧ oneMore s u Fld.PS_SLOTMISS_COUNT 0 := by
  refine ⟨_, slotBoundary_acts hen hrole hout hh hser hsw, ?_⟩
  rw [served_dispatch hen hh, he]
  simp only [hm, served_pairFree s (serving_lt he s), hf, Bool.false_eq_true, if_false]
  refine ⟨rfl, rfl, rfl, ?_⟩
  refine (State.get_bump_same _ Fld.PS_SLOTMISS_COUNT 1 0 (by decide)).trans ?_
  exact congrArg (fun x => min (x + 1) _) (served_get s Fld.PS_SLOTMISS_COUNT 0 (.inl (by decide)))

end

/-! ### HANDLER_ENTRY -/

theorem handler_entered {s : State} {p : PairId} {m : PromptMsg} (hh : s.holding = false)
    (hphase : (s.pair p.toNat).phase = .dispatched) (hmsg : (s.pair p.toNat).msg = some m)
    (hat : (s.pair p.toNat).dispAt + 40 ≤ s.now) :
    ∃ s', exec (.handlerEntry p) s = .next s' ∧ s'.mem = s.mem ∧ (s'.pair p.toNat).phase = .running ∧
      Dispatched s s' (pairCores p.toNat).1 m ∧ Dispatched s s' (pairCores p.toNat).2 m := by
  obtain ⟨hmem, hpair, hd1, hd2⟩ := startPair_dispatched s p.toNat m
  have hres : ∀ (u : State) a b, ∃ q, u.noteResidence a b = { u with prompt := q } := fun u a b => by
    unfold State.noteResidence
    split
    · exact ⟨_, rfl⟩
    · exact ⟨u.prompt, rfl⟩
  obtain ⟨q, hq⟩ := hres (s.startPair p.toNat m) ((s.startPair p.toNat m).now - m.rxAt) 900
  have e : ∃ v, exec (.handlerEntry p) s =
      device (State.put { s.startPair p.toNat m with prompt := q } Fld.PS_RES_ING v) := by
    rw [← hq]
    change ∃ v, execHandlerEntry p s = _
    simp only [execHandlerEntry, hphase, hmsg, hh, Nat.not_lt.mpr hat, decide_false, Bool.or_self, Bool.false_eq_true, if_false]
    exact ⟨_, rfl⟩
  obtain ⟨v, e⟩ := e
  have k := Settled.settle (State.put { s.startPair p.toNat m with prompt := q } Fld.PS_RES_ING v)
  generalize s.startPair p.toNat m = u at hmem hpair hd1 hd2 e k
  refine ⟨_, e, k.mem.trans hmem, ?_, ?_, ?_⟩
  · rw [k.pair]
    exact congrArg Pair.phase hpair
  · exact hd1.carried rfl rfl (k.thr _) ⟨_, k.core _⟩
  · exact hd2.carried rfl rfl (k.thr _) ⟨_, k.core _⟩

end Sys2Proof.Says

/-! PROOF. The pending bank, the fallback of a header and the clearing of a condition (07 R233, R234, R244, R248, R250). -/

namespace Sys2Proof.Machine

/-! ### The pending bank -/

/-- The pending bank in effect (07 R244). -/
def State.bankTaken (s : State) : State :=
  (((s.put Fld.PS_STS_ABANK (s.get Fld.PS_BANK_SEL)).put Fld.PS_STS_SWPEND 0).setEff Reg.PS_BANK (s.reg Reg.PS_BANK)).modPrompt
    (fun x => { x with seamBad := !s.seamOk s.activeBank (s.get Fld.PS_BANK_SEL) })

theorem bankSwitch_taken {s : State} (hsw : s.flag Fld.PS_STS_SWPEND = true) (hslot : s.prompt.slot = 0) :
    s.bankSwitch = s.bankTaken.settle := by
  unfold State.bankSwitch
  rw [if_pos (by rw [hsw, hslot]; rfl)]
  rfl

/-- The bank selected is in effect and none is pending. -/
def BankInEffect (s u : State) : Prop := u.get Fld.PS_STS_ABANK = s.get Fld.PS_BANK_SEL ∧ u.get Fld.PS_STS_SWPEND = 0

theorem bankTaken_inEffect (s : State) : BankInEffect s s.bankTaken := by
  constructor
  · refine (State.get_put_apart (s.put Fld.PS_STS_ABANK (s.get Fld.PS_BANK_SEL)) Fld.PS_STS_SWPEND Fld.PS_STS_ABANK 0 0 0
      (by decide) (.inr (.inr (by decide)))).trans ?_
    rw [State.get_put_same _ _ _ _ (by decide)]
    exact Nat.mod_eq_of_lt (bitsGet_lt _ _ 1)
  · exact State.get_put_same (s.put Fld.PS_STS_ABANK (s.get Fld.PS_BANK_SEL)) Fld.PS_STS_SWPEND 0 0 (by decide)

theorem BankInEffect.settle {s u : State} (h : BankInEffect s u) : BankInEffect s u.settle :=
  ⟨(settle_psSts u _ rfl (by decide)).trans h.1, (settle_psSts u _ rfl (by decide)).trans h.2⟩

theorem BankInEffect.same {s u v : State} (h : BankInEffect s u) (k : StsSame u v) : BankInEffect s v := by
  have hsts : v.reg Reg.PS_STS = u.reg Reg.PS_STS := k.reg (by decide)
  exact ⟨(congrArg (bitsGet · 2 1) hsts).trans h.1, (congrArg (bitsGet · 3 1) hsts).trans h.2⟩

/-- The start of service changes no memory, and no bank. -/
theorem BankInEffect.runStart {s u : State} (h : BankInEffect s u) : u.runStart.mem = u.mem ∧ BankInEffect s u.runStart := by
  unfold State.runStart
  split
  · exact ⟨rfl, (served_get u _ _ (.inr (by decide))).trans h.1, (served_get u _ _ (.inr (by decide))).trans h.2⟩
  · exact ⟨rfl, h⟩

/-! ### A header's way to a thread's mailbox -/

/-- The state `t` differs from `s` in the Crier, in registers, and in what wakes are asked for. -/
structure CrierOnly (s t : State) : Prop where
  rest : ∃ r c p, t = { s with regs := r, crier := c, power := p }

namespace CrierOnly

variable {s t u : State}

theorem refl (s : State) : CrierOnly s s := ⟨_, _, _, rfl⟩

theorem free (h : CrierOnly s t) (e : u = { t with regs := u.regs, crier := u.crier, power := u.power }) : CrierOnly s u := by
  obtain ⟨_, _, _, rfl⟩ := h.rest
  exact ⟨_, _, _, e⟩

theorem ite (c : Prop) [Decidable c] {x y : State} (h : CrierOnly s x) (k : CrierOnly s y) :
    CrierOnly s (if c then x else y) := by
  split
  · exact h
  · exact k

theorem crierWake (h : CrierOnly s t) (r : Nat) : CrierOnly s (t.crierWake r) :=
  have ha : CrierOnly s (t.askWake r) := .ite _ (h.free rfl) h
  .ite _ h (ha.free rfl)

theorem rescan (h : CrierOnly s t) (k : Nat) : CrierOnly s (t.rescan k) := by
  have h2 : ∀ (x : Src) (c : Prop) [Decidable c],
      CrierOnly s (if c then (t.setSrc k x).bump Fld.CR_CNT_REROUTE_COUNT else t.setSrc k x) :=
    fun x c _ => .ite _ (h.free rfl) (h.free rfl)
  unfold State.rescan
  refine .ite _ h ?_
  dsimp only
  split
  · exact .ite _ ((h2 ..).crierWake _) (h2 ..)
  · exact h2 ..

theorem msgEvent (h : CrierOnly s t) (n : Nat) : CrierOnly s (t.msgEvent n) := .ite _ (h.free rfl) (rescan (h.free rfl) _)

end CrierOnly

/-- A header of class 0 enters the mailbox of a thread that is awake, where the mailbox has room and none waits before it. -/
theorem toThread_posts {s : State} {t : Nat} {x : Header} (hc : x.cls = 0) (hg : s.gated (t / 256) = false)
    (hstore : s.porter.store = []) (hroom : (s.thr t).mailbox.length < 8) : s.toThread t x = s.postHeader t x := by
  have hroom' : ¬ mailboxSize ≤ (s.thr t).mailbox.length := Nat.not_le.mpr hroom
  have hdrop : s.mailDrops t x = false := by simp [State.mailDrops, hc]
  have hbefore : s.heldBefore t x = false := by simp [State.heldBefore, hstore]
  unfold State.toThread
  simp [hdrop, hbefore, regionOfThread, hg, hroom']

theorem destOf_thread {code t : Nat} (h : destOf code = .thread t) : code / 2 ^ 28 = 0 ∧ t < 2048 := by
  unfold destOf at h
  dsimp only at h
  split at h
  case h_1 hk =>
    split at h
    · cases h
      exact ⟨hk, ‹_›⟩
    · cases h
  case h_2 | h_3 | h_4 => split at h <;> cases h
  case h_5 => cases h

/-- A mailbox after a header has entered it; the scheduler and its registers stay. -/
theorem postHeader_spec (s : State) (t : Nat) (x : Header) : (s.postHeader t x).mem = s.mem ∧
    (s.postHeader t x).prompt = s.prompt ∧ ((s.postHeader t x).thr t).mailbox = (s.thr t).mailbox ++ [x] ∧
    ∀ b, PsSame b s (s.postHeader t x) := by
  obtain ⟨r, c, p, e⟩ := ((CrierOnly.refl (s.modThr t (fun th => { th with mailbox := th.mailbox ++ [x] }))).msgEvent t).rest
  refine ⟨?_, ?_, ?_, fun b => PsSame.msgEvent ((PsSame.refl s).free rfl) t⟩
  · rw [State.postHeader, e]
    rfl
  · rw [State.postHeader, e]
    rfl
  · rw [State.postHeader, e]
    exact congrArg Thread.mailbox (State.thr_modThr_same s t (fun th => { th with mailbox := th.mailbox ++ [x] }))

/-! ### The fallback -/

/-- What is found by one test is found first by that test and another that it passes. -/
theorem find?_and {α : Type} {l : List α} {p q : α → Bool} {a : α} (h : l.find? p = some a) (hq : q a = true) :
    l.find? (fun x => p x && q x) = some a := by
  obtain ⟨hp, as, bs, rfl, hbefore⟩ := List.find?_eq_some_iff_append.mp h
  refine List.find?_eq_some_iff_append.mpr ⟨by simp [hp, hq], as, bs, rfl, fun x hx => ?_⟩
  have := hbefore x hx
  simp_all

/-- A header whose group's fallback is a thread that can take it goes there as a header of class 0 (07 R248). -/
theorem toFallback_posts {s : State} {m : PromptMsg} {t : Nat}
    (hdest : destOf (s.cfg Fld.PS_GFB_DEST (16 * m.group)) = .thread t) (htakes : s.takesHeaders t = true)
    (hg : s.gated (t / 256) = false) (hstore : s.porter.store = []) (hroom : (s.thr t).mailbox.length < 8) :
    s.toFallback m = (s.bump Fld.PS_FALLBK_COUNT).postHeader t { m.hdr with cls := 0 } := by
  obtain ⟨hkind, ht⟩ := destOf_thread hdest
  have htakes' : (s.bump Fld.PS_FALLBK_COUNT).takesHeaders t = true := by
    have hret : (s.bump Fld.PS_FALLBK_COUNT).reg (Reg.AS_RETCORE + 4 * (t / 4 / 32)) = s.reg (Reg.AS_RETCORE + 4 * (t / 4 / 32)) :=
      State.reg_put_other _ _ _ _ (by simp only [Reg.AS_RETCORE]; omega)
    rw [← htakes, State.takesHeaders, State.coreRetired, hret]
    rfl
  have hg' : (s.bump Fld.PS_FALLBK_COUNT).gated (t / 256) = false := by
    have hp : (s.bump Fld.PS_FALLBK_COUNT).pstate (t / 256) = s.pstate (t / 256) :=
      State.get_put_other _ _ _ _ _ _ (by simp only [rgOff]; omega)
    rw [← hg, State.gated, hp, State.gated]
  have hpost := toThread_posts (x := { m.hdr with cls := 0 }) rfl hg' hstore hroom
  have hcode : (s.bump Fld.PS_FALLBK_COUNT).cfg Fld.PS_GFB_DEST (16 * m.group) = s.cfg Fld.PS_GFB_DEST (16 * m.group) := rfl
  unfold State.toFallback
  dsimp only
  rw [hcode, if_neg (by omega)]
  unfold State.deliver
  rw [hdest]
  dsimp only
  rw [if_pos htakes', hpost]

/-! ### A condition cleared -/

/-- A bit taken from a number that has it is no longer there. -/
theorem bitOf_sub {w n : Nat} (h : bitOf w n = true) : bitOf (w - 2 ^ n) n = false := by
  have hb : w / 2 ^ n % 2 = 1 := by simpa [bitOf] using h
  have hd : (w - 2 ^ n) / 2 ^ n = w / 2 ^ n - 1 := by
    have := Nat.sub_mul_div w (2 ^ n) 1
    rwa [Nat.mul_one] at this
  simp only [bitOf, hd, beq_eq_false_iff_ne]
  omega

/-- The bit of a condition that is cleared. -/
theorem setCond_clears (s : State) (n : Nat) :
    (s.setCond n false).mem = s.mem ∧ bitOf ((s.setCond n false).get Fld.PS_COND_COND) n = false := by
  refine ⟨((Calm.refl s).setCond n false).mem, ?_⟩
  by_cases hb : bitOf (s.get Fld.PS_COND_COND) n = true
  · have hlt : s.get Fld.PS_COND_COND < 2 ^ 9 := bitsGet_lt _ _ 9
    have e : ∃ body, s.setCond n false = (s.put Fld.PS_COND_COND (s.get Fld.PS_COND_COND - 2 ^ n)).record 0x10 1 body := by
      unfold State.setCond
      simp only [hb]
      exact ⟨_, rfl⟩
    obtain ⟨body, e⟩ := e
    have hsame : (s.setCond n false).reg Reg.PS_COND =
        (s.put Fld.PS_COND_COND (s.get Fld.PS_COND_COND - 2 ^ n)).reg Reg.PS_COND := by
      rw [e]
      exact (PsSame.record (.refl _) 0x10 1 body).reg (by decide)
    have hget : (s.setCond n false).get Fld.PS_COND_COND = s.get Fld.PS_COND_COND - 2 ^ n := by
      refine (congrArg (bitsGet · 0 9) hsame).trans ((State.get_put_same s Fld.PS_COND_COND _ 0 (by decide)).trans ?_)
      exact Nat.mod_eq_of_lt (Nat.lt_of_le_of_lt (Nat.sub_le ..) hlt)
    rw [hget]
    exact bitOf_sub hb
  · have hb' : bitOf (s.get Fld.PS_COND_COND) n = false := Bool.not_eq_true _ ▸ hb
    have e : s.setCond n false = s := by
      unfold State.setCond
      simp only [hb', BEq.rfl, if_true]
    rw [e, hb']

/-- Tokens and buckets are no memory and no registers. -/
theorem fillPrompt_eq (s : State) : ∃ p, s.fillPrompt = { s with prompt := p } := by
  unfold State.fillPrompt
  dsimp only
  split
  · exact ⟨s.prompt, rfl⟩
  · exact ⟨_, rfl⟩

end Sys2Proof.Machine

namespace Sys2Proof.Says

open Sys2Proof.Machine

theorem bank_switches {s : State} (hsw : s.flag Fld.PS_STS_SWPEND = true) (hslot : s.prompt.slot = 0)
    (hser : s.prompt.seriesAt ≤ s.now * 1000) (c : Instr) (hc : c = .bankSwitch ∨ c = .slotBoundary) :
    ∃ u, Acts c s u ∧ u.mem = s.mem ∧ u.get Fld.PS_STS_ABANK = s.get Fld.PS_BANK_SEL ∧ u.get Fld.PS_STS_SWPEND = 0 := by
  have htaken := bankTaken_inEffect s
  have e := bankSwitch_taken hsw hslot
  rcases hc with rfl | rfl
  · exact ⟨s.bankTaken, congrArg Host.Outcome.next e, rfl, htaken⟩
  · obtain ⟨hrmem, hrun⟩ := htaken.settle.runStart
    obtain ⟨hdmem, hdisp⟩ := slotDispatch_kept s.bankTaken.settle.runStart s.prompt.slot
    have hmem : s.bankTaken.settle.mem = s.mem := (Settled.settle s.bankTaken).mem
    refine ⟨_, exec_slotBoundary hser, ?_⟩
    rw [e]
    exact ⟨hdmem.trans (hrmem.trans hmem), (hrun.same hdisp : BankInEffect s _)⟩

theorem fallback_posts {s : State} {g : BitVec 4} {m : PromptMsg} {t : Nat} (hh : s.holding = false)
    (hm : s.oldest g.toNat = some m) (hus : s.cfg Fld.PS_FBWAIT_US ≠ 0)
    (hlong : m.since + 1000 * s.cfg Fld.PS_FBWAIT_US < s.now) (hstore : s.porter.store = [])
    (hdest : destOf (s.cfg Fld.PS_GFB_DEST (16 * m.group)) = .thread t) (htakes : s.takesHeaders t = true)
    (hg : s.gated (t / 256) = false) (hroom : (s.thr t).mailbox.length < 8) :
    ∃ u, Acts (.fallback g) s u ∧ u.mem = s.mem ∧ u.prompt.waiting = s.prompt.waiting.erase m ∧
      (u.thr t).mailbox = (s.thr t).mailbox ++ [{ m.hdr with cls := 0 }] ∧ oneMore s u Fld.PS_FALLBK_COUNT 0 := by
  have hwaited : s.waitedLong m = true := by simp [State.waitedLong, hus, hlong]
  have hfind : s.prompt.waiting.find? (fun x => x.group == g.toNat && s.waitedLong x) = some m := find?_and hm hwaited
  have hpost := toFallback_posts (s := s.modPrompt (fun x => { x with waiting := x.waiting.erase m })) hdest htakes hg hstore hroom
  have hacts : Acts (.fallback g) s ((s.modPrompt (fun x => { x with waiting := x.waiting.erase m })).toFallback m) := by
    change execFallback g s = _
    unfold execFallback
    rw [hfind]
    simp only [hh, Bool.false_eq_true, if_false]
    rfl
  rw [hpost] at hacts
  obtain ⟨hmem, hprompt, hbox, hps⟩ := postHeader_spec
    ((s.modPrompt (fun x => { x with waiting := x.waiting.erase m })).bump Fld.PS_FALLBK_COUNT) t { m.hdr with cls := 0 }
  refine ⟨_, hacts, hmem, by rw [hprompt]; rfl, hbox, ?_⟩
  have hreg := (hps Reg.PS_FALLBK).reg (by decide)
  refine (congrArg (bitsGet · 0 32) hreg).trans ?_
  exact State.get_bump_same (s.modPrompt (fun x => { x with waiting := x.waiting.erase m })) Fld.PS_FALLBK_COUNT 1 0 (by decide)

theorem conditionClear_eq (s : State) (n : BitVec 4) : exec (.conditionClear n) s =
    .next (if s.fillPrompt.condFails n.toNat then s.fillPrompt else s.fillPrompt.setCond n.toNat false) := rfl

theorem condition_clears {s : State} {n : BitVec 4} (h : s.fillPrompt.condFails n.toNat = false) :
    ∃ s', exec (.conditionClear n) s = .next s' ∧ s'.mem = s.mem ∧ bitOf (s'.get Fld.PS_COND_COND) n.toNat = false := by
  obtain ⟨p, e⟩ := fillPrompt_eq s
  obtain ⟨hmem, hbit⟩ := setCond_clears s.fillPrompt n.toNat
  refine ⟨_, (conditionClear_eq s n).trans (by rw [h, if_neg Bool.false_ne_true]), hmem.trans (by rw [e]), hbit⟩

theorem condition_stays {s : State} {n : BitVec 4} (h : s.fillPrompt.condFails n.toNat = true) :
    ∃ s', exec (.conditionClear n) s = .next s' ∧ s'.mem = s.mem ∧ s'.get Fld.PS_COND_COND = s.get Fld.PS_COND_COND := by
  obtain ⟨p, e⟩ := fillPrompt_eq s
  refine ⟨_, (conditionClear_eq s n).trans (by rw [h, if_pos rfl]), ?_⟩
  rw [e]
  exact ⟨rfl, rfl⟩

/-- Settles O44: what a slot's entry, a dispatch, the pending bank, a fallback and a condition give. -/
theorem promptScheduler : Obligations.PromptScheduler := fun _ hh =>
  ⟨fun hen hrole hout hser hsw => ⟨slot_empty hen hrole hout hh hser hsw, fun _ _ _ he hm =>
      ⟨slot_dispatches hen hrole hout hh hser hsw he hm, slot_missed hen hrole hout hh hser hsw he hm⟩⟩,
    fun _ _ => handler_entered hh, bank_switches, fun _ _ _ => fallback_posts hh,
    fun _ _ => ⟨condition_clears, condition_stays⟩⟩

end Sys2Proof.Says
